-- ==== Sys2Proof/Word.lean ====
section
/-! DEFINITION. The word types of the QSM-9610: bytes, 32-bit and 64-bit words, vector registers. -/

namespace Sys2Proof

abbrev Byte := BitVec 8
abbrev W32 := BitVec 32
abbrev Word := BitVec 64
/-- A vector register: 64 lanes of 32 bits (R80). -/
abbrev VReg := BitVec 2048

/-- A sparse table from numbers to values, in one canonical form (Machine/Table.lean). -/
abbrev Tbl (α : Type) := List (Nat × α)

end Sys2Proof
end

