-- ==== Sys2Proof/Machine/Bits.lean ====
section
/-! DEFINITION. Bit fields, byte order, sign extension and the plainest arithmetic that every meaning uses
(00 R2: every multi-byte field is little-endian). -/

namespace Sys2Proof

/-- Smallest integer not below `a / b` (R44, R262 "ceil"). -/
def ceilDiv (a b : Nat) : Nat := (a + b - 1) / b

/-- The value of a list of bytes, the first the least significant (R2). -/
def leNat : List Byte → Nat
  | [] => 0
  | b :: bs => b.toNat + 256 * leNat bs

/-- The `n` bytes of a number, the least significant first (R2). -/
def leBytes : Nat → Nat → List Byte
  | 0, _ => []
  | n + 1, v => BitVec.ofNat 8 v :: leBytes n (v / 256)

/-- Bits `[hi:lo]` of a number. -/
def bits (v hi lo : Nat) : Nat := (v >>> lo) % 2 ^ (hi + 1 - lo)

/-- Bit `i` of a number. -/
def bit (v i : Nat) : Bool := v.testBit i

/-- 1 for true and 0 for false. -/
def b2n (b : Bool) : Nat := if b then 1 else 0

/-- The signed reading of the low `w` bits of `v`, two's complement. -/
def sext (w v : Nat) : Int :=
  let m := v % 2 ^ w
  if m < 2 ^ (w - 1) then (m : Int) else (m : Int) - (2 ^ w : Nat)

/-- `x` held between `lo` and `hi`. -/
def clampInt (lo hi x : Int) : Int := if x < lo then lo else if hi < x then hi else x

/-- Increment that stops at `m` ("saturating"). -/
def satInc (m x : Nat) : Nat := if x < m then x + 1 else m

end Sys2Proof
end

