-- ==== Sys2Proof/Syntax.lean ====
section
/-! DEFINITION. The commands of the QSM-9610 block: one constructor per row of spec/opcode_table.json.
Operands common to many rows: `fb` a base die 0-3, `sc` a compute die 0-15, `n` a logical core 0-4095,
`t` a thread 0-15, `pr` the predicate register of the word (R92), `d a b c` register fields of the word
(R93), `k` a tally counter, `l` a fabric link 0-95, `link` a PCIe link 0-3 (R229), `h` the header of a
command packet (R243), `ring` and `cq` a command ring and a completion ring 0-63, `dpa` a device physical
address (R26), `v` a register value written.  Operands that stand for what comes from outside the block
(a sensor reading, data read from host memory, the verdict of an error-correcting code, the partner's
masks) are named for it. -/

namespace Sys2Proof

/-- A die that can be lost: a base die or a compute die (R340). -/
inductive Die where
  | fb (k : Nat)
  | sc (k : Nat)
  deriving DecidableEq, Repr

/-- A Gulgen bundle at base die `fb`: edge `s` (0 horizontal, 1 vertical), pair `i`, bundle `b` (R328). -/
structure Bundle where
  fb : Nat
  s : Nat
  i : Nat
  b : Nat
  deriving DecidableEq, Repr

/-- Port `p` of the router with local index `a` in base die `fb` (R156, R19). -/
structure MPort where
  fb : Nat
  a : Nat
  p : Nat
  deriving DecidableEq, Repr

/-- What the error-correcting code says of the data an access reads: an input, for it is a physical fact. -/
inductive Ecc where
  | ok
  | corrected
  | uncorrectable
  deriving DecidableEq, Repr

/-- A mesh flit: the control field of R159 and its 128 data bytes. -/
structure Flit where
  rclass : Nat
  tag : Nat
  type : Nat
  half : Nat
  chunk : Nat
  chunks : Nat
  cancel : Bool
  cont : Bool
  detour : Bool
  prio : Nat
  vn : Nat
  srcPort : Nat
  srcRouter : Nat
  dstPort : Nat
  dstRouter : Nat
  data : List Byte
  deriving DecidableEq, Repr

/-- The command header of R243; `ctx` is the ring's context. -/
structure Hdr where
  ring : Nat
  ctx : Nat
  vis : Nat
  compl : Nat
  seq : W32
  timeout : W32
  tag : Word
  deriving DecidableEq, Repr

/-- A regulation entry (R177); a charge is a resource number and a rate in 0.1 GB/s. -/
structure RglEntry where
  cls : Nat
  mode : Nat
  portset : Nat
  index : Nat
  rate : Nat
  burst : Nat
  charges : List (Nat × Nat)
  deriving DecidableEq, Repr

/-- The fields of RED_GROUP_CREATE (R183); `members` lists logical cores in ascending order. -/
structure GroupDesc where
  group : Nat
  kind : Nat
  mode : Nat
  op : Nat
  elem : Nat
  outFmt : Nat
  rm : Nat
  sat : Bool
  anchor : Int
  root : Nat
  source : Nat
  length : Nat
  result : Nat
  nbuf : Nat
  resultLs : Nat
  resCtr : Nat
  resultDva : Nat
  flagDva : Nat
  vis : Nat
  depth : Nat
  prio : Nat
  members : List Nat
  deriving DecidableEq, Repr

/-- One chunk of a Mill packet with the fields its parameter flit carries (R189). -/
structure MillChunk where
  group : Nat
  seq : W32
  chunk : Nat
  flags : BitVec 6
  data : List Byte
  version : Nat
  deriving DecidableEq, Repr

/-- Where a result, release or notice arrives: a combining router or a member core. -/
inductive MillNode where
  | router (r : Nat)
  | member (n : Nat)
  deriving DecidableEq, Repr

/-- A segment descriptor (R206): `kind` 0 DEVICE, 1 HOST; `page` 0 for 64 MiB, 1 for 2 GiB. -/
structure SegDesc where
  kind : Nat
  page : Nat
  r : Bool
  w : Bool
  x : Bool
  port : Nat
  base : Nat
  pages : Nat
  array : Nat
  hostOffset : Word
  deriving DecidableEq, Repr

/-- The flag options of a Carter command (R263): FLAGS_ON, FLAG_SHIFT, FLAG_DVA. -/
structure FlagOpt where
  on : Bool
  shift : Nat
  dva : Nat
  deriving DecidableEq, Repr

/-- A dimension above the first of COPY_ND: its count and its signed byte stride (R264). -/
structure Dim where
  count : Nat
  stride : Int
  deriving DecidableEq, Repr

/-- The X options of VCVT, VQMX and VQ4 (R96). -/
structure CvtOpt where
  tgt : Nat
  src : Nat
  rm : Nat
  sat : Bool
  k : Nat
  deriving DecidableEq, Repr

/-- The options of TRD (R97). -/
structure TrdOpt where
  fmt : Nat
  rm : Nat
  sat : Bool
  clr : Bool
  rel : Bool
  deriving DecidableEq, Repr

/-- A fabric packet: the header of R305 and its payload. -/
structure FPkt where
  hops : Nat
  vn : Nat
  type : Nat
  src : Nat
  dst : Nat
  tag : Nat
  prio : Nat
  op : Nat
  vis : Nat
  group : Nat
  seq : W32
  addr : Nat
  len : Nat
  chunk : Nat
  status : Nat
  flags : BitVec 6
  data : List Byte
  version : Nat := 1
  deriving DecidableEq, Repr

/-- One exchange of fabric link training (R302): this end's good mask, and what the partner sent. -/
structure TrainEx where
  good : BitVec 8
  peerGood : BitVec 8
  peerMax : Nat
  peerWidth : Nat
  peerValid : Bool
  peerId : Nat
  peerLink : Nat
  deriving DecidableEq, Repr

/-- A unit of the Tithe map: kind, die and location bytes 4-7 as one number (R354). -/
structure TitheUnit where
  kind : Nat
  die : Nat
  loc : Nat
  deriving DecidableEq, Repr

/-- What the tests of a start step found (R349, R352, R355, R356): whether the step failed and whether
from a firmware cause, the base dies that failed, the units that failed their tests, the units of the
soft record that passed, the first temperature readings of the stacks, the channels (64 q + c) that trained at
8.0 Gb/s only, and the redundant lanes that channels use after their training (R153). -/
structure StepReport where
  fail : Bool
  firmware : Bool
  fbFail : List Nat
  bad : List TitheUnit
  passed : List TitheUnit
  temps : List Nat
  stepped : List Nat := []
  lanes : List (Nat × Nat) := []
  deriving DecidableEq, Repr

/-- An event a block reports (R409, R414): code, source number, context and data words. -/
structure EvReport where
  code : Nat
  source : Nat
  ctx : Nat
  d0 : Word
  d1 : Word
  deriving DecidableEq, Repr

/-- The commands: one constructor per row of spec/opcode_table.json, the instructions of a core first. -/
inductive Instr where
  /-- NOP_INSTR (R92): The scalar NOP instruction does nothing. -/
  | nopInstr (n : Nat) (t : Nat) (pr : Nat)
  /-- ADD (R93): sD = sA + sB. -/
  | add (n : Nat) (t : Nat) (pr : Nat) (d : Nat) (a : Nat) (b : Nat)
  /-- SUB (R93): sD = sA − sB. -/
  | sub (n : Nat) (t : Nat) (pr : Nat) (d : Nat) (a : Nat) (b : Nat)
  /-- ADDI (R93): sD = sA + IMM. -/
  | addi (n : Nat) (t : Nat) (pr : Nat) (d : Nat) (a : Nat) (imm : Int)
  /-- MUL (R93): sD = the low 64 bits of sA × sB. -/
  | mul (n : Nat) (t : Nat) (pr : Nat) (d : Nat) (a : Nat) (b : Nat)
  /-- MULHU (R93): sD = the high 64 bits of the unsigned product. -/
  | mulhu (n : Nat) (t : Nat) (pr : Nat) (d : Nat) (a : Nat) (b : Nat)
  /-- MULHS (R93): sD = the high 64 bits of the signed product. -/
  | mulhs (n : Nat) (t : Nat) (pr : Nat) (d : Nat) (a : Nat) (b : Nat)
  /-- AND (R93): sD = sA and sB. -/
  | and (n : Nat) (t : Nat) (pr : Nat) (d : Nat) (a : Nat) (b : Nat)
  /-- OR (R93): sD = sA or sB. -/
  | or (n : Nat) (t : Nat) (pr : Nat) (d : Nat) (a : Nat) (b : Nat)
  /-- XOR (R93): sD = sA xor sB. -/
  | xor (n : Nat) (t : Nat) (pr : Nat) (d : Nat) (a : Nat) (b : Nat)
  /-- SHL (R93): Shift left by sB mod 64. -/
  | shl (n : Nat) (t : Nat) (pr : Nat) (d : Nat) (a : Nat) (b : Nat)
  /-- SHR (R93): Logical shift right. -/
  | shr (n : Nat) (t : Nat) (pr : Nat) (d : Nat) (a : Nat) (b : Nat)
  /-- SAR (R93): Arithmetic shift right. -/
  | sar (n : Nat) (t : Nat) (pr : Nat) (d : Nat) (a : Nat) (b : Nat)
  /-- LI (R93): sD = sign-extended IMM. -/
  | li (n : Nat) (t : Nat) (pr : Nat) (d : Nat) (imm : Int)
  /-- LIH (R93): sD[63:36] = IMM[27:0], with the low bits kept. -/
  | lih (n : Nat) (t : Nat) (pr : Nat) (d : Nat) (imm : Nat)
  /-- CMPEQ (R93): All bits of pD = (sA = sB). -/
  | cmpeq (n : Nat) (t : Nat) (pr : Nat) (d : Nat) (a : Nat) (b : Nat)
  /-- CMPLT (R93): pD = signed sA < sB. -/
  | cmplt (n : Nat) (t : Nat) (pr : Nat) (d : Nat) (a : Nat) (b : Nat)
  /-- CMPLTU (R93): pD = unsigned sA < sB. -/
  | cmpltu (n : Nat) (t : Nat) (pr : Nat) (d : Nat) (a : Nat) (b : Nat)
  /-- PAND (R93): pD = pA and pB. -/
  | pand (n : Nat) (t : Nat) (pr : Nat) (d : Nat) (a : Nat) (b : Nat)
  /-- POR (R93): pD = pA or pB. -/
  | por (n : Nat) (t : Nat) (pr : Nat) (d : Nat) (a : Nat) (b : Nat)
  /-- PNOT (R93): pD = not pA. -/
  | pnot (n : Nat) (t : Nat) (pr : Nat) (d : Nat) (a : Nat)
  /-- BR (R83): PC = PC + 8 × IMM, with the kernel-range check. -/
  | br (n : Nat) (t : Nat) (pr : Nat) (imm : Int)
  /-- BRL (R83): sD = PC + 8, then branch. -/
  | brl (n : Nat) (t : Nat) (pr : Nat) (d : Nat) (imm : Int)
  /-- JR (R83): PC = sA[15:0], with the alignment and range checks. -/
  | jr (n : Nat) (t : Nat) (pr : Nat) (a : Nat)
  /-- RDFLG (R82): sD = FLG. -/
  | rdflg (n : Nat) (t : Nat) (pr : Nat) (d : Nat)
  /-- CLRFLG (R82): Clears the FLG bits selected by X[5:0]. -/
  | clrflg (n : Nat) (t : Nat) (pr : Nat) (x : Nat)
  /-- RDID (R93): sD = the logical core and thread numbers. -/
  | rdid (n : Nat) (t : Nat) (pr : Nat) (d : Nat)
  /-- RDMER (R401): sD = the Meridian value. -/
  | rdmer (n : Nat) (t : Nat) (pr : Nat) (d : Nat)
  /-- VADDF (R92): Per-lane FP32 add. -/
  | vaddf (n : Nat) (t : Nat) (pr : Nat) (d : Nat) (a : Nat) (b : Nat)
  /-- VSUBF (R92): Per-lane FP32 subtract. -/
  | vsubf (n : Nat) (t : Nat) (pr : Nat) (d : Nat) (a : Nat) (b : Nat)
  /-- VMULF (R92): Per-lane FP32 multiply. -/
  | vmulf (n : Nat) (t : Nat) (pr : Nat) (d : Nat) (a : Nat) (b : Nat)
  /-- VFMA (R92): Per-lane fused multiply-add, rounded once. -/
  | vfma (n : Nat) (t : Nat) (pr : Nat) (d : Nat) (a : Nat) (b : Nat) (c : Nat)
  /-- VMAXF (R92): Per-lane FP32 maximum. -/
  | vmaxf (n : Nat) (t : Nat) (pr : Nat) (d : Nat) (a : Nat) (b : Nat)
  /-- VMINF (R92): Per-lane FP32 minimum. -/
  | vminf (n : Nat) (t : Nat) (pr : Nat) (d : Nat) (a : Nat) (b : Nat)
  /-- VADDI (R92): Per-lane 32-bit integer add. -/
  | vaddi (n : Nat) (t : Nat) (pr : Nat) (d : Nat) (a : Nat) (b : Nat)
  /-- VSUBI (R92): Per-lane 32-bit integer subtract. -/
  | vsubi (n : Nat) (t : Nat) (pr : Nat) (d : Nat) (a : Nat) (b : Nat)
  /-- VMULI (R92): Per-lane low 32 bits of the product. -/
  | vmuli (n : Nat) (t : Nat) (pr : Nat) (d : Nat) (a : Nat) (b : Nat)
  /-- VAND (R92): Per-lane and. -/
  | vand (n : Nat) (t : Nat) (pr : Nat) (d : Nat) (a : Nat) (b : Nat)
  /-- VOR (R92): Per-lane or. -/
  | vor (n : Nat) (t : Nat) (pr : Nat) (d : Nat) (a : Nat) (b : Nat)
  /-- VXOR (R92): Per-lane xor. -/
  | vxor (n : Nat) (t : Nat) (pr : Nat) (d : Nat) (a : Nat) (b : Nat)
  /-- VSHL (R92): Per-lane shift left. -/
  | vshl (n : Nat) (t : Nat) (pr : Nat) (d : Nat) (a : Nat) (b : Nat)
  /-- VSHR (R92): Per-lane logical shift right. -/
  | vshr (n : Nat) (t : Nat) (pr : Nat) (d : Nat) (a : Nat) (b : Nat)
  /-- VSAR (R92): Per-lane arithmetic shift right. -/
  | vsar (n : Nat) (t : Nat) (pr : Nat) (d : Nat) (a : Nat) (b : Nat)
  /-- VCMP (R92): pD lane = the integer or FP32 comparison of vA and vB. -/
  | vcmp (n : Nat) (t : Nat) (pr : Nat) (d : Nat) (a : Nat) (b : Nat) (cmp : Nat) (fp : Bool)
  /-- VSEL (R92): vD = vA where pC is 1, otherwise vB. -/
  | vsel (n : Nat) (t : Nat) (pr : Nat) (d : Nat) (a : Nat) (b : Nat) (c : Nat)
  /-- VBCAST (R92): Every lane of vD = the low 32 bits of sA. -/
  | vbcast (n : Nat) (t : Nat) (pr : Nat) (d : Nat) (a : Nat)
  /-- VEXT (R92): sD = one lane of vA. -/
  | vext (n : Nat) (t : Nat) (pr : Nat) (d : Nat) (a : Nat) (lane : Nat)
  /-- VPERM (R92): Permutes the lanes of vA by vB. -/
  | vperm (n : Nat) (t : Nat) (pr : Nat) (d : Nat) (a : Nat) (b : Nat)
  /-- VSUMF (R95): Sums the 64 lanes in a fixed tree into lane 0. -/
  | vsumf (n : Nat) (t : Nat) (pr : Nat) (d : Nat) (a : Nat)
  /-- VCVT (R96): Converts elements of vA into vD. -/
  | vcvt (n : Nat) (t : Nat) (pr : Nat) (d : Nat) (a : Nat) (o : CvtOpt)
  /-- VQMX (R96): Quantises vA into two MX blocks. -/
  | vqmx (n : Nat) (t : Nat) (pr : Nat) (d : Nat) (a : Nat) (o : CvtOpt)
  /-- VQ4 (R96): Quantises vA to vA+3 into one QBF4 block. -/
  | vq4 (n : Nat) (t : Nat) (pr : Nat) (d : Nat) (a : Nat) (o : CvtOpt)
  /-- TMMA (R59): Queues a matrix multiply-accumulate step into an owned tile. -/
  | tmma (n : Nat) (t : Nat) (pr : Nat) (tile : Nat) (fa : Nat) (fb : Nat) (a : Nat) (b : Nat) (sc : Nat) (c : Nat)
  /-- TZERO (R56): Claims a tile, sets its mode and anchor and zeroes it. -/
  | tzero (n : Nat) (t : Nat) (pr : Nat) (tile : Nat) (exact : Bool) (anchor : Int)
  /-- TRD (R72): Reads a tile out to local store with one conversion per element. -/
  | trd (n : Nat) (t : Nat) (pr : Nat) (tile : Nat) (o : TrdOpt) (d : Nat) (x : Nat) (c : Nat)
  /-- TLDA (R77): Loads an owned tile from local store. -/
  | tlda (n : Nat) (t : Nat) (pr : Nat) (tile : Nat) (fmt : Nat) (d : Nat) (c : Nat)
  /-- TREL (R56): Releases an owned tile after its earlier instructions finish. -/
  | trel (n : Nat) (t : Nat) (pr : Nat) (tile : Nat)
  /-- TSAVE (R78): The monitor saves a tile's complete state to a save image. -/
  | tsave (n : Nat) (t : Nat) (pr : Nat) (tile : Nat) (a : Nat) (c : Nat)
  /-- TLOAD (R78): The monitor restores a tile from a save image, rejecting a bad image. -/
  | tload (n : Nat) (t : Nat) (pr : Nat) (tile : Nat) (a : Nat) (c : Nat)
  /-- LDS (R98): Synchronous load from local store. -/
  | lds (n : Nat) (t : Nat) (pr : Nat) (d : Nat) (a : Nat) (size : Nat)
  /-- STS (R98): Synchronous store to local store. -/
  | sts (n : Nat) (t : Nat) (pr : Nat) (a : Nat) (b : Nat) (size : Nat)
  /-- LDV (R98): Loads 256 bytes of local store into a vector register. -/
  | ldv (n : Nat) (t : Nat) (pr : Nat) (d : Nat) (a : Nat)
  /-- STV (R98): Stores a vector register to local store under the predicate. -/
  | stv (n : Nat) (t : Nat) (pr : Nat) (a : Nat) (b : Nat)
  /-- LDG (R98): Blocking load from a DVA. -/
  | ldg (n : Nat) (t : Nat) (pr : Nat) (d : Nat) (a : Nat) (size : Nat)
  /-- STG (R98): Blocking store to a DVA, retiring at its visibility point. -/
  | stg (n : Nat) (t : Nat) (pr : Nat) (a : Nat) (b : Nat) (size : Nat) (vis : Nat)
  /-- CPIN (R99): Asynchronous copy from a DVA to local store. -/
  | cpin (n : Nat) (t : Nat) (pr : Nat) (a : Nat) (b : Nat) (c : Nat) (k : Nat)
  /-- CPOUT (R99): Asynchronous copy from local store to a DVA. -/
  | cpout (n : Nat) (t : Nat) (pr : Nat) (a : Nat) (b : Nat) (c : Nat) (k : Nat) (vis : Nat)
  /-- CPIN2 (R99): Two-dimensional CPIN. -/
  | cpin2 (n : Nat) (t : Nat) (pr : Nat) (d : Nat) (a : Nat) (b : Nat) (c : Nat) (k : Nat)
  /-- CPOUT2 (R99): Two-dimensional CPOUT. -/
  | cpout2 (n : Nat) (t : Nat) (pr : Nat) (d : Nat) (a : Nat) (b : Nat) (c : Nat) (k : Nat) (vis : Nat)
  /-- LDQB (R100): Loads 64 QBF4 blocks and splits them into four TMMA operand and scale tiles. -/
  | ldqb (n : Nat) (t : Nat) (pr : Nat) (d : Nat) (a : Nat) (b : Nat) (c : Nat) (k : Nat)
  /-- ATOM (R131): Blocking atomic on an 8-byte word at a DVA. -/
  | atom (n : Nat) (t : Nat) (pr : Nat) (d : Nat) (a : Nat) (b : Nat) (c : Nat) (op : Nat) (vis : Nat)
  /-- PREF (R437): Hint that fetches a line into Granary and never faults. -/
  | pref (n : Nat) (t : Nat) (pr : Nat) (a : Nat)
  /-- TWAIT (R90): Waits until a counter reaches IMM. -/
  | twait (n : Nat) (t : Nat) (pr : Nat) (c : Nat) (imm : Int)
  /-- TWAITR (R90): Waits until a counter reaches sA. -/
  | twaitr (n : Nat) (t : Nat) (pr : Nat) (c : Nat) (a : Nat)
  /-- TSET (R90): Writes a tally counter. -/
  | tset (n : Nat) (t : Nat) (pr : Nat) (c : Nat) (a : Nat)
  /-- TGET (R90): Reads a tally counter. -/
  | tget (n : Nat) (t : Nat) (pr : Nat) (d : Nat) (c : Nat)
  /-- BAR (R101): Core-local barrier of the threads in a mask. -/
  | bar (n : Nat) (t : Nat) (pr : Nat) (mask : BitVec 16)
  /-- BELL (R102): Joins the barrier of a reduction group at a Bell sequence. -/
  | bell (n : Nat) (t : Nat) (pr : Nat) (a : Nat) (b : Nat) (k : Nat)
  /-- FENCE (R283): Waits until the thread's earlier writes reach the point of its class. -/
  | fence (n : Nat) (t : Nat) (pr : Nat) (vis : Nat)
  /-- WAITG (R102): Waits until an 8-byte word at a DVA compares true. -/
  | waitg (n : Nat) (t : Nat) (pr : Nat) (a : Nat) (b : Nat) (cmp : Nat)
  /-- WAITG_POLL_READ (R285): A poll read of a WAITG word returns, completing the wait if the condition holds. -/
  | waitgPollRead (n : Nat) (t : Nat) (hostVal : Option Word)
  /-- YIELD (R86): Skips the thread for one issue round. -/
  | yield (n : Nat) (t : Nat) (pr : Nat)
  /-- EXIT (R85): Ends the thread once its asynchronous operations are counted. -/
  | exit (n : Nat) (t : Nat) (pr : Nat)
  /-- ECALL (R109): Puts the thread in WAITING and wakes the monitor, which treats it as an ILLEGAL fault. -/
  | ecall (n : Nat) (t : Nat) (pr : Nat) (code : Nat)
  /-- RPUT (R103): Asynchronous copy from local store to a global address. -/
  | rput (n : Nat) (t : Nat) (pr : Nat) (a : Nat) (b : Nat) (c : Nat) (k : Nat) (vis : Nat)
  /-- RGET (R103): Asynchronous copy from a global address to local store. -/
  | rget (n : Nat) (t : Nat) (pr : Nat) (a : Nat) (b : Nat) (c : Nat) (k : Nat) (vis : Nat)
  /-- RATOM (R103): Asynchronous integer atomic at a global address. -/
  | ratom (n : Nat) (t : Nat) (pr : Nat) (a : Nat) (b : Nat) (c : Nat) (op : Nat) (k : Nat) (vis : Nat)
  /-- MRED (R188): Contributes local-store data to a reduction group at a sequence number. -/
  | mred (n : Nat) (t : Nat) (pr : Nat) (a : Nat) (b : Nat) (c : Nat) (k : Nat)
  /-- XSEND (R316): Sends one raw packet on a link. -/
  | xsend (n : Nat) (t : Nat) (pr : Nat) (a : Nat) (b : Nat) (c : Nat) (k : Nat)
  /-- XRECV (R317): Waits for the next raw packet on a link and writes it to local store. -/
  | xrecv (n : Nat) (t : Nat) (pr : Nat) (a : Nat) (b : Nat) (c : Nat)
  /-- THCTL_START (R104): Starts a thread at a PC with s1 = the argument. -/
  | thctlStart (n : Nat) (t : Nat) (pr : Nat) (a : Nat) (b : Nat) (c : Nat)
  /-- THCTL_HOLD (R104): Holds a thread at an instruction boundary. -/
  | thctlHold (n : Nat) (t : Nat) (pr : Nat) (a : Nat)
  /-- THCTL_RESUME (R104): Resumes a held thread to its previous state. -/
  | thctlResume (n : Nat) (t : Nat) (pr : Nat) (a : Nat)
  /-- THCTL_STOP (R104): Stops a thread to OFF. -/
  | thctlStop (n : Nat) (t : Nat) (pr : Nat) (a : Nat)
  /-- THRD (R104): Reads a register of another thread. -/
  | thrd (n : Nat) (t : Nat) (pr : Nat) (d : Nat) (a : Nat) (b : Nat) (reg : Nat)
  /-- THWR (R104): Writes a register of another thread. -/
  | thwr (n : Nat) (t : Nat) (pr : Nat) (a : Nat) (b : Nat) (reg : Nat)
  /-- CSRR (R104): Reads a monitor CSR. -/
  | csrr (n : Nat) (t : Nat) (pr : Nat) (d : Nat) (csr : Nat)
  /-- CSRW (R104): Writes a monitor CSR, including the checked CORE_CTX write. -/
  | csrw (n : Nat) (t : Nat) (pr : Nat) (a : Nat) (csr : Nat)
  /-- IFETCH (R113): Asynchronous copy from a context-0 DVA into instruction store. -/
  | ifetch (n : Nat) (t : Nat) (pr : Nat) (a : Nat) (b : Nat) (c : Nat) (k : Nat)
  /-- WAITEV (R104): The monitor waits for a monitor event and receives its cause. -/
  | waitev (n : Nat) (t : Nat) (pr : Nat) (d : Nat)
  /-- INPUT_RISING_40V (R388): The input rises through 40.0 V, so the always-on domains start, the Meridian starts at 0 and a cold start begins. -/
  | inputRising40v
  /-- UNDERVOLTAGE_WARNING (R389): The input falls through 38.0 V, so emergency level 1 is requested, UV_WARN is set and PWR_ALERT# is asserted. -/
  | undervoltageWarning (mv : Nat)
  /-- UNDERVOLTAGE_CLEAR (R389): The input has stayed at or above 39.0 V for 5 ms, so level 1 is withdrawn, UV_WARN clears and PWR_UV_WARN is logged. -/
  | undervoltageClear (durationUs : Nat)
  /-- ORDERLY_RESET (R390): The input falls through 34.0 V, so bus mastering is cut, the lasers go dark and every domain turns off. -/
  | orderlyReset
  /-- OV_WARN_SET (R388): The input rises through 52.0 V, so OV_WARN is set and PWR_OV_WARN is logged. -/
  | ovWarnSet (mv : Nat)
  /-- OV_WARN_CLEAR (R388): The input falls below 51.0 V, so OV_WARN clears. -/
  | ovWarnClear
  /-- OVERVOLTAGE_SHUTDOWN (R391): The input rises through 56.0 V, so the hot-swap controller opens, the shutdown latches and PWR_ALERT# is asserted. -/
  | overvoltageShutdown
  /-- LIMITER_SAMPLE (R397): Each 1 µs input power value P is compared with 0.93 × L, and above it the limiter requests level 3 and logs PWR_LIMIT. -/
  | limiterSample (p : Nat) (mv : Nat) (centiAmp : Nat)
  /-- LIMITER_RELEASE_STEP (R397): At the end of each 100 µs with every P at or below 0.88 × L, after the 500 µs hold, the limiter lowers its request by one level. -/
  | limiterReleaseStep
  /-- POWER_BUDGET_MESSAGE (R393): Every 100 µs Reeve-0 sends each FB a power-budget message naming budgets for the FB and its SCs. -/
  | powerBudgetMessage (fb : Nat) (bFb : Nat) (bSc0 : Nat) (bSc1 : Nat) (bSc2 : Nat) (bSc3 : Nat)
  /-- RAIL_FAULT (R392): A regulator that detects overcurrent or undervoltage removes its rail within 1 µs and logs PWR_RAIL. -/
  | railFault (fb : Nat) (d : Nat) (rail : Nat)
  /-- STAGE1_SECTION_FAULT (R392): A stage-1 section fault removes its whole quadrant, which is fatal for quadrant 0. -/
  | stage1SectionFault (q : Nat)
  /-- PWR_SET (R396): The command sets the host cap CAP_W, and it completes after one round of budgets has been sent under the new limit. -/
  | pwrSet (h : Hdr) (capW : Nat)
  /-- POWER_CAP_EFFECTER_SET (R396): The PLDM power cap numeric effecter on the sideband sets CAP_W, with the same checks as PWR_SET. -/
  | powerCapEffecterSet (capW : Nat)
  /-- DOME_DIGITISE (R403): Every 10 µs each Dome sensor is digitised for THM_DIE. -/
  | domeDigitise (fb : Nat) (d : Nat) (readings : List Int)
  /-- THM_WARN_TRIP (R404): A die reaches its warning threshold, so THM_WARN is logged, or for a stack refresh is doubled. -/
  | thmWarnTrip (fb : Nat) (d : Nat) (temp : Nat)
  /-- THM_WARN_CLEAR (R404): A die falls below its warning clear point and the warning action is withdrawn. -/
  | thmWarnClear (fb : Nat) (d : Nat) (temp : Nat)
  /-- THROTTLE_ENTRY (R404): A die reaches its throttle trip point, so its throttle action starts and THM_THROTTLE is logged. -/
  | throttleEntry (fb : Nat) (d : Nat) (temp : Nat)
  /-- THROTTLE_EXIT (R404): A die falls below its throttle clear point, so its throttle action is withdrawn and THM_THROTTLE is logged. -/
  | throttleExit (fb : Nat) (d : Nat) (temp : Nat)
  /-- THROTTLE_STEP (R405): Every 100 µs the throttle step s of an SC or FB rises above the trip point or falls below the clear point. -/
  | throttleStep (fb : Nat) (d : Nat) (temp : Nat)
  /-- THERMAL_SHUTDOWN (R406): A sensor reaches its shutdown threshold, so every rail but the always-on supply is removed, THERMTRIP# latches and THM_TRIP is written. -/
  | thermalShutdown (fb : Nat) (d : Nat)
  /-- AUTO_RESTART (R407): With AUTO_RESTART = 1 and every sensor below 70 °C for 10 s, THERMTRIP# is released and a cold start with cause 3 begins. -/
  | autoRestart
  /-- MERIDIAN_EDGE (R400): At each 25 MHz rising edge the Meridian accumulator adds its increment, corrected by TEMP_PPB and SLEW_PPB. -/
  | meridianEdge
  /-- TEMP_PPB_UPDATE (R400): Every 1 ms TEMP_PPB is recomputed from the crystal's Dome sensor. -/
  | tempPpbUpdate (reading : Int)
  /-- MERIDIAN_COPY_CHECK (R401): Every 1 ms the FB copies of the accumulator are compared with FB0's, and a copy that differs is brought level and MER_RESYNC is logged. -/
  | meridianCopyCheck
  /-- CLOCK_RAISE_DONE (R398): A higher cluster or base-fabric frequency takes effect once its rail has reached the higher voltage. -/
  | clockRaiseDone (fb : Nat) (unit : Nat)
  /-- CLUSTER_CLOCK_STOP (R399): After 1 µs fully idle a compute cluster's clock stops. -/
  | clusterClockStop (sc : Nat) (k : Nat)
  /-- CLUSTER_WAKE (R399): A stopped cluster restarts within 2 µs of work arriving. -/
  | clusterWake (sc : Nat) (k : Nat)
  /-- SC_SLEEP (R399): After all 17 clusters have been stopped for 1 ms, the SC's PLL turns off and its cluster rails go to retention. -/
  | scSleep (sc : Nat)
  /-- SC_WAKE (R399): A sleeping SC brings its first cluster to 0.6 GHz within 2 µs and reaches its budget frequency within 20 µs. -/
  | scWake (sc : Nat)
  /-- BASE_FABRIC_CLOCK_STOP (R399): After 1 µs with no request outstanding, an FB's base-fabric clock stops and the Granary contents are kept. -/
  | baseFabricClockStop (fb : Nat)
  /-- BASE_FABRIC_WAKE (R399): A request wakes a stopped base fabric within 100 ns. -/
  | baseFabricWake (fb : Nat)
  /-- REEVE_CLOCK_STOP (R399): A Reeve with no work stops its clock and keeps its SRAM. -/
  | reeveClockStop (fb : Nat)
  /-- REEVE_WAKE (R399): A stopped Reeve wakes within 1 µs of receiving work. -/
  | reeveWake (fb : Nat)
  /-- FMAX_WRITE (R395): A write to CLK_CTRL.FMAX sets the cluster ceiling, and a value outside 24–48 is discarded and logged. -/
  | fmaxWrite (fb : Nat) (v : Word)
  /-- REFERENCE_SOURCE_SWITCH (R331): An FB whose reference source fails switches to its alternate within 2 µs and logs CLOCK_SWITCH. -/
  | referenceSourceSwitch (fb : Nat)
  /-- CLOCK_MONITOR_WINDOW (R339): At the end of each 400 ns window a clock monitor checks its edge count, and after two deviating windows declares the clock lost. -/
  | clockMonitorWindow (fb : Nat) (kind : Nat) (idx : Nat) (edges : Nat) (nominal : Nat)
  /-- HEARTBEAT_SEND (R339): Every 200 ns each FB sends a heartbeat on SIDE of each bundle and each SC sends one on its vertical sideband. -/
  | heartbeatSend (die : Die)
  /-- HEARTBEAT_LOST (R339): After 8 missed heartbeat periods, a neighbour declares the heartbeat lost. -/
  | heartbeatLost (die : Die)
  /-- DIE_ISOLATE_MARK (R341): Within 10 µs Reeve-0 marks the die isolated, updates GLB_INVENTORY, completes outstanding requests to the die DIE_LOST and applies Y-first routing. -/
  | dieIsolateMark (die : Die)
  /-- DIE_LOSS_CONTAINMENT (R341): Within 1 ms the dependent commands and kernels complete DIE_LOST, their contexts are STOPPED, groups are FAULTED and DIE_LOST is logged. -/
  | dieLossContainment (die : Die)
  /-- SC_RESET (R344): A write to DIE_CTRL.SC_RESET isolates the SC if it is admitted, then resets and readmits it. -/
  | scReset (sc : Nat)
  /-- SC_AUTO_READMIT (R344): With AUTO_READMIT = 1, once an SC's isolation is complete its Reeve resets and readmits it. -/
  | scAutoReadmit (sc : Nat)
  /-- SC_READMIT_COMPLETE (R344): Readmission ends, with SC_ADMITTED set or the SC recorded as newly bad. -/
  | scReadmitComplete (sc : Nat) (pass : Bool) (cause : Nat) (bonds : Nat)
  /-- FB_READMIT (R345): A write to DIE_FB_ISO.READMIT bit k starts Reeve-0's readmission of the isolated FBk. -/
  | fbReadmit (k : Nat)
  /-- FB_READMIT_COMPLETE (R345): Readmission of FBk ends, with XY routing restored, or with FBk left isolated and CAUSE 4. -/
  | fbReadmitComplete (k : Nat) (pass : Bool)
  /-- GULGEN_FRAME_RECEIVE (R329): A 256-byte Gulgen frame arrives; a CRC failure discards and NAKs it, and ACK and NAK drive replay. -/
  | gulgenFrameReceive (b : Bundle) (version : Nat) (fseq : Nat) (ack : Nat) (nak : Bool) (crcOk : Bool)
  /-- BUNDLE_RETRAIN_DONE (R337): A retraining bundle finishes its lane test and agreement, and the hop resumes on both bundles after a freeze and drain. -/
  | bundleRetrainDone (b : Bundle)
  /-- BUNDLE_RETRAIN_TIMEOUT (R337): A retrain not ended within 200 µs puts the bundle DOWN. -/
  | bundleRetrainTimeout (b : Bundle)
  /-- LANE_TEST_DONE (R335): The PRBS31 test of a bundle's lanes and clocks ends and gives the end's LOCAL good mask. -/
  | laneTestDone (b : Bundle) (good : BitVec 18) (ckGood : BitVec 2)
  /-- BUNDLE_MASK_RECEIVED (R336): An end receives the peer's lane mask and computes INUSE, going DOWN below 16 lanes. -/
  | bundleMaskReceived (b : Bundle) (peer : BitVec 18) (peerCk : BitVec 2)
  /-- BUNDLE_REPORT_RECEIVED (R336): An end compares the peer's INUSE and width report with its own and enters GULGEN, DISPUTE or DOWN. -/
  | bundleReportReceived (b : Bundle) (inuse : BitVec 18) (width : Nat)
  /-- EDGE_REMAP (R164): Once the frozen ports of both pairs report DRAINED, firmware writes the remap table in all four FBs and clears the freezes. -/
  | edgeRemap (e : Nat)
  /-- DIE_CAPABILITY_RECORD (R334): A die presents its capability record over the sideband, and it is admitted or refused. -/
  | dieCapabilityRecord (die : Die) (record : List Byte)
  /-- ARBITRATION_CYCLE (R165): Each cycle an output port's arbiter decides the next grant from the lane heads and credits, suspending and resuming packets at chunk boundaries. -/
  | arbitrationCycle (p : MPort)
  /-- MESH_FLIT_ARRIVAL (R161): A flit arrives in an input lane against a credit. -/
  | meshFlitArrival (p : MPort) (f : Flit)
  /-- CREDIT_RETURN (R161): A downstream lane returns a credit to its upstream port. -/
  | creditReturn (p : MPort) (lane : Nat)
  /-- CANCEL_FLIT_RECEIVE (R169): A CANCEL flit ends a packet: the destination discards its partial copy and answers a write with a retry, and routers drop the remaining flits. -/
  | cancelFlitReceive (p : MPort) (f : Flit)
  /-- RETRY_RESPONSE (R169): A requester receives a retry response and sends the write again. -/
  | retryResponse (p : MPort) (tag : Nat)
  /-- FREEZE_SET (R170): Setting FREEZE in MSH_PORT stops new grants at the port and ends any packet suspended there with CANCEL. -/
  | freezeSet (p : MPort)
  /-- FREEZE_CLEAR (R170): Clearing FREEZE resumes normal arbitration with no state kept. -/
  | freezeClear (p : MPort)
  /-- PORT_DRAINED (R170): A frozen port has no packet in progress or suspended and has all its credits back, so DRAINED reads 1. -/
  | portDrained (p : MPort)
  /-- BUCKET_REFILL (R173): Every 80 ns each token bucket level rises by RATE × f × 8 bytes up to its depth, and CAPPED packets waiting at the port may enter. -/
  | bucketRefill
  /-- PACKET_INJECTION (R174): A request packet at a metered port is charged to its class bucket and enters at the priority its MODE gives. -/
  | packetInjection (fb : Nat) (port : Nat) (tag : Nat) (dpa : Nat) (bytes : Nat) (atomic : Bool)
  /-- RGL_SET (R177): The command installs one regulation entry on a port set after the admission check. -/
  | rglSet (h : Hdr) (e : RglEntry)
  /-- SCALE_FACTOR_UPDATE (R179): A change of a resource's deliverable rate recomputes f_r within 10 µs and logs GUARANTEE_SCALED. -/
  | scaleFactorUpdate (r : Nat) (d : Nat)
  /-- GRANARY_BANK_ACCESS (R116): A read or write reaches its home bank and is served under its policy, hit, miss, LOST or uncorrectable. -/
  | granaryBankAccess (dpa : Nat) (len : Nat) (wr : Bool) (data : List Byte) (ecc : Ecc) (bad : List Nat)
  /-- BANK_ATOMIC (R131): An atomic executes indivisibly at the word's home bank and returns the old value. -/
  | bankAtomic (dpa : Nat) (op : Nat) (b : Word) (c : Word)
  /-- GRANARY_PATROL_SCRUB (R126): The patrol scrub reads a line, corrects it and counts its errors like an access. -/
  | granaryPatrolScrub (dpa : Nat) (ecc : Ecc) (bad : List Nat)
  /-- GRANARY_ENABLE (R124): Writing GRN_CTRL.ENABLE = 1 moves STATE from OFF to ON, or is latched during a sweep. -/
  | granaryEnable (fb : Nat)
  /-- GRANARY_DISABLE (R124): Writing ENABLE = 0 moves STATE to FLUSHING and starts a sweep. -/
  | granaryDisable (fb : Nat)
  /-- FLUSH_SWEEP_END (R124): The last dirty line reaches memory and every line is invalid, so STATE moves to OFF, or to ON if latched. -/
  | flushSweepEnd (fb : Nat) (bad : List Nat)
  /-- GRN_PART_WRITE (R119): A valid write to GRN_PART starts REPARTITION, and an invalid one is discarded and logged. -/
  | grnPartWrite (fb : Nat) (v : Word)
  /-- REPARTITION_BANK_SWITCH (R119): A bank switches to the new partition at one instant, after writing back and zero-filling the ways that grow. -/
  | repartitionBankSwitch (fb : Nat) (b : Nat) (bad : List Nat)
  /-- RAT_UPDATE (R122): Writing GRN_RAT_CMD with GO = 1 checks the staged entry and installs it in all four FB copies, sweeping on a policy change. -/
  | ratUpdate (v : Word)
  /-- RAT_UPDATE_DONE (R122): The sweep and the old-entry accesses have finished, so RESULT = DONE is written and BUSY clears. -/
  | ratUpdateDone (bad : List Nat)
  /-- MEMORY_READ (R138): A controller reads a burst and decodes both codes, correcting or failing it. -/
  | memoryRead (dpa : Nat) (ecc : Ecc) (laneErr : Bool)
  /-- MEMORY_WRITE (R140): A controller writes bursts, with read-merge-write for partial bursts, as a whole or not at all. -/
  | memoryWrite (dpa : Nat) (data : List Byte) (eccs : List Ecc)
  /-- ROW_REPAIR_DONE (R142): Row repair finishes and releases the held accesses. -/
  | rowRepairDone (dpa : Nat) (fixed : List Nat) (bad : List Nat)
  /-- MEMORY_PATROL_SCRUB (R144): The patrol scrub reads a burst of a channel and corrects, counts and repairs as for any read. -/
  | memoryPatrolScrub (dpa : Nat) (ecc : Ecc) (laneErr : Bool)
  /-- STACK_TEMPERATURE_READ (R145): Every 32 µs a controller reads its stack's temperature, doubling or restoring refresh and entering or leaving the stack throttle. -/
  | stackTemperatureRead (stack : Nat) (temp : Nat)
  /-- REFRESH_INTERVAL (R146): A per-bank refresh is performed at the normal or doubled rate. -/
  | refreshInterval (stack : Nat)
  /-- CHANNEL_RETRAIN_DONE (R149): A retrain ends with the channel ACTIVE, STEPPED or RETIRED, and held accesses proceed or fail. -/
  | channelRetrainDone (q : Nat) (c : Nat) (result : Nat) (lanes : Nat)
  /-- SELF_REFRESH_ENTRY (R151): A stack idle for SR_IDLE µs and not scrubbing enters self-refresh. -/
  | selfRefreshEntry (stack : Nat)
  /-- SELF_REFRESH_EXIT (R151): An access to a stack in self-refresh brings it out within 2.0 µs and is then served. -/
  | selfRefreshExit (stack : Nat)
  /-- MEMORY_ZEROING_DONE (R152): Zeroing of device memory after host loss with ARMED clear ends, and Reeve-0 rewrites the firmware region before BAR2 answers. -/
  | memoryZeroingDone
  /-- RED_GROUP_CREATE (R183): Firmware checks a new reduction group, builds its tree and reserves staging. -/
  | redGroupCreate (h : Hdr) (g : GroupDesc)
  /-- RED_GROUP_DESTROY (R200): Firmware destroys a group, or forces it through CLOSING with FORCE = 1. -/
  | redGroupDestroy (h : Hdr) (group : Nat) (force : Bool)
  /-- MILL_PARTIAL_RECEIVE (R190): A PARTIAL chunk reaches a combining router, which folds its inputs in fixed order once all have delivered chunk h. -/
  | millPartialReceive (router : Nat) (inp : Nat) (m : MillChunk) (ecc : Ecc)
  /-- MILL_RESULT_RECEIVE (R194): A RESULT chunk reaches a router or member, which copies it down or writes the result buffer, ORs the flags and counts RES_CTR. -/
  | millResultReceive (node : MillNode) (m : MillChunk)
  /-- MILL_DEPOSIT_FLAG (R195): Once deposited data reach their visibility point, the root writes the flag word of the sequence. -/
  | millDepositFlag (group : Nat)
  /-- BELL_FLIT_RECEIVE (R198): A Bell reaches a combining router, which forwards one Bell toward the root once all its inputs have sent one. -/
  | bellFlitReceive (router : Nat) (inp : Nat) (group : Nat) (seq : W32)
  /-- RELEASE_RECEIVE (R198): A RELEASE travels down the tree and counts at every member thread that issued a BELL for the sequence. -/
  | releaseReceive (node : MillNode) (group : Nat) (seq : W32)
  /-- NOTICE_RECEIVE (R200): A NOTICE of a faulted group reaches surviving members, whose waiting threads take deferred faults. -/
  | noticeReceive (group : Nat) (member : Nat)
  /-- CTX_CREATE (R247): The command creates a context with its link, FABRIC_RAW right and reach table. -/
  | ctxCreate (h : Hdr) (tctx : Nat) (raw : Bool) (link : Nat) (reach : List Nat)
  /-- CTX_DESTROY (R203): The command aborts the context's faults, stops its kernels, destroys its groups and removes its segments with a drain. -/
  | ctxDestroy (h : Hdr) (tctx : Nat)
  /-- SEG_MAP (R207): Firmware checks a segment descriptor and installs it in every FB's table. -/
  | segMap (h : Hdr) (tctx : Nat) (seg : Nat) (desc : SegDesc)
  /-- SEG_UNMAP (R219): Firmware removes a segment from every table and runs a segment invalidation. -/
  | segUnmap (h : Hdr) (tctx : Nat) (seg : Nat)
  /-- XLT_INVAL (R217): The command processor runs an invalidation of pages, a segment or a whole context, draining old translations. -/
  | xltInval (h : Hdr) (scope : Nat) (seg : Nat) (first : Nat) (count : Nat)
  /-- INVALIDATION_FLIT (R217): An FB receives a translation-invalidation flit, stops matching walks, drops cache entries and switches its ports' epochs. -/
  | invalidationFlit (fb : Nat)
  /-- PORT_EPOCH_DRAINED (R217): A requester port reports that it has no old-epoch access in flight. -/
  | portEpochDrained (fb : Nat) (port : Nat)
  /-- ZERO_LENGTH_READ_COMPLETE (R276): A zero-length read issued on a host link completes, or counts as completed at host loss, and the waiting invalidation, FENCE or signal proceeds. -/
  | zeroLengthReadComplete (link : Nat)
  /-- WALK_COMPLETE (R210): A walk's entry read returns and the translation is cached, a fault is raised or the access fails as uncorrectable. -/
  | walkComplete (fb : Nat) (ctx : Nat) (seg : Nat) (page : Nat) (ecc : Ecc)
  /-- FAULT_RING_WRITE (R223): FB0 writes a queued fault record to the ring when it has space and the write can be made, then raises the MSI-X vector. -/
  | faultRingWrite
  /-- FAULT_RESUME (R225): A FAULT_RESUME with ACTION RESUME makes every joined access look up and walk again. -/
  | faultResume (h : Hdr) (scope : Nat) (fid : W32)
  /-- FAULT_ABORT (R225): A FAULT_RESUME with ACTION ABORT fails every joined access with XLT_ABORTED. -/
  | faultAbort (h : Hdr) (scope : Nat) (fid : W32)
  /-- FAULT_RING_ENABLE (R226): A 0-to-1 write of XLT_FRING_CFG.ENABLE resets HEAD and TAIL and rewrites every unanswered fault record. -/
  | faultRingEnable (v : Word)
  /-- FAULT_RING_DISABLE (R223): Writing ENABLE = 0 stops fault record writes, and records wait in the queue. -/
  | faultRingDisable
  /-- FAULT_RING_HEAD_WRITE (R223): The host advances XLT_FRING_HEAD, freeing space, and an invalid value is discarded and logged. -/
  | faultRingHeadWrite (v : Word)
  /-- PERST_ASSERT (R256): PERST# asserts on a port, starting host loss with bus mastering cut within 100 ns. -/
  | perstAssert (port : Nat)
  /-- PERST_DEASSERT (R256): PERST# deasserts, the link trains and configuration requests get Retry Status until the BARs are ready. -/
  | perstDeassert (port : Nat)
  /-- HOT_RESET (R256): A hot reset on a link starts host loss. -/
  | hotReset (link : Nat)
  /-- FLR (R228): A Function Level Reset is treated as a hot reset of the link that carries it. -/
  | flr (link : Nat)
  /-- LINK_RETRAIN_START (R255): A link leaves L0 for recovery and its outbound requests wait. -/
  | linkRetrainStart (link : Nat)
  /-- LINK_L0_RETURN (R255): A link returns to L0, and held requests and refused records are sent. -/
  | linkL0Return (link : Nat) (speed : Nat) (width : Nat)
  /-- LINK_RETRAIN_TIMEOUT (R255): A link out of L0 for more than 50 ms counts as host loss on that link. -/
  | linkRetrainTimeout (link : Nat)
  /-- OUTBOUND_READ_TIMEOUT (R230): An outbound read with no completion within 50 ms counts as host loss on its link. -/
  | outboundReadTimeout (link : Nat)
  /-- OUTBOUND_READ_COMPLETION (R230): A completion for an outbound read arrives, and Unsupported Request or Completer Abort fails the request with XLT_RIGHTS. -/
  | outboundReadCompletion (link : Nat) (tag : Nat) (ok : Bool) (data : List Byte)
  /-- HOST_LOSS_HOLD (R256): Within 10 µs of host loss, every kernel thread of the affected contexts is HELD and no command of them starts. -/
  | hostLossHold (link : Nat)
  /-- HOST_LOSS_SUSPEND (R256): Within 1 ms, host-bound running commands complete HOST_LOST, their records are held and the contexts are SUSPENDED. -/
  | hostLossSuspend (link : Nat)
  /-- HOST_LOSS_FINAL_STEP (R256): The ARMED-dependent step keeps state, or destroys contexts and zeroes memory, and HST_PRESERVE.LOST is set. -/
  | hostLossFinalStep (link : Nat)
  /-- RECOVER_RESUME (R257): RECOVER with ACTION RESUME rebinds a SUSPENDED context, writes its held records, rewrites its faults and releases its threads. -/
  | recoverResume (h : Hdr) (tctx : Nat) (link : Nat)
  /-- RECOVER_DISCARD (R257): RECOVER with ACTION DISCARD destroys a SUSPENDED context as CTX_DESTROY does. -/
  | recoverDiscard (h : Hdr) (tctx : Nat) (link : Nat)
  /-- DOORBELL (R239): A doorbell write advances a ring's TAIL after earlier BAR2 writes on the link, or is discarded and logged. -/
  | doorbell (link : Nat) (ring : Nat) (v : Word)
  /-- WINDOW_DOORBELL (R240): A doorbell with WINDOW = 1 takes the packet from the ring's command window and advances TAIL by its LENGTH. -/
  | windowDoorbell (link : Nat) (ring : Nat) (v : Word)
  /-- COMMAND_WINDOW_WRITE (R240): A write to a command window is stored, or held at the link until the window has been copied. -/
  | commandWindowWrite (link : Nat) (ring : Nat) (off : Nat) (data : List Byte)
  /-- BAR2_READ (R232): A BAR2 read passes the host or peer check and reads the DPA through its home bank after earlier posted writes on the link. -/
  | bar2Read (link : Nat) (rid : BitVec 16) (off : Nat) (len : Nat)
  /-- BAR2_WRITE (R232): A BAR2 write passes the host or peer check and is performed at its home bank under its RAT visibility class. -/
  | bar2Write (link : Nat) (rid : BitVec 16) (ro ido : Bool) (off : Nat) (data : List Byte)
  /-- BAR_RESERVED_ACCESS (R231): An access to a reserved part of BAR4 reads zeros or is discarded and logged. -/
  | barReservedAccess (link : Nat) (off : Nat) (wr : Bool)
  /-- HOST_WINDOW_WRITE (R234): A PCIe write to a host window register is accepted, while on-module writes are discarded and logged. -/
  | hostWindowWrite (link : Nat) (idx : Nat) (limit : Bool) (fromPcie : Bool) (v : Word)
  /-- HOST_WINDOW_EFFECTIVE (R234): A window change takes effect once requests checked against the old value have left, and refused records and MSI-X messages are retried. -/
  | hostWindowEffective (link : Nat)
  /-- REGION_REGISTER (R236): The command installs a registered region for peer accesses. -/
  | regionRegister (h : Hdr) (region : Nat) (r : Bool) (w : Bool) (rid : BitVec 16) (mask : BitVec 16) (base : Nat) (size : Nat)
  /-- REGION_RELEASE (R236): The command removes a region and completes once its accepted peer writes reach their home banks. -/
  | regionRelease (h : Hdr) (region : Nat)
  /-- COMMAND_PACKET_ARRIVAL (R244): The command processor takes a packet from a ring, frames it and checks it in the order of R14, or HALTs the ring. -/
  | commandPacketArrival (ring : Nat) (data : List Byte)
  /-- RING_ENABLE (R237): A 0-to-1 write of CMD_RING_CFG.ENABLE resets HEAD, TAIL and the next SEQ, or is discarded if invalid or INFLIGHT. -/
  | ringEnable (ring : Nat) (v : Word)
  /-- RING_DISABLE (R245): Writing ENABLE = 0 stops the ring at once, and commands already read run on. -/
  | ringDisable (ring : Nat)
  /-- CQ_ENABLE (R254): A 0-to-1 write of CMD_CQ_CFG.ENABLE resets HEAD and TAIL and sets PHASE to 1. -/
  | cqEnable (cq : Nat) (v : Word)
  /-- CQ_DISABLE (R254): Writing ENABLE = 0 on a completion ring makes its records be held. -/
  | cqDisable (cq : Nat)
  /-- CQ_HEAD_WRITE (R254): The host advances CMD_CQ_PTR.HEAD, freeing space for held records, and an invalid value is discarded and logged. -/
  | cqHeadWrite (cq : Nat) (v : W32)
  /-- COMPLETION_RECORD_WRITE (R253): After its command's effects reach the VIS point, a completion record is written at TAIL, followed by any MSI-X message. -/
  | completionRecordWrite (cq : Nat)
  /-- COMMAND_TIMEOUT (R242): A command still running TIMEOUT µs after its start completes TIMEOUT, with its work stopped and its faults aborted. -/
  | commandTimeout (ring : Nat) (seq : W32)
  /-- NOP (R246): The NOP command completes with no effect, padding the ring. -/
  | nop (h : Hdr)
  /-- WRITE_INLINE (R250): The command processor writes the packet's inline bytes to a DVA and completes at their visibility point. -/
  | writeInline (h : Hdr) (dst : Nat) (data : List Byte)
  /-- LAUNCH (R248): The command checks its cores and image and hands the kernel to each named core. -/
  | launch (h : Hdr) (threads : BitVec 16) (imageLen : Nat) (image : Nat) (entry : Nat) (arg : Word) (cores : List Nat)
  /-- LAUNCH_CORE_TAKE (R248): A named core that runs no other launch takes the launch; its monitor sets CORE_CTX, fetches the image and starts the threads. -/
  | launchCoreTake (n : Nat)
  /-- LAUNCH_COMPLETE (R248): Every started thread is OFF and its writes are visible, or the threads are held after a fault or stop, and the LAUNCH completes. -/
  | launchComplete (ring : Nat) (seq : W32)
  /-- KERNEL_STOP (R248): The command stops a launch's threads at instruction boundaries, and the LAUNCH completes DONE with STOPPED. -/
  | kernelStop (h : Hdr) (ring : Nat) (target : W32)
  /-- FENCE_CMD (R249): The FENCE command completes once earlier commands of its ring are complete and their writes are at its VIS point. -/
  | fenceCmd (h : Hdr)
  /-- WAIT (R249): The WAIT command starts polling an 8-byte word against VALUE under CMP. -/
  | wait (h : Hdr) (cmp : Nat) (addr : Nat) (value : Word)
  /-- WAIT_POLL_READ (R285): A poll read of a WAIT word returns, completing the command if the condition holds. -/
  | waitPollRead (ring : Nat) (seq : W32) (hostVal : Option Word)
  /-- SIGNAL (R249): After earlier commands complete, the command writes or atomically adds VALUE at ADDR. -/
  | signal (h : Hdr) (op : Nat) (addr : Nat) (value : Word)
  /-- BELL_CMD (R249): The BELL command waits until Bell sequence BSEQ of the group has been released to every member. -/
  | bellCmd (h : Hdr) (group : Nat) (bseq : W32)
  /-- QUERY (R251): Firmware writes one 4,096-byte status page to a DVA. -/
  | query (h : Hdr) (page : Nat) (dst : Nat)
  /-- COPY (R263): The command moves BYTES contiguous bytes on a Carter of its pool. -/
  | copy (h : Hdr) (fl : FlagOpt) (src : Nat) (dst : Nat) (bytes : Nat)
  /-- COPY_ND (R264): The command moves a block of up to five dimensions, strided on one or both sides. -/
  | copyNd (h : Hdr) (fl : FlagOpt) (side : Nat) (count0 : Nat) (src : Nat) (dst : Nat) (dims : List Dim)
  /-- FILL (R265): The command writes a repeated pattern of up to 32 bytes. -/
  | fill (h : Hdr) (fl : FlagOpt) (plen : Nat) (dst : Nat) (bytes : Nat) (pattern : List Byte)
  /-- CARTER_SLOT_TAKE (R260): A Carter command takes a free descriptor slot on the least-occupied Carter of its pool, or takes one from the pool queue when a slot frees. -/
  | carterSlotTake (fb : Nat) (pool : Nat)
  /-- CARTER_CHUNK_READ_DATA (R267): Source data of a chunk arrive, and once all of them are read the chunk's write is issued in order. -/
  | carterChunkReadData (fb : Nat) (car : Nat) (slot : Nat) (chunk : Nat) (data : List Byte)
  /-- CARTER_CHUNK_WRITE_ACK (R268): A chunk write is acknowledged, extending the delivered prefix and triggering flag-word writes. -/
  | carterChunkWriteAck (fb : Nat) (car : Nat) (slot : Nat) (chunk : Nat)
  /-- CARTER_COMPLETE (R271): A Carter command completes once D = N or it has stopped with its issued writes acknowledged, and its slot frees. -/
  | carterComplete (fb : Nat) (car : Nat) (slot : Nat)
  /-- ATTEST (R378): The command writes a signed report or the certificate chain to a DVA. -/
  | attest (h : Hdr) (part : Nat) (dst : Nat) (dstLen : Nat) (nonce : List Byte)
  /-- FW_STAGE_OPEN (R382): FW_STAGE OPEN erases the non-running slot and opens a staging session. -/
  | fwStageOpen (h : Hdr) (slot : Nat)
  /-- FW_STAGE_WRITE (R382): FW_STAGE WRITE copies data into the open slot. -/
  | fwStageWrite (h : Hdr) (off : Nat) (len : Nat) (src : Nat)
  /-- FW_STAGE_COMMIT (R382): FW_STAGE COMMIT verifies the slot and moves STAGE to COMMITTED, or erases it. -/
  | fwStageCommit (h : Hdr)
  /-- FW_STAGE_CANCEL (R382): FW_STAGE CANCEL erases the slot and returns STAGE to IDLE. -/
  | fwStageCancel (h : Hdr)
  /-- FW_STAGE_ACTIVATE (R382): FW_STAGE ACTIVATE writes its completion and begins a warm start. -/
  | fwStageActivate (h : Hdr)
  /-- FW_STAGE_RATIFY (R382): FW_STAGE RATIFY sets RATIFY_PENDING so that the next start blows anti-rollback fuses. -/
  | fwStageRatify (h : Hdr)
  /-- OWNER_ENROLL (R384): FW_STAGE OWNER_ENROLL checks an owner key record and stores the enrolment request for the next start. -/
  | ownerEnroll (h : Hdr) (len : Nat) (src : Nat)
  /-- PLDM_REQUEST_UPDATE (R383): PLDM RequestUpdate opens a staging session on the non-running slot. -/
  | pldmRequestUpdate
  /-- PLDM_IMAGE_TRANSFER (R383): PLDM image transfer writes data into the slot as WRITE does. -/
  | pldmImageTransfer (off : Nat) (data : List Byte)
  /-- PLDM_VERIFY_COMPLETE (R383): PLDM VerifyComplete verifies the slot as COMMIT does. -/
  | pldmVerifyComplete
  /-- PLDM_ACTIVATE_FIRMWARE (R383): PLDM ActivateFirmware activates the slot as ACTIVATE does. -/
  | pldmActivateFirmware
  /-- PLDM_CANCEL_UPDATE (R383): PLDM CancelUpdate cancels the session as CANCEL does. -/
  | pldmCancelUpdate
  /-- PLDM_GET_FIRMWARE_PARAMETERS (R383): PLDM GetFirmwareParameters reports each slot's Almanac SEQ and version triples. -/
  | pldmGetFirmwareParameters
  /-- POLL_FOR_PLATFORM_EVENT_MESSAGE (R417): A PLDM event receiver collects a record from the sideband event queue. -/
  | pollForPlatformEventMessage
  /-- JTAG_ATTACH (R385): A JTAG attach with JTAG_EN = 1 extends SEC_MEAS 6 and logs an event. -/
  | jtagAttach
  /-- WATCHDOG_EXPIRY (R386): A Reeve watchdog expires after 100 ms without service, resetting that Reeve or halting it at the third expiry in a window. -/
  | watchdogExpiry (fb : Nat)
  /-- REEVE_RESTART_DONE (R386): A restarted Reeve finishes reloading and replays unfinished FW-executed commands from the journal. -/
  | reeveRestartDone (fb : Nat)
  /-- WARM_START_REQUEST (R347): Writing BOOT_CTRL.START = 1 with the right KEY begins a warm start with its entry phase. -/
  | warmStartRequest (key : BitVec 16)
  /-- COLD_START_REQUEST (R347): Writing BOOT_CTRL.START = 2 with the right KEY begins a cold start. -/
  | coldStartRequest (key : BitVec 16)
  /-- START_STEP_END (R349): A start step ends and the next begins, PHASE reaching READY after step 7. -/
  | startStepEnd (us : Nat) (r : StepReport)
  /-- START_STEP_TIMEOUT (R352): A start step exceeds its time limit and is handled as a step failure. -/
  | startStepTimeout (us : Nat)
  /-- SC_RELEASE (R366): Every 100 µs in step 7, Reeve-0 releases the next SC's cores together. -/
  | scRelease (sc : Nat)
  /-- BOOT_DESCRIPTOR_FETCH (R111): A released core reads its boot descriptor and image, copies the image and starts thread 0, or stays in reset. -/
  | bootDescriptorFetch (n : Nat) (ecc : Ecc) (imgEcc : Ecc)
  /-- CORE_READY_TIMEOUT (R367): A core not ready 10 ms after release is newly bad and its logical number moves to a spare or goes out of service. -/
  | coreReadyTimeout (n : Nat)
  /-- MONITOR_FAULT_RESET (R109): After a monitor fault the Reeve resets the core, which refetches its monitor. -/
  | monitorFaultReset (n : Nat)
  /-- ISSUE_CYCLE (R86): Each cycle a core issues up to two instructions from READY threads, with thread 0 first. -/
  | issueCycle (n : Nat)
  /-- ASYNC_OPERATION_COMPLETE (R89): An asynchronous operation has had all its effects and adds 1 to its tally counter, waking waiting threads. -/
  | asyncOperationComplete (n : Nat) (id : Nat) (data : List Byte)
  /-- TENSOR_QUEUE_DISPATCH (R58): The MAC array or readout engine takes the next entry of its queue in issue order. -/
  | tensorQueueDispatch (n : Nat) (readout : Bool)
  /-- FABRIC_FRAME_RECEIVE (R299): A fabric frame arrives, is FEC-decoded and CRC-checked, and is accepted or NAKed, driving go-back-N replay. -/
  | fabricFrameReceive (l : Nat) (fseq : Nat) (ack : Nat) (nak : Bool) (fecOk : Bool) (crcOk : Bool)
  /-- LINK_CONTROL_PACKET (R300): At least every 64 ns a link control packet returns owed receive credits. -/
  | linkControlPacket (l : Nat) (cls : Nat) (credits : Nat)
  /-- LINK_ENABLE (R301): Writing FAB_LINK_CTL.ENABLE = 1 moves a link from OFF to DETECT. -/
  | linkEnable (l : Nat)
  /-- LINK_DISABLE (R301): Writing ENABLE = 0 returns a link to OFF. -/
  | linkDisable (l : Nat)
  /-- MAX_WIDTH_WRITE (R303): A write to MAX_WIDTH sets the width limit and triggers RETRAIN on an ACTIVE link. -/
  | maxWidthWrite (l : Nat) (w : Nat)
  /-- DETECT_PULSE (R297): Every 10 ms a link in DETECT emits a detect pulse on λ0. -/
  | detectPulse (l : Nat)
  /-- PARTNER_PULSES_SEEN (R297): The partner's pulses are seen in 3 consecutive periods, so the link enters TRAIN. -/
  | partnerPulsesSeen (l : Nat)
  /-- TRAINING_EXCHANGE (R302): The ends exchange good masks, MAX_WIDTH and FAB_ID and agree a width, entering ACTIVE or DOWN. -/
  | trainingExchange (l : Nat) (x : TrainEx)
  /-- LIGHT_LOSS (R297): Received light absent for 10 µs returns the link to detect pulses and DOWN. -/
  | lightLoss (l : Nat)
  /-- RETRAIN_TIMEOUT (R303): A RETRAIN not ended after 10 ms puts the link DOWN. -/
  | retrainTimeout (l : Nat)
  /-- DOWN_BACKOFF_END (R301): After 1 s in DOWN the link returns to DETECT. -/
  | downBackoffEnd (l : Nat)
  /-- LASER_INPUT_LOSS (R296): A laser input loses light, its links go DOWN and an event names the input. -/
  | laserInputLoss (q : Nat) (input : Nat)
  /-- UCIE_MODULE_DOWN (R293): A UCIe module fails to train or loses too many lanes, putting its two links DOWN. -/
  | ucieModuleDown (q : Nat) (m : Nat)
  /-- LANTERN_CAPABILITY_RECORD (R295): Reeve-0 checks a Lantern capability record and admits or refuses the Lantern. -/
  | lanternCapabilityRecord (q : Nat) (record : List Byte)
  /-- FABRIC_REQUEST_ARRIVAL (R313): A write, read or atomic for this module is checked, charged and performed at its home bank, and one response is returned. -/
  | fabricRequestArrival (l : Nat) (p : FPkt)
  /-- FABRIC_RESPONSE_ARRIVAL (R311): A response arrives at the originator and frees its end-to-end tag. -/
  | fabricResponseArrival (l : Nat) (p : FPkt)
  /-- FABRIC_ERROR_PACKET (R313): An error packet reaches the originator, which fails the operation with a deferred fault. -/
  | fabricErrorPacket (l : Nat) (p : FPkt)
  /-- FABRIC_FORWARD (R307): A packet for another module is looked up in the route table and crosses the mesh to its egress link once egress buffer is reserved. -/
  | fabricForward (l : Nat) (p : FPkt)
  /-- ROUTE_WAIT_TIMEOUT (R310): A packet that has found no ACTIVE alternative for 100 µs fails with LINK_LOST. -/
  | routeWaitTimeout (id : Nat)
  /-- E2E_TIMEOUT (R313): A remote request with no response after E2E_TIMEOUT µs fails with TARGET_UNREACHABLE. -/
  | e2eTimeout (port : Nat) (tag : Nat)
  /-- COLLECTIVE_CHUNK_ARRIVAL (R322): A partial, result or multicast chunk from another module is staged and acknowledged, or NACKed. -/
  | collectiveChunkArrival (l : Nat) (p : FPkt)
  /-- COLLECTIVE_CHUNK_ACK (R322): A chunk acknowledgement arrives and frees the sender's window. -/
  | collectiveChunkAck (l : Nat) (p : FPkt)
  /-- COLLECTIVE_CHUNK_NACK (R322): A NACK arrives and the chunk is resent to that receiver after a backoff. -/
  | collectiveChunkNack (l : Nat) (p : FPkt)
  /-- CHUNK_RESEND_TIMER (R322): A chunk NACKed or unacknowledged after 100 µs is sent again after its backoff. -/
  | chunkResendTimer (group : Nat) (seq : W32) (chunk : Nat) (dst : Nat)
  /-- COLLECTIVE_TIMEOUT (R323): A sequence not complete after FAB_COLL TIMEOUT µs faults the group with TARGET_UNREACHABLE and a MISSING bitmap. -/
  | collectiveTimeout (group : Nat)
  /-- FABRIC_BELL_ARRIVAL (R325): A Bell from a child module arrives, and ROOT forwards once all Bells for the sequence are in. -/
  | fabricBellArrival (l : Nat) (p : FPkt)
  /-- FABRIC_RELEASE_ARRIVAL (R325): A release from the parent module is sent down the module tree and into the local tree. -/
  | fabricReleaseArrival (l : Nat) (p : FPkt)
  /-- RAW_PACKET_ARRIVAL (R317): A raw packet arrives in a link's RAW buffer and completes a waiting XRECV. -/
  | rawPacketArrival (l : Nat) (p : FPkt)
  /-- MERIDIAN_EXCHANGE_SEND (R318): Every 1 ms a FOLLOWER sends a Meridian exchange on its parent link. -/
  | meridianExchangeSend
  /-- MERIDIAN_EXCHANGE_RECEIVE (R318): A completed exchange gives the offset, which the follower slews away or steps forward if it exceeds 1 µs. -/
  | meridianExchangeReceive (t1 : Int) (t2 : Int) (t3 : Int) (t4 : Int)
  /-- FAB_ID_WRITE (R308): A write to FAB_ID sets the identifier, or is discarded and logged while a link is ACTIVE. -/
  | fabIdWrite (v : Word)
  /-- FAB_ROUTE_WRITE (R309): A route-table write is checked and copied to FB1–FB3 within 1 µs. -/
  | fabRouteWrite (m : Nat) (v : Word)
  /-- FAB_COLL_WRITE (R320): A write to FAB_COLL sets a group's fabric tree, or is discarded while the group is not FREE. -/
  | fabCollWrite (g : Nat) (w : Nat) (v : Word)
  /-- EVENT_RAISE (R413): A block reports an event, which merges into a queued record or takes a queue entry, or is dropped or held at its source. -/
  | eventRaise (e : EvReport)
  /-- STAMP_REPORT (R412): At least every 10 µs each FB reports the earliest stamp it may still send. -/
  | stampReport (fb : Nat) (stamp : Word)
  /-- EVENT_QUEUE_RELEASE (R412): FB0 releases a record in Meridian order to the ring and sideband, adding EVT_LOSS where needed. -/
  | eventQueueRelease
  /-- EVENT_RING_WRITE (R416): A released record is written to the event ring when there is space, followed by MSI-X at IRQ_SEV. -/
  | eventRingWrite
  /-- EVENT_RING_ENABLE (R416): A 0-to-1 write of EVT_RING_CFG.ENABLE resets HEAD and TAIL. -/
  | eventRingEnable (v : Word)
  /-- EVENT_RING_DISABLE (R416): Writing ENABLE = 0 makes records wait in the queue. -/
  | eventRingDisable
  /-- EVENT_RING_HEAD_WRITE (R416): The host advances EVT_RING_HEAD, and an invalid value is discarded and logged. -/
  | eventRingHeadWrite (v : Word)
  /-- REGISTER_WRITE (R4): A write to a register with no behaviour of its own updates its fields by access type, applying the BL and discard rules. -/
  | registerWrite (off : Nat) (size : Nat) (v : Word) (boot : Bool) (pcie : Bool)
  /-- LASER_INPUT_HAS_LIGHT (R296): A laser input that had lost light receives light again, so FAB_LN.LIGHT_A or LIGHT_B reads 1 and the links it feeds can leave DOWN through detection. -/
  | laserInputHasLight (q : Nat) (input : Nat)
  deriving DecidableEq, Repr

end Sys2Proof
end

