-- ==== Sys2Proof/WellFormed.lean ====
section
/-! DEFINITION. Well-formed commands: every operand names something the hardware has (chapter 01), or fits
the field that carries it (R92-R104, R243).  What a field may hold beyond that is the meaning's concern. -/

namespace Sys2Proof

/-- A number fits a signed field of `w` bits. -/
def fitsS (w : Nat) (x : Int) : Bool := decide (-((2 ^ (w - 1) : Nat) : Int) ≤ x ∧ x < ((2 ^ (w - 1) : Nat) : Int))

/-- A command header (R243): ring, context and class in their fields. -/
def hdrOk (h : Hdr) : Bool :=
  decide (h.ring < 64) && decide (h.ctx < 32) && decide (h.vis < 4) && decide (h.compl < 4)

def dieOk : Die → Bool
  | .fb k => decide (k < 4)
  | .sc k => decide (k < 16)

def bundleOk (b : Bundle) : Bool :=
  decide (b.fb < 4) && decide (b.s < 2) && decide (b.i < 8) && decide (b.b < 2)

def mportOk (p : MPort) : Bool := decide (p.fb < 4) && decide (p.a < 64) && decide (p.p < 16)

/-- A flit (R159): each field within its bits and 128 data bytes. -/
def flitOk (f : Flit) : Bool :=
  decide (f.rclass < 8) && decide (f.tag < 4096) && decide (f.type < 256) && decide (f.chunk < 16) &&
  decide (f.chunks ≤ 16) && decide (f.prio < 3) && decide (f.vn < 2) && decide (f.half < 2) && decide (f.srcPort < 16) &&
  decide (f.srcRouter < 256) && decide (f.dstPort < 16) && decide (f.dstRouter < 256) && f.data.length == 128

def chunkOk (m : MillChunk) : Bool := decide (m.group < 256) && decide (m.data.length ≤ 256)

def nodeOk : MillNode → Bool
  | .router r => decide (r < 256)
  | .member n => decide (n < 4096)

/-- Fields of RED_GROUP_CREATE within their bits (R183). -/
def groupOk (g : GroupDesc) : Bool :=
  decide (g.group < 256) && decide (g.kind < 4) && decide (g.mode < 2) && decide (g.op < 8) && decide (g.elem < 64) &&
  decide (g.outFmt < 64) && decide (g.rm < 8) && fitsS 10 g.anchor && decide (g.root < 256) && decide (g.source < 4096) &&
  decide (g.length < 2 ^ 24) && decide (g.result < 4) && decide (g.nbuf < 4) && decide (g.resultLs < 2 ^ 18) &&
  decide (g.resCtr < 8) && decide (g.resultDva < 2 ^ 56) && decide (g.flagDva < 2 ^ 56) && decide (g.vis < 4) &&
  decide (g.depth < 8) && decide (g.prio < 2) && (g.members.all fun n => decide (n < 4096)) &&
  decide (g.members.Pairwise (· < ·))

def segOk (d : SegDesc) : Bool := decide (d.kind < 4) && decide (d.page < 2) && decide (d.port < 4)

/-- Fields of RGL_SET within their bits (R177). -/
def rglOk (e : RglEntry) : Bool :=
  decide (e.cls < 8) && decide (e.mode < 4) && decide (e.portset < 8) && decide (e.index < 128) &&
  decide (e.rate < 2 ^ 24) && decide (e.burst < 4096) && decide (e.charges.length < 64) &&
  e.charges.all fun c => decide (c.1 < 256) && decide (c.2 < 2 ^ 24)

def fpktOk (p : FPkt) : Bool := decide (p.src < 16384) && decide (p.dst < 16384) && decide (p.vn < 4)

def trainOk (x : TrainEx) : Bool := decide (x.peerId < 16384) && decide (x.peerLink < 96)

def reportOk (r : StepReport) : Bool := r.fbFail.all fun k => decide (k < 4)

def evOk (e : EvReport) : Bool := decide (e.code < 65536) && decide (e.source < 65536)

def flagOk (f : FlagOpt) : Bool := decide (f.dva < 2 ^ 64)

/-- The core, thread and predicate register of a core instruction (R80, R92). -/
def issuer (n t pr : Nat) : Bool := decide (n < 4096) && decide (t < 16) && decide (pr < 8)

/-- Register fields within what their register kind uses (R93, R94). -/
def below (k : Nat) (l : List Nat) : Bool := l.all fun x => decide (x < k)

/-- Whether a command is well formed. -/
def Instr.wf : Instr → Bool
  | .inputRising40v => true
  | .undervoltageWarning _ => true
  | .undervoltageClear _ => true
  | .orderlyReset => true
  | .ovWarnSet _ => true
  | .ovWarnClear => true
  | .overvoltageShutdown => true
  | .limiterSample _ _ _ => true
  | .limiterReleaseStep => true
  | .powerBudgetMessage fb _ _ _ _ _ => decide (fb < 4)
  | .railFault fb d rail => decide (fb < 4) && decide (d < 8) && decide (rail < 16)
  | .stage1SectionFault q => decide (q < 4)
  | .pwrSet h _ => hdrOk h
  | .powerCapEffecterSet _ => true
  | .domeDigitise fb d _ => decide (fb < 4) && decide (d < 8)
  | .thmWarnTrip fb d _ => decide (fb < 4) && decide (d < 8)
  | .thmWarnClear fb d _ => decide (fb < 4) && decide (d < 8)
  | .throttleEntry fb d _ => decide (fb < 4) && decide (d < 8)
  | .throttleExit fb d _ => decide (fb < 4) && decide (d < 8)
  | .throttleStep fb d _ => decide (fb < 4) && decide (d < 8)
  | .thermalShutdown fb d => decide (fb < 4) && decide (d < 8)
  | .autoRestart => true
  | .meridianEdge => true
  | .tempPpbUpdate _ => true
  | .meridianCopyCheck => true
  | .clockRaiseDone fb unit => decide (fb < 4) && decide (unit < 5)
  | .clusterClockStop sc k => decide (sc < 16) && decide (k < 17)
  | .clusterWake sc k => decide (sc < 16) && decide (k < 17)
  | .scSleep sc => decide (sc < 16)
  | .scWake sc => decide (sc < 16)
  | .baseFabricClockStop fb => decide (fb < 4)
  | .baseFabricWake fb => decide (fb < 4)
  | .reeveClockStop fb => decide (fb < 4)
  | .reeveWake fb => decide (fb < 4)
  | .fmaxWrite fb _ => decide (fb < 4)
  | .referenceSourceSwitch fb => decide (fb < 4)
  | .clockMonitorWindow fb kind idx _ _ => decide (fb < 4) && decide (kind < 3) && decide (idx < 32)
  | .heartbeatSend die => dieOk die
  | .heartbeatLost die => dieOk die
  | .dieIsolateMark die => dieOk die
  | .dieLossContainment die => dieOk die
  | .scReset sc => decide (sc < 16)
  | .scAutoReadmit sc => decide (sc < 16)
  | .scReadmitComplete sc _ _ _ => decide (sc < 16)
  | .fbReadmit k => decide (k < 4)
  | .fbReadmitComplete k _ => decide (k < 4)
  | .gulgenFrameReceive b version _ _ _ _ => bundleOk b && decide (version < 16)
  | .bundleRetrainDone b => bundleOk b
  | .bundleRetrainTimeout b => bundleOk b
  | .laneTestDone b _ _ => bundleOk b
  | .bundleMaskReceived b _ _ => bundleOk b
  | .bundleReportReceived b _ _ => bundleOk b
  | .edgeRemap e => decide (e < 16)
  | .dieCapabilityRecord die _ => dieOk die
  | .arbitrationCycle p => mportOk p
  | .meshFlitArrival p f => mportOk p && flitOk f
  | .creditReturn p lane => mportOk p && decide (lane < 12)
  | .cancelFlitReceive p f => mportOk p && flitOk f
  | .retryResponse p _ => mportOk p
  | .freezeSet p => mportOk p
  | .freezeClear p => mportOk p
  | .portDrained p => mportOk p
  | .bucketRefill => true
  | .packetInjection fb port _ dpa bytes _ =>
    decide (fb < 4) && decide (port < 302) && decide (dpa < 1099511627776) && decide (bytes ≤ 4096)
  | .rglSet h e => hdrOk h && rglOk e
  | .scaleFactorUpdate r d => decide (r < 4096) && decide (d < 4294967296)
  | .granaryBankAccess dpa len wr data _ _ => decide (dpa < 1099511627776) && decide (0 < len) && decide (dpa % 256 + len ≤ 256) && (!wr || data.length == len)
  | .bankAtomic dpa op _ _ => decide (dpa < 1099511627776) && decide (op < 11) && decide (dpa % 8 = 0)
  | .granaryPatrolScrub dpa _ _ => decide (dpa < 1099511627776)
  | .granaryEnable fb => decide (fb < 4)
  | .granaryDisable fb => decide (fb < 4)
  | .flushSweepEnd fb _ => decide (fb < 4)
  | .grnPartWrite fb _ => decide (fb < 4)
  | .repartitionBankSwitch fb b _ => decide (fb < 4) && decide (b < 64)
  | .ratUpdate _ => true
  | .ratUpdateDone _ => true
  | .memoryRead dpa _ _ => decide (dpa < 1099511627776)
  | .memoryWrite dpa data _ => decide (dpa < 1099511627776) && decide (dpa % 64 + data.length ≤ 256)
  | .rowRepairDone dpa _ _ => decide (dpa < 1099511627776)
  | .memoryPatrolScrub dpa _ _ => decide (dpa < 1099511627776)
  | .stackTemperatureRead stack _ => decide (stack < 8)
  | .refreshInterval stack => decide (stack < 8)
  | .channelRetrainDone q c result lanes => decide (q < 4) && decide (c < 64) && decide (result < 3) && decide (lanes < 16)
  | .selfRefreshEntry stack => decide (stack < 8)
  | .selfRefreshExit stack => decide (stack < 8)
  | .memoryZeroingDone => true
  | .redGroupCreate h g => hdrOk h && groupOk g
  | .redGroupDestroy h group _ => hdrOk h && decide (group < 65536)
  | .millPartialReceive router inp m _ => decide (router < 256) && decide (inp < 20) && chunkOk m
  | .millResultReceive node m => nodeOk node && chunkOk m
  | .millDepositFlag group => decide (group < 256)
  | .bellFlitReceive router inp group _ => decide (router < 256) && decide (inp < 20) && decide (group < 256)
  | .releaseReceive node group _ => nodeOk node && decide (group < 256)
  | .noticeReceive group member => decide (group < 256) && decide (member < 4096)
  | .ctxCreate h _ _ link _ => hdrOk h && decide (link < 8)
  | .ctxDestroy h _ => hdrOk h
  | .segMap h _ _ desc => hdrOk h && segOk desc
  | .segUnmap h _ _ => hdrOk h
  | .xltInval h _ _ _ _ => hdrOk h
  | .invalidationFlit fb => decide (fb < 4)
  | .portEpochDrained fb port => decide (fb < 4) && decide (port < 302)
  | .zeroLengthReadComplete link => decide (link < 4)
  | .walkComplete fb _ _ _ _ => decide (fb < 4)
  | .faultRingWrite => true
  | .faultResume h _ _ => hdrOk h
  | .faultAbort h _ _ => hdrOk h
  | .faultRingEnable _ => true
  | .faultRingDisable => true
  | .faultRingHeadWrite _ => true
  | .perstAssert port => decide (port < 2)
  | .perstDeassert port => decide (port < 2)
  | .hotReset link => decide (link < 4)
  | .flr link => decide (link < 4)
  | .linkRetrainStart link => decide (link < 4)
  | .linkL0Return link _ _ => decide (link < 4)
  | .linkRetrainTimeout link => decide (link < 4)
  | .outboundReadTimeout link => decide (link < 4)
  | .outboundReadCompletion link _ _ _ => decide (link < 4)
  | .hostLossHold link => decide (link < 4)
  | .hostLossSuspend link => decide (link < 4)
  | .hostLossFinalStep link => decide (link < 4)
  | .recoverResume h _ link => hdrOk h && decide (link < 8)
  | .recoverDiscard h _ link => hdrOk h && decide (link < 8)
  | .doorbell link ring _ => decide (link < 4) && decide (ring < 64)
  | .windowDoorbell link ring _ => decide (link < 4) && decide (ring < 64)
  | .commandWindowWrite link ring off data => decide (link < 4) && decide (ring < 64) && decide (off + data.length ≤ 65536)
  | .bar2Read link _ _ _ => decide (link < 4)
  | .bar2Write link _ _ _ _ _ => decide (link < 4)
  | .barReservedAccess link _ _ => decide (link < 4)
  | .hostWindowWrite link idx _ _ _ => decide (link < 4) && decide (idx < 16)
  | .hostWindowEffective link => decide (link < 4)
  | .regionRegister h _ _ _ _ _ _ _ => hdrOk h
  | .regionRelease h _ => hdrOk h
  | .commandPacketArrival ring _ => decide (ring < 64)
  | .ringEnable ring _ => decide (ring < 64)
  | .ringDisable ring => decide (ring < 64)
  | .cqEnable cq _ => decide (cq < 64)
  | .cqDisable cq => decide (cq < 64)
  | .cqHeadWrite cq _ => decide (cq < 64)
  | .completionRecordWrite cq => decide (cq < 64)
  | .commandTimeout ring _ => decide (ring < 64)
  | .nop h => hdrOk h
  | .writeInline h _ _ => hdrOk h
  | .launch h _ _ _ _ _ _ => hdrOk h
  | .launchCoreTake n => decide (n < 4096)
  | .launchComplete ring _ => decide (ring < 64)
  | .kernelStop h ring _ => hdrOk h && decide (ring < 64)
  | .fenceCmd h => hdrOk h
  | .wait h _ _ _ => hdrOk h
  | .waitPollRead ring _ _ => decide (ring < 64)
  | .signal h _ _ _ => hdrOk h
  | .bellCmd h group _ => hdrOk h && decide (group < 65536)
  | .query h _ _ => hdrOk h
  | .copy h fl _ _ _ => hdrOk h && flagOk fl
  | .copyNd h fl _ _ _ _ dims => hdrOk h && flagOk fl && dims.all (fun d => decide (d.count < 65536) && fitsS 48 d.stride)
  | .fill h fl _ _ _ _ => hdrOk h && flagOk fl
  | .carterSlotTake fb pool => decide (fb < 4) && decide (pool < 3)
  | .carterChunkReadData fb car slot chunk _ => decide (fb < 4) && decide (car < 12) && decide (slot < 4) && decide (chunk < 4294967296)
  | .carterChunkWriteAck fb car slot chunk => decide (fb < 4) && decide (car < 12) && decide (slot < 4) && decide (chunk < 4294967296)
  | .carterComplete fb car slot => decide (fb < 4) && decide (car < 12) && decide (slot < 4)
  | .attest h _ _ _ _ => hdrOk h
  | .fwStageOpen h slot => hdrOk h && decide (slot < 4)
  | .fwStageWrite h _ _ _ => hdrOk h
  | .fwStageCommit h => hdrOk h
  | .fwStageCancel h => hdrOk h
  | .fwStageActivate h => hdrOk h
  | .fwStageRatify h => hdrOk h
  | .ownerEnroll h _ _ => hdrOk h
  | .pldmRequestUpdate => true
  | .pldmImageTransfer _ _ => true
  | .pldmVerifyComplete => true
  | .pldmActivateFirmware => true
  | .pldmCancelUpdate => true
  | .pldmGetFirmwareParameters => true
  | .pollForPlatformEventMessage => true
  | .jtagAttach => true
  | .watchdogExpiry fb => decide (fb < 4)
  | .reeveRestartDone fb => decide (fb < 4)
  | .warmStartRequest _ => true
  | .coldStartRequest _ => true
  | .startStepEnd us r => decide (us < 18446744073709551616) && reportOk r
  | .startStepTimeout us => decide (us < 18446744073709551616)
  | .scRelease sc => decide (sc < 16)
  | .bootDescriptorFetch n _ _ => decide (n < 4096)
  | .coreReadyTimeout n => decide (n < 4096)
  | .monitorFaultReset n => decide (n < 4096)
  | .issueCycle n => decide (n < 4096)
  | .asyncOperationComplete n _ _ => decide (n < 4096)
  | .tensorQueueDispatch n _ => decide (n < 4096)
  | .nopInstr n t pr => issuer n t pr
  | .add n t pr d a b => issuer n t pr && below 64 [d, a, b]
  | .sub n t pr d a b => issuer n t pr && below 64 [d, a, b]
  | .addi n t pr d a imm => issuer n t pr && below 64 [d, a] && fitsS 36 imm
  | .mul n t pr d a b => issuer n t pr && below 64 [d, a, b]
  | .mulhu n t pr d a b => issuer n t pr && below 64 [d, a, b]
  | .mulhs n t pr d a b => issuer n t pr && below 64 [d, a, b]
  | .and n t pr d a b => issuer n t pr && below 64 [d, a, b]
  | .or n t pr d a b => issuer n t pr && below 64 [d, a, b]
  | .xor n t pr d a b => issuer n t pr && below 64 [d, a, b]
  | .shl n t pr d a b => issuer n t pr && below 64 [d, a, b]
  | .shr n t pr d a b => issuer n t pr && below 64 [d, a, b]
  | .sar n t pr d a b => issuer n t pr && below 64 [d, a, b]
  | .li n t pr d imm => issuer n t pr && below 64 [d] && fitsS 36 imm
  | .lih n t pr d imm => issuer n t pr && below 64 [d] && below 268435456 [imm]
  | .cmpeq n t pr d a b => issuer n t pr && below 8 [d] && below 64 [a, b]
  | .cmplt n t pr d a b => issuer n t pr && below 8 [d] && below 64 [a, b]
  | .cmpltu n t pr d a b => issuer n t pr && below 8 [d] && below 64 [a, b]
  | .pand n t pr d a b => issuer n t pr && below 8 [d, a, b]
  | .por n t pr d a b => issuer n t pr && below 8 [d, a, b]
  | .pnot n t pr d a => issuer n t pr && below 8 [d, a]
  | .br n t pr imm => issuer n t pr && fitsS 36 imm
  | .brl n t pr d imm => issuer n t pr && below 64 [d] && fitsS 36 imm
  | .jr n t pr a => issuer n t pr && below 64 [a]
  | .rdflg n t pr d => issuer n t pr && below 64 [d]
  | .clrflg n t pr x => issuer n t pr && below 64 [x]
  | .rdid n t pr d => issuer n t pr && below 64 [d]
  | .rdmer n t pr d => issuer n t pr && below 64 [d]
  | .vaddf n t pr d a b => issuer n t pr && below 16 [d, a, b]
  | .vsubf n t pr d a b => issuer n t pr && below 16 [d, a, b]
  | .vmulf n t pr d a b => issuer n t pr && below 16 [d, a, b]
  | .vfma n t pr d a b c => issuer n t pr && below 16 [d, a, b, c]
  | .vmaxf n t pr d a b => issuer n t pr && below 16 [d, a, b]
  | .vminf n t pr d a b => issuer n t pr && below 16 [d, a, b]
  | .vaddi n t pr d a b => issuer n t pr && below 16 [d, a, b]
  | .vsubi n t pr d a b => issuer n t pr && below 16 [d, a, b]
  | .vmuli n t pr d a b => issuer n t pr && below 16 [d, a, b]
  | .vand n t pr d a b => issuer n t pr && below 16 [d, a, b]
  | .vor n t pr d a b => issuer n t pr && below 16 [d, a, b]
  | .vxor n t pr d a b => issuer n t pr && below 16 [d, a, b]
  | .vshl n t pr d a b => issuer n t pr && below 16 [d, a, b]
  | .vshr n t pr d a b => issuer n t pr && below 16 [d, a, b]
  | .vsar n t pr d a b => issuer n t pr && below 16 [d, a, b]
  | .vcmp n t pr d a b cmp _ => issuer n t pr && below 8 [d, cmp] && below 16 [a, b]
  | .vsel n t pr d a b c => issuer n t pr && below 16 [d, a, b] && below 8 [c]
  | .vbcast n t pr d a => issuer n t pr && below 16 [d] && below 64 [a]
  | .vext n t pr d a lane => issuer n t pr && below 64 [d, lane] && below 16 [a]
  | .vperm n t pr d a b => issuer n t pr && below 16 [d, a, b]
  | .vsumf n t pr d a => issuer n t pr && below 16 [d, a]
  | .vcvt n t pr d a o => issuer n t pr && below 16 [d, a] && decide (o.tgt < 64) && decide (o.src < 64) && decide (o.rm < 8) && decide (o.k < 64)
  | .vqmx n t pr d a o => issuer n t pr && below 16 [d, a] && decide (o.tgt < 64) && decide (o.src < 64) && decide (o.rm < 8) && decide (o.k < 64)
  | .vq4 n t pr d a o => issuer n t pr && below 16 [d, a] && decide (o.tgt < 64) && decide (o.src < 64) && decide (o.rm < 8) && decide (o.k < 64)
  | .tmma n t pr tile fa fb a b sc c => issuer n t pr && below 4 [tile] && below 64 [fa, fb, a, b, sc] && below 8 [c]
  | .tzero n t pr tile _ anchor => issuer n t pr && below 4 [tile] && fitsS 10 anchor
  | .trd n t pr tile o d x c => issuer n t pr && below 4 [tile] && decide (o.fmt < 64) && decide (o.rm < 8) && below 64 [d, x] && below 8 [c]
  | .tlda n t pr tile fmt d c => issuer n t pr && below 4 [tile] && below 64 [fmt, d] && below 8 [c]
  | .trel n t pr tile => issuer n t pr && below 4 [tile]
  | .tsave n t pr tile a c => issuer n t pr && below 4 [tile] && below 64 [a] && below 8 [c]
  | .tload n t pr tile a c => issuer n t pr && below 4 [tile] && below 64 [a] && below 8 [c]
  | .lds n t pr d a size => issuer n t pr && below 64 [d, a] && below 8 [size]
  | .sts n t pr a b size => issuer n t pr && below 64 [a, b] && below 8 [size]
  | .ldv n t pr d a => issuer n t pr && below 16 [d] && below 64 [a]
  | .stv n t pr a b => issuer n t pr && below 64 [a] && below 16 [b]
  | .ldg n t pr d a size => issuer n t pr && below 64 [d, a] && below 8 [size]
  | .stg n t pr a b size vis => issuer n t pr && below 64 [a, b] && below 8 [size] && below 4 [vis]
  | .cpin n t pr a b c k => issuer n t pr && below 64 [a, b, c] && below 8 [k]
  | .cpout n t pr a b c k vis => issuer n t pr && below 64 [a, b, c] && below 8 [k] && below 4 [vis]
  | .cpin2 n t pr d a b c k => issuer n t pr && below 64 [d, a, b, c] && below 8 [k]
  | .cpout2 n t pr d a b c k vis => issuer n t pr && below 64 [d, a, b, c] && below 8 [k] && below 4 [vis]
  | .ldqb n t pr d a b c k => issuer n t pr && below 64 [d, a, b, c] && below 8 [k]
  | .atom n t pr d a b c op vis => issuer n t pr && below 64 [d, a, b, c] && below 16 [op] && below 4 [vis]
  | .pref n t pr a => issuer n t pr && below 64 [a]
  | .twait n t pr c imm => issuer n t pr && below 8 [c] && fitsS 36 imm
  | .twaitr n t pr c a => issuer n t pr && below 8 [c] && below 64 [a]
  | .tset n t pr c a => issuer n t pr && below 8 [c] && below 64 [a]
  | .tget n t pr d c => issuer n t pr && below 64 [d] && below 8 [c]
  | .bar n t pr _ => issuer n t pr
  | .bell n t pr a b k => issuer n t pr && below 64 [a, b] && below 8 [k]
  | .fence n t pr vis => issuer n t pr && below 4 [vis]
  | .waitg n t pr a b cmp => issuer n t pr && below 64 [a, b] && below 4 [cmp]
  | .waitgPollRead n t _ => decide (n < 4096) && decide (t < 16)
  | .yield n t pr => issuer n t pr
  | .exit n t pr => issuer n t pr
  | .ecall n t pr code => issuer n t pr && below 65536 [code]
  | .rput n t pr a b c k vis => issuer n t pr && below 64 [a, b, c] && below 8 [k] && below 4 [vis]
  | .rget n t pr a b c k vis => issuer n t pr && below 64 [a, b, c] && below 8 [k] && below 4 [vis]
  | .ratom n t pr a b c op k vis => issuer n t pr && below 64 [a, b, c] && below 16 [op] && below 8 [k] && below 4 [vis]
  | .mred n t pr a b c k => issuer n t pr && below 64 [a, b, c] && below 8 [k]
  | .xsend n t pr a b c k => issuer n t pr && below 64 [a, b, c] && below 8 [k]
  | .xrecv n t pr a b c => issuer n t pr && below 64 [a, b, c]
  | .thctlStart n t pr a b c => issuer n t pr && below 64 [a, b, c]
  | .thctlHold n t pr a => issuer n t pr && below 64 [a]
  | .thctlResume n t pr a => issuer n t pr && below 64 [a]
  | .thctlStop n t pr a => issuer n t pr && below 64 [a]
  | .thrd n t pr d a b reg => issuer n t pr && below 64 [d, a, b] && below 256 [reg]
  | .thwr n t pr a b reg => issuer n t pr && below 64 [a, b] && below 256 [reg]
  | .csrr n t pr d csr => issuer n t pr && below 64 [d] && below 4096 [csr]
  | .csrw n t pr a csr => issuer n t pr && below 64 [a] && below 4096 [csr]
  | .ifetch n t pr a b c k => issuer n t pr && below 64 [a, b, c] && below 8 [k]
  | .waitev n t pr d => issuer n t pr && below 64 [d]
  | .fabricFrameReceive l _ _ _ _ _ => decide (l < 96)
  | .linkControlPacket l _ _ => decide (l < 96)
  | .linkEnable l => decide (l < 96)
  | .linkDisable l => decide (l < 96)
  | .maxWidthWrite l w => decide (l < 96) && decide (w < 16)
  | .detectPulse l => decide (l < 96)
  | .partnerPulsesSeen l => decide (l < 96)
  | .trainingExchange l x => decide (l < 96) && trainOk x
  | .lightLoss l => decide (l < 96)
  | .retrainTimeout l => decide (l < 96)
  | .downBackoffEnd l => decide (l < 96)
  | .laserInputLoss q input => decide (q < 4) && decide (input < 2)
  | .ucieModuleDown q m => decide (q < 4) && decide (m < 12)
  | .lanternCapabilityRecord q _ => decide (q < 4)
  | .fabricRequestArrival l p => decide (l < 96) && fpktOk p
  | .fabricResponseArrival l p => decide (l < 96) && fpktOk p
  | .fabricErrorPacket l p => decide (l < 96) && fpktOk p
  | .fabricForward l p => decide (l < 96) && fpktOk p
  | .routeWaitTimeout _ => true
  | .e2eTimeout port tag => decide (port < 2048) && decide (tag < 65536)
  | .collectiveChunkArrival l p => decide (l < 96) && fpktOk p
  | .collectiveChunkAck l p => decide (l < 96) && fpktOk p
  | .collectiveChunkNack l p => decide (l < 96) && fpktOk p
  | .chunkResendTimer group _ chunk _ => decide (group < 256) && decide (chunk < 4294967296)
  | .collectiveTimeout group => decide (group < 256)
  | .fabricBellArrival l p => decide (l < 96) && fpktOk p
  | .fabricReleaseArrival l p => decide (l < 96) && fpktOk p
  | .rawPacketArrival l p => decide (l < 96) && fpktOk p
  | .meridianExchangeSend => true
  | .meridianExchangeReceive _ _ _ _ => true
  | .fabIdWrite _ => true
  | .fabRouteWrite m _ => decide (m < 16384)
  | .fabCollWrite g w _ => decide (g < 256) && decide (w < 4)
  | .eventRaise e => evOk e
  | .stampReport fb _ => decide (fb < 4)
  | .eventQueueRelease => true
  | .eventRingWrite => true
  | .eventRingEnable _ => true
  | .eventRingDisable => true
  | .eventRingHeadWrite _ => true
  | .registerWrite off size _ _ _ => decide (size < 9) && decide (0 < size) && decide (off + size ≤ 67108864)
  | .laserInputHasLight q input => decide (q < 4) && decide (input < 2)

end Sys2Proof
end

