-- ==== Sys2Proof/Decode.lean ====
section
/-! DEFINITION. Words that spell commands: spec/opcode_table.json gives no row of this block any bits, so no
word of the table's spells a command.  The 64-bit instruction words of a core (R92 to R104) are decoded and encoded
here. -/

namespace Sys2Proof

/-- The command that a word spells by the table's bits: none, since no row gives bits. DESIGN CHOICE: log entry 117.
-/
def decodeTableWord (_nbits _w : Nat) : Option Instr := none

/-! ### The decoder of a core -/

/-- Fields of layouts R and I (R93). -/
def fD (w : Nat) : Nat := bits w 47 42
def fA (w : Nat) : Nat := bits w 41 36
def fB (w : Nat) : Nat := bits w 35 30
def fC (w : Nat) : Nat := bits w 29 24
def fX (w : Nat) : Nat := bits w 23 0
def fImm (w : Nat) : Int := sext 36 w
def fPr (w : Nat) : Nat := bits w 50 48

/-- An instruction under conditions that R94 makes ILLEGAL when they fail. -/
def ok? (c : Bool) (i : Instr) : Option Instr := if c then some i else none

/-- The fields `(hi, lo)` of a word are zero. -/
def zeroAt (w : Nat) (fs : List (Nat × Nat)) : Bool := fs.all fun f => bits w f.1 f.2 == 0

def decodeScalar (n t op w : Nat) : Option Instr :=
  let d := fD w; let a := fA w; let b := fB w; let p := fPr w
  match op with
  | 0x00 => ok? (w % 2 ^ 48 == 0) (.nopInstr n t p)
  | 0x01 => some (.add n t p d a b)
  | 0x02 => some (.sub n t p d a b)
  | 0x03 => some (.addi n t p d a (fImm w))
  | 0x04 => some (.mul n t p d a b)
  | 0x05 => some (.mulhu n t p d a b)
  | 0x06 => some (.mulhs n t p d a b)
  | 0x08 => some (.and n t p d a b)
  | 0x09 => some (.or n t p d a b)
  | 0x0A => some (.xor n t p d a b)
  | 0x0C => some (.shl n t p d a b)
  | 0x0D => some (.shr n t p d a b)
  | 0x0E => some (.sar n t p d a b)
  | 0x10 => ok? (a == 0) (.li n t p d (fImm w))
  | 0x11 => ok? (a == 0 && bits w 35 28 == 0) (.lih n t p d (bits w 27 0))
  | 0x18 => ok? (decide (d < 8)) (.cmpeq n t p d a b)
  | 0x19 => ok? (decide (d < 8)) (.cmplt n t p d a b)
  | 0x1A => ok? (decide (d < 8)) (.cmpltu n t p d a b)
  | 0x1B =>
    if 8 ≤ d ∨ 8 ≤ a then none
    else match fX w % 4 with
      | 0 => ok? (decide (b < 8)) (.pand n t p d a b)
      | 1 => ok? (decide (b < 8)) (.por n t p d a b)
      | 2 => some (.pnot n t p d a)
      | _ => none
  | 0x20 => ok? (d == 0 && a == 0) (.br n t p (fImm w))
  | 0x21 => some (.brl n t p d (fImm w))
  | 0x22 => some (.jr n t p a)
  | 0x28 => some (.rdflg n t p d)
  | 0x29 => some (.clrflg n t p (fX w % 64))
  | 0x2A => some (.rdid n t p d)
  | 0x2B => some (.rdmer n t p d)
  | _ => none

/-- The options of VCVT, VQMX and VQ4 (R96). -/
def cvtOf (x : Nat) : CvtOpt := ⟨bits x 5 0, bits x 11 6, bits x 14 12, bit x 15, bits x 21 16⟩

def decodeVector (n t op w : Nat) : Option Instr :=
  let d := fD w; let a := fA w; let b := fB w; let c := fC w; let x := fX w; let p := fPr w
  let v3 := decide (d < 16) && decide (a < 16) && decide (b < 16)
  let v2 := decide (d < 16) && decide (a < 16)
  match op with
  | 0x00 => ok? v3 (.vaddf n t p d a b)
  | 0x01 => ok? v3 (.vsubf n t p d a b)
  | 0x02 => ok? v3 (.vmulf n t p d a b)
  | 0x03 => ok? (v3 && decide (c < 16)) (.vfma n t p d a b c)
  | 0x04 => if bit x 0 then ok? v3 (.vminf n t p d a b) else ok? v3 (.vmaxf n t p d a b)
  | 0x08 => ok? v3 (.vaddi n t p d a b)
  | 0x09 => ok? v3 (.vsubi n t p d a b)
  | 0x0A => ok? v3 (.vmuli n t p d a b)
  | 0x0C => match x % 4 with
    | 0 => ok? v3 (.vand n t p d a b)
    | 1 => ok? v3 (.vor n t p d a b)
    | 2 => ok? v3 (.vxor n t p d a b)
    | _ => none
  | 0x0D => match x % 4 with
    | 0 => ok? v3 (.vshl n t p d a b)
    | 1 => ok? v3 (.vshr n t p d a b)
    | 2 => ok? v3 (.vsar n t p d a b)
    | _ => none
  | 0x10 => ok? (decide (d < 8) && decide (a < 16) && decide (b < 16)) (.vcmp n t p d a b (x % 8) (bit x 3))
  | 0x11 => ok? (v3 && decide (c < 8)) (.vsel n t p d a b c)
  | 0x12 => ok? (decide (d < 16)) (.vbcast n t p d a)
  | 0x13 => ok? (decide (a < 16)) (.vext n t p d a (x % 64))
  | 0x14 => ok? v3 (.vperm n t p d a b)
  | 0x18 => ok? v2 (.vsumf n t p d a)
  | 0x20 => ok? (v2 && decide (x < 2 ^ 22)) (.vcvt n t p d a (cvtOf x))
  | 0x21 => ok? (v2 && decide (x < 2 ^ 22)) (.vqmx n t p d a (cvtOf x))
  | 0x22 => ok? (v2 && decide (x < 2 ^ 22)) (.vq4 n t p d a (cvtOf x))
  | _ => none

def decodeTensor (n t op w : Nat) : Option Instr :=
  let tile := bits w 47 46; let p := fPr w
  match op with
  | 0x00 => ok? (w % 2 ^ 13 == 0) (.tmma n t p tile (bits w 45 40) (bits w 39 34) (bits w 33 28) (bits w 27 22)
      (bits w 21 16) (bits w 15 13))
  | 0x01 => ok? (w % 2 ^ 35 == 0) (.tzero n t p tile (bit w 45) (sext 10 (w / 2 ^ 35)))
  | 0x02 => ok? (w % 2 ^ 19 == 0) (.trd n t p tile ⟨bits w 45 40, bits w 39 37, bit w 36, bit w 35, bit w 34⟩ (bits
      w 33 28) (bits w 27 22)
      (bits w 21 19))
  | 0x03 => ok? (w % 2 ^ 19 == 0 && bits w 39 34 == 0 && bits w 27 22 == 0) (.tlda n t p tile (bits w 45 40) (bits
      w 33 28) (bits w 21 19))
  | 0x04 => ok? (w % 2 ^ 46 == 0) (.trel n t p tile)
  | 0x10 => ok? (zeroAt w [(45, 34), (27, 22), (18, 0)]) (.tsave n t p tile (bits w 33 28) (bits w 21 19))
  | 0x11 => ok? (zeroAt w [(45, 34), (27, 22), (18, 0)]) (.tload n t p tile (bits w 33 28) (bits w 21 19))
  | _ => none

def decodeMemory (n t op w : Nat) : Option Instr :=
  let d := fD w; let a := fA w; let b := fB w; let c := fC w; let x := fX w; let p := fPr w
  let k := x % 8; let vis := bits x 4 3; let size := bits x 7 5
  match op with
  | 0x00 => ok? (zeroAt x [(23, 8), (4, 0)]) (.lds n t p d a size)
  | 0x01 => ok? (zeroAt x [(23, 8), (4, 0)]) (.sts n t p a b size)
  | 0x02 => ok? (zeroAt x [(23, 0)] && decide (d < 16)) (.ldv n t p d a)
  | 0x03 => ok? (zeroAt x [(23, 0)] && decide (b < 16)) (.stv n t p a b)
  | 0x08 => ok? (zeroAt x [(23, 8), (4, 0)]) (.ldg n t p d a size)
  | 0x09 => ok? (zeroAt x [(23, 8), (2, 0)]) (.stg n t p a b size vis)
  | 0x10 => ok? (zeroAt x [(23, 3)]) (.cpin n t p a b c k)
  | 0x11 => ok? (zeroAt x [(23, 5)]) (.cpout n t p a b c k vis)
  | 0x12 => ok? (zeroAt x [(23, 3)]) (.cpin2 n t p d a b c k)
  | 0x13 => ok? (zeroAt x [(23, 5)]) (.cpout2 n t p d a b c k vis)
  | 0x14 => ok? (zeroAt x [(23, 3)]) (.ldqb n t p d a b c k)
  | 0x18 => ok? (zeroAt x [(23, 12), (7, 5), (2, 0)]) (.atom n t p d a b c (bits x 11 8) vis)
  | 0x20 => ok? (zeroAt x [(23, 0)]) (.pref n t p a)
  | _ => none

def decodeSync (n t op w : Nat) : Option Instr :=
  let d := fD w; let a := fA w; let b := fB w; let x := fX w; let p := fPr w
  match op with
  | 0x00 => ok? (decide (d < 8) && a == 0) (.twait n t p d (fImm w))
  | 0x01 => ok? (decide (d < 8)) (.twaitr n t p d a)
  | 0x02 => ok? (decide (d < 8)) (.tset n t p d a)
  | 0x03 => ok? (decide (a < 8)) (.tget n t p d a)
  | 0x08 => ok? (bits w 35 16 == 0) (.bar n t p (BitVec.ofNat 16 w))
  | 0x10 => some (.bell n t p a b (x % 8))
  | 0x18 => some (.fence n t p (bits x 4 3))
  | 0x20 => some (.waitg n t p a b (x % 4))
  | 0x28 => some (.yield n t p)
  | 0x30 => some (.exit n t p)
  | 0x31 => some (.ecall n t p (bits x 15 0))
  | _ => none

def decodeFabric (n t op w : Nat) : Option Instr :=
  let a := fA w; let b := fB w; let c := fC w; let x := fX w; let p := fPr w
  let k := x % 8; let vis := bits x 4 3
  match op with
  | 0x00 => some (.rput n t p a b c k vis)
  | 0x01 => some (.rget n t p a b c k vis)
  | 0x02 => some (.ratom n t p a b c (bits x 11 8) k vis)
  | 0x08 => ok? (vis != 3) (.mred n t p a b c k)
  | 0x10 => ok? (vis != 3) (.xsend n t p a b c k)
  | 0x11 => ok? (x == 0) (.xrecv n t p a b c)
  | _ => none

def decodeMonitor (n t op w : Nat) : Option Instr :=
  let d := fD w; let a := fA w; let b := fB w; let c := fC w; let x := fX w; let p := fPr w
  match op with
  | 0x00 => match x % 4 with
    | 0 => some (.thctlStart n t p a b c)
    | 1 => some (.thctlHold n t p a)
    | 2 => some (.thctlResume n t p a)
    | _ => some (.thctlStop n t p a)
  | 0x01 => some (.thrd n t p d a b (x % 256))
  | 0x02 => some (.thwr n t p a b (x % 256))
  | 0x08 => some (.csrr n t p d (x % 4096))
  | 0x09 => some (.csrw n t p a (x % 4096))
  | 0x10 => some (.ifetch n t p a b c (x % 8))
  | 0x18 => some (.waitev n t p d)
  | _ => none

/-- Decode an instruction word of core `n`, thread `t` (R92, R94): none for ILLEGAL. -/
def decodeCore (n t w : Nat) : Option Instr :=
  let op := bits w 59 52
  if bit w 51 then none
  else match bits w 63 60 with
    | 0 => decodeScalar n t op w
    | 1 => decodeVector n t op w
    | 2 => decodeTensor n t op w
    | 3 => decodeMemory n t op w
    | 4 => decodeSync n t op w
    | 5 => decodeFabric n t op w
    | 7 => decodeMonitor n t op w
    | _ => none

/-! ### The encoder -/

/-- A word of a group, an opcode and a predicate register, with operand bits [47:0] (R92). -/
def word (grp op pr x : Nat) : Option Nat := some (grp * 2 ^ 60 + op * 2 ^ 52 + pr * 2 ^ 48 + x)

/-- Operands of layout R (R93). -/
def opR (d a b c x : Nat) : Nat := d * 2 ^ 42 + a * 2 ^ 36 + b * 2 ^ 30 + c * 2 ^ 24 + x

/-- A signed field of `w` bits. -/
def sfield (w : Nat) (x : Int) : Nat := (x % (2 ^ w : Nat)).toNat

/-- Operands of layout I (R93). -/
def opI (d a : Nat) (imm : Int) : Nat := d * 2 ^ 42 + a * 2 ^ 36 + sfield 36 imm

/-- The X field of VCVT, VQMX and VQ4 (R96). -/
def cvtX (o : CvtOpt) : Nat := o.tgt + o.src * 2 ^ 6 + o.rm * 2 ^ 12 + b2n o.sat * 2 ^ 15 + o.k * 2 ^ 16

/-- The word of a core instruction; none for every other command. -/
def encodeCore : Instr → Option Nat
  | .nopInstr _ _ p => word 0 0x00 p 0
  | .add _ _ p d a b => word 0 0x01 p (opR d a b 0 0)
  | .sub _ _ p d a b => word 0 0x02 p (opR d a b 0 0)
  | .mul _ _ p d a b => word 0 0x04 p (opR d a b 0 0)
  | .mulhu _ _ p d a b => word 0 0x05 p (opR d a b 0 0)
  | .mulhs _ _ p d a b => word 0 0x06 p (opR d a b 0 0)
  | .and _ _ p d a b => word 0 0x08 p (opR d a b 0 0)
  | .or _ _ p d a b => word 0 0x09 p (opR d a b 0 0)
  | .xor _ _ p d a b => word 0 0x0A p (opR d a b 0 0)
  | .shl _ _ p d a b => word 0 0x0C p (opR d a b 0 0)
  | .shr _ _ p d a b => word 0 0x0D p (opR d a b 0 0)
  | .sar _ _ p d a b => word 0 0x0E p (opR d a b 0 0)
  | .cmpeq _ _ p d a b => word 0 0x18 p (opR d a b 0 0)
  | .cmplt _ _ p d a b => word 0 0x19 p (opR d a b 0 0)
  | .cmpltu _ _ p d a b => word 0 0x1A p (opR d a b 0 0)
  | .addi _ _ p d a imm => word 0 0x03 p (opI d a imm)
  | .li _ _ p d imm => word 0 0x10 p (opI d 0 imm)
  | .lih _ _ p d imm => word 0 0x11 p (d * 2 ^ 42 + imm)
  | .pand _ _ p d a b => word 0 0x1B p (opR d a b 0 0)
  | .por _ _ p d a b => word 0 0x1B p (opR d a b 0 1)
  | .pnot _ _ p d a => word 0 0x1B p (opR d a 0 0 2)
  | .br _ _ p imm => word 0 0x20 p (opI 0 0 imm)
  | .brl _ _ p d imm => word 0 0x21 p (opI d 0 imm)
  | .jr _ _ p a => word 0 0x22 p (opR 0 a 0 0 0)
  | .rdflg _ _ p d => word 0 0x28 p (opR d 0 0 0 0)
  | .clrflg _ _ p x => word 0 0x29 p x
  | .rdid _ _ p d => word 0 0x2A p (opR d 0 0 0 0)
  | .rdmer _ _ p d => word 0 0x2B p (opR d 0 0 0 0)
  | .vaddf _ _ p d a b => word 1 0x00 p (opR d a b 0 0)
  | .vsubf _ _ p d a b => word 1 0x01 p (opR d a b 0 0)
  | .vmulf _ _ p d a b => word 1 0x02 p (opR d a b 0 0)
  | .vmaxf _ _ p d a b => word 1 0x04 p (opR d a b 0 0)
  | .vminf _ _ p d a b => word 1 0x04 p (opR d a b 0 1)
  | .vaddi _ _ p d a b => word 1 0x08 p (opR d a b 0 0)
  | .vsubi _ _ p d a b => word 1 0x09 p (opR d a b 0 0)
  | .vmuli _ _ p d a b => word 1 0x0A p (opR d a b 0 0)
  | .vand _ _ p d a b => word 1 0x0C p (opR d a b 0 0)
  | .vor _ _ p d a b => word 1 0x0C p (opR d a b 0 1)
  | .vxor _ _ p d a b => word 1 0x0C p (opR d a b 0 2)
  | .vshl _ _ p d a b => word 1 0x0D p (opR d a b 0 0)
  | .vshr _ _ p d a b => word 1 0x0D p (opR d a b 0 1)
  | .vsar _ _ p d a b => word 1 0x0D p (opR d a b 0 2)
  | .vperm _ _ p d a b => word 1 0x14 p (opR d a b 0 0)
  | .vfma _ _ p d a b c => word 1 0x03 p (opR d a b c 0)
  | .vcmp _ _ p d a b cmp fp => word 1 0x10 p (opR d a b 0 (cmp + 8 * b2n fp))
  | .vsel _ _ p d a b c => word 1 0x11 p (opR d a b c 0)
  | .vbcast _ _ p d a => word 1 0x12 p (opR d a 0 0 0)
  | .vext _ _ p d a lane => word 1 0x13 p (opR d a 0 0 lane)
  | .vsumf _ _ p d a => word 1 0x18 p (opR d a 0 0 0)
  | .vcvt _ _ p d a o => word 1 0x20 p (opR d a 0 0 (cvtX o))
  | .vqmx _ _ p d a o => word 1 0x21 p (opR d a 0 0 (cvtX o))
  | .vq4 _ _ p d a o => word 1 0x22 p (opR d a 0 0 (cvtX o))
  | .tmma _ _ p tile fa fb a b sc c => word 2 0x00 p (tile * 2 ^ 46 + fa * 2 ^ 40 + fb * 2 ^ 34 + a * 2 ^ 28 + b *
      2 ^ 22 + sc * 2 ^ 16 + c * 2 ^ 13)
  | .tzero _ _ p tile ex anchor => word 2 0x01 p (tile * 2 ^ 46 + b2n ex * 2 ^ 45 + sfield 10 anchor * 2 ^ 35)
  | .trd _ _ p tile o d x c => word 2 0x02 p (tile * 2 ^ 46 + o.fmt * 2 ^ 40 + o.rm * 2 ^ 37 + b2n o.sat * 2 ^ 36 +
      b2n o.clr * 2 ^ 35 + b2n o.rel * 2 ^ 34 + d * 2 ^ 28 + x * 2 ^ 22 + c * 2 ^ 19)
  | .tlda _ _ p tile fmt d c => word 2 0x03 p (tile * 2 ^ 46 + fmt * 2 ^ 40 + d * 2 ^ 28 + c * 2 ^ 19)
  | .trel _ _ p tile => word 2 0x04 p (tile * 2 ^ 46)
  | .tsave _ _ p tile a c => word 2 0x10 p (tile * 2 ^ 46 + a * 2 ^ 28 + c * 2 ^ 19)
  | .tload _ _ p tile a c => word 2 0x11 p (tile * 2 ^ 46 + a * 2 ^ 28 + c * 2 ^ 19)
  | .lds _ _ p d a size => word 3 0x00 p (opR d a 0 0 (size * 2 ^ 5))
  | .sts _ _ p a b size => word 3 0x01 p (opR 0 a b 0 (size * 2 ^ 5))
  | .ldv _ _ p d a => word 3 0x02 p (opR d a 0 0 0)
  | .stv _ _ p a b => word 3 0x03 p (opR 0 a b 0 0)
  | .ldg _ _ p d a size => word 3 0x08 p (opR d a 0 0 (size * 2 ^ 5))
  | .stg _ _ p a b size vis => word 3 0x09 p (opR 0 a b 0 (vis * 2 ^ 3 + size * 2 ^ 5))
  | .cpin _ _ p a b c k => word 3 0x10 p (opR 0 a b c k)
  | .cpout _ _ p a b c k vis => word 3 0x11 p (opR 0 a b c (k + vis * 2 ^ 3))
  | .cpin2 _ _ p d a b c k => word 3 0x12 p (opR d a b c k)
  | .cpout2 _ _ p d a b c k vis => word 3 0x13 p (opR d a b c (k + vis * 2 ^ 3))
  | .ldqb _ _ p d a b c k => word 3 0x14 p (opR d a b c k)
  | .atom _ _ p d a b c op vis => word 3 0x18 p (opR d a b c (vis * 2 ^ 3 + op * 2 ^ 8))
  | .pref _ _ p a => word 3 0x20 p (opR 0 a 0 0 0)
  | .twait _ _ p c imm => word 4 0x00 p (opI c 0 imm)
  | .twaitr _ _ p c a => word 4 0x01 p (opR c a 0 0 0)
  | .tset _ _ p c a => word 4 0x02 p (opR c a 0 0 0)
  | .tget _ _ p d c => word 4 0x03 p (opR d c 0 0 0)
  | .bar _ _ p mask => word 4 0x08 p mask.toNat
  | .bell _ _ p a b k => word 4 0x10 p (opR 0 a b 0 k)
  | .fence _ _ p vis => word 4 0x18 p (vis * 2 ^ 3)
  | .waitg _ _ p a b cmp => word 4 0x20 p (opR 0 a b 0 cmp)
  | .yield _ _ p => word 4 0x28 p 0
  | .exit _ _ p => word 4 0x30 p 0
  | .ecall _ _ p code => word 4 0x31 p code
  | .rput _ _ p a b c k vis => word 5 0x00 p (opR 0 a b c (k + vis * 2 ^ 3))
  | .rget _ _ p a b c k vis => word 5 0x01 p (opR 0 a b c (k + vis * 2 ^ 3))
  | .ratom _ _ p a b c op k vis => word 5 0x02 p (opR 0 a b c (k + vis * 2 ^ 3 + op * 2 ^ 8))
  | .mred _ _ p a b c k => word 5 0x08 p (opR 0 a b c k)
  | .xsend _ _ p a b c k => word 5 0x10 p (opR 0 a b c k)
  | .xrecv _ _ p a b c => word 5 0x11 p (opR 0 a b c 0)
  | .thctlStart _ _ p a b c => word 7 0x00 p (opR 0 a b c 0)
  | .thctlHold _ _ p a => word 7 0x00 p (opR 0 a 0 0 1)
  | .thctlResume _ _ p a => word 7 0x00 p (opR 0 a 0 0 2)
  | .thctlStop _ _ p a => word 7 0x00 p (opR 0 a 0 0 3)
  | .thrd _ _ p d a b reg => word 7 0x01 p (opR d a b 0 reg)
  | .thwr _ _ p a b reg => word 7 0x02 p (opR 0 a b 0 reg)
  | .csrr _ _ p d csr => word 7 0x08 p (opR d 0 0 0 csr)
  | .csrw _ _ p a csr => word 7 0x09 p (opR 0 a 0 0 csr)
  | .ifetch _ _ p a b c k => word 7 0x10 p (opR 0 a b c k)
  | .waitev _ _ p d => word 7 0x18 p (opR d 0 0 0 0)
  | _ => none

end Sys2Proof
end

