-- ==== Sys2Proof/Machine/Formats.lean ====
section
/-! DEFINITION. Number formats, rounding and block quantisation (chapter 02: R33-R54), on exact values. -/

namespace Sys2Proof.Machine

/-- An exact value: NaN, an infinity, or `(-1)^neg * m * 2^e`; zeros keep their sign (R37). -/
inductive Val where
  | nan
  | inf (neg : Bool)
  | fin (neg : Bool) (m : Nat) (e : Int)
  deriving DecidableEq, Repr

/-- The flags of R82 in FLG's bit order. -/
abbrev Flg := BitVec 6
def fNV : Flg := 1
def fOF : Flg := 2
def fUF : Flg := 4
def fNX : Flg := 8
def fTR : Flg := 16
def fAR : Flg := 32

/-- A floating-point format (R35): mantissa bits, bias, total bits, the code of infinity and NaN where it
has them, and the code of its largest finite value. -/
structure FFmt where
  m : Nat
  bias : Int
  bits : Nat
  inf : Option Nat
  nan : Option Nat
  max : Nat
  deriving DecidableEq, Repr

/-- The floating-point formats by code (R34, R35). -/
def ffmt : Nat → Option FFmt
  | 0x01 => some ⟨23, 127, 32, some 0x7F800000, some 0x7FC00000, 0x7F7FFFFF⟩
  | 0x02 => some ⟨10, 15, 16, some 0x7C00, some 0x7E00, 0x7BFF⟩
  | 0x03 => some ⟨7, 127, 16, some 0x7F80, some 0x7FC0, 0x7F7F⟩
  | 0x04 => some ⟨3, 7, 8, none, some 0x7F, 0x7E⟩
  | 0x05 => some ⟨2, 15, 8, some 0x7C, some 0x7E, 0x7B⟩
  | 0x06 => some ⟨3, 1, 6, none, none, 0x1F⟩
  | 0x07 => some ⟨2, 3, 6, none, none, 0x1F⟩
  | 0x08 => some ⟨1, 1, 4, none, none, 0x7⟩
  | _ => none

/-- The integer formats by code (R38): width. -/
def ifmt : Nat → Option Nat
  | 0x10 => some 4
  | 0x11 => some 8
  | 0x12 => some 32
  | _ => none

/-- The element format of an MX code (R34, R41); 0x1D is MXINT8. -/
def mxElem : Nat → Option Nat
  | 0x18 => some 0x04
  | 0x19 => some 0x05
  | 0x1A => some 0x06
  | 0x1B => some 0x07
  | 0x1C => some 0x08
  | 0x1D => some 0x1D
  | _ => none

/-- Bits of an element of a format code (R34). -/
def fmtBits (c : Nat) : Nat :=
  match ffmt c, ifmt c, mxElem c with
  | some f, _, _ => f.bits
  | _, some w, _ => w
  | _, _, some e => if e = 0x1D then 8 else ((ffmt e).map (·.bits)).getD 0
  | _, _, _ => if c = 0x20 then 4 else if c = 0x3E then 128 else 0

/-- The codes valid as a tensor operand: column T of R34. -/
def isT (c : Nat) : Bool :=
  [0x02, 0x03, 0x04, 0x05, 0x06, 0x07, 0x08, 0x10, 0x11, 0x18, 0x19, 0x1A, 0x1B, 0x1C, 0x1D, 0x20].contains c

/-- The codes valid as a conversion source or target: column C of R34. -/
def isC (c : Nat) : Bool := c = 0x01 || c = 0x12 || isT c

/-- The exact value of a floating-point code (R35). -/
def decFp (f : FFmt) (code : Nat) : Val :=
  let mag := code % 2 ^ (f.bits - 1)
  let neg := code.testBit (f.bits - 1)
  let e := mag / 2 ^ f.m
  let m := mag % 2 ^ f.m
  let special : Option Val :=
    match f.inf, f.nan with
    | some i, _ => if mag = i then some (.inf neg) else if i < mag then some .nan else none
    | none, some n => if mag = n then some .nan else none
    | none, none => none
  match special with
  | some v => v
  | none => if e = 0 then .fin neg m (1 - f.bias - f.m) else .fin neg (2 ^ f.m + m) (e - f.bias - f.m)

/-- The exact value of an integer (R38). -/
def decInt (i : Int) (e : Int) : Val := .fin (decide (i < 0)) i.natAbs e

/-- The exact value of an element code of a non-block format; MXINT8 as its element value (R42). -/
def decElem (c code : Nat) : Val :=
  match ffmt c, ifmt c with
  | some f, _ => decFp f code
  | _, some w => decInt (sext w code) 0
  | _, _ => if c = 0x1D then decInt (sext 8 code) (-6) else .nan

/-- Apply a scale of 2^k, exactly. -/
def Val.scale (k : Int) : Val → Val
  | .fin s m e => .fin s m (e + k)
  | v => v

/-- An element of an MX block under its E8M0 scale code (R42). -/
def decMx (elem code scale : Nat) : Val :=
  if scale = 0xFF then .nan else (decElem elem code).scale ((scale : Int) - 127)

/-- An element of a QBF4 block (R43). -/
def decQ (code scale sub : Nat) : Val :=
  if scale = 0xFF then .nan else (decElem 0x08 code).scale ((scale : Int) - 127 - sub)

/-- The generator of R53. -/
def srRound (x : Word) : Word :=
  let x := x ^^^ (x >>> 31)
  let x := x * 0xC2E71F598A3D6B15#64
  let x := x ^^^ (x >>> 29)
  x * 0x8F1BC7A452D9E36D#64

def srBits (seed index : Word) : Nat :=
  let x := (seed ^^^ (index * 0x9E6D52B13C47A5F3#64)) + 0x5B3E87D104A9C62F#64
  let x := srRound (srRound (srRound x))
  let x := x ^^^ (x >>> 32)
  (x >>> 32).toNat

/-- Round the magnitude `m * 2^e` to a multiple of `2^q` (R46, R54): the multiple, and whether inexact. -/
def roundMag (rm : Nat) (neg : Bool) (m : Nat) (e q : Int) (u : Nat) : Nat × Bool :=
  if q ≤ e then (m * 2 ^ (e - q).toNat, false)
  else
    let sh := (q - e).toNat
    let n := m / 2 ^ sh
    let r := m % 2 ^ sh
    if r = 0 then (n, false)
    else
      let up : Bool :=
        match rm with
        | 0 => if 2 * r = 2 ^ sh then n % 2 = 1 else decide (2 ^ sh < 2 * r)
        | 1 => false
        | 2 => !neg
        | 3 => neg
        | _ =>
          if neg then !decide (u < (2 ^ sh - r) * 2 ^ 32 / 2 ^ sh) else decide (u < r * 2 ^ 32 / 2 ^ sh)
      (if up then n + 1 else n, true)

/-- The sign bit of a format. -/
def signBit (f : FFmt) (neg : Bool) : Nat := if neg then 2 ^ (f.bits - 1) else 0

/-- What an overflow gives (R47, R48): the code without sign. -/
def ovfCode (f : FFmt) (rm : Nat) (sat : Bool) (neg : Bool) : Nat :=
  match f.inf, f.nan with
  | some i, _ =>
    if sat then f.max
    else
      match rm with
      | 1 => f.max
      | 2 => if neg then f.max else i
      | 3 => if neg then i else f.max
      | _ => i
  | none, some n => if sat then f.max else n
  | none, none => f.max

/-- Encode an exact value into a floating-point format (R47-R50). DEDUCED, log entry 156: an infinity that becomes NaN in a
format without infinities sets NV and leaves NX clear. -/
def encFp (f : FFmt) (rm : Nat) (sat : Bool) (u : Nat) : Val → Nat × Flg
  | .nan =>
    match f.nan with
    | some n => (n, 0)
    | none => (0, fNV ||| fNX)
  | .inf neg =>
    match f.inf, f.nan with
    | some i, _ => (signBit f neg + i, 0)
    | none, some n => if sat then (signBit f neg + f.max, fNV ||| fNX) else (n, fNV)
    | none, none => (signBit f neg + f.max, fNV ||| fNX)
  | .fin neg m e =>
    if m = 0 then (signBit f neg, 0)
    else
      let lg : Int := (m.log2 : Int) + e
      let emin : Int := 1 - f.bias
      let q : Int := (if lg < emin then emin else lg) - f.m
      let (n, inexact) := roundMag rm neg m e q u
      let code := n + (q - (emin - f.m)).toNat * 2 ^ f.m
      if f.max < code then
        let c := ovfCode f rm sat neg
        (if f.inf = none ∧ f.nan = some c ∧ ¬ sat then c else signBit f neg + c, fOF ||| fNX)
      else
        (signBit f neg + code,
          (if inexact then fNX else 0) ||| (if inexact ∧ lg < emin then fUF else 0))

/-- Encode an exact value into a two's complement integer of width `w` (R47): `lo` its least value. -/
def encInt (w : Nat) (lo hi : Int) (nvOvf : Bool) (rm : Nat) (u : Nat) : Val → Nat × Flg
  | .nan => (0, fNV ||| fNX)
  | .inf neg => (((if neg then lo else hi) % (2 ^ w : Nat)).toNat, fNV ||| fNX)
  | .fin neg m e =>
    let (n, inexact) := roundMag rm neg m e 0 u
    let i : Int := if neg then -(n : Int) else n
    if i < lo ∨ hi < i then
      (((if neg then lo else hi) % (2 ^ w : Nat)).toNat, fOF ||| fNX ||| (if nvOvf then fNV else 0))
    else ((i % (2 ^ w : Nat)).toNat, if inexact then fNX else 0)

/-- `encode` of R47-R54: into an element format code, with the seed and logical index for RM = SR. -/
def encode (c rm : Nat) (sat : Bool) (seed index : Word) (v : Val) : Nat × Flg :=
  let u := if rm = 4 then srBits seed index else 0
  match ffmt c, ifmt c with
  | some f, _ => encFp f rm sat u v
  | _, some w => encInt w (-(2 ^ (w - 1) : Nat)) ((2 ^ (w - 1) : Nat) - 1) true rm u v
  | _, _ => if c = 0x1D then encInt 8 (-127) 127 false rm u (v.scale 6) else (0, 0)

/-- `emax(f)` of R51, R52. -/
def emaxOf : Nat → Int
  | 0x04 => 8
  | 0x05 => 15
  | 0x06 => 2
  | 0x07 => 4
  | 0x08 => 2
  | _ => 0

def Val.isSpecial : Val → Bool
  | .fin _ _ _ => false
  | _ => true

/-- Exact floor(log2 |v|), none for zero. -/
def Val.log2? : Val → Option Int
  | .fin _ m e => if m = 0 then none else some (m.log2 + e)
  | _ => none

/-- floor_log2 of the largest magnitude of a list, none if all are zero. -/
def maxLog2 (vs : List Val) : Option Int :=
  vs.foldl (fun a v =>
    match a, v.log2? with
    | some x, some y => some (if x < y then y else x)
    | some x, none => some x
    | none, y => y) none

/-- Encode a list with rising logical indices: codes and the flags together. -/
def encodeList (c rm : Nat) (sat : Bool) (seed : Word) : Word → List Val → List Nat × Flg
  | _, [] => ([], 0)
  | i, v :: vs =>
    let (x, f) := encode c rm sat seed i v
    let (xs, g) := encodeList c rm sat seed (i + 1) vs
    (x :: xs, f ||| g)

/-- quantise_mx (R51) of an MX code: scale, element codes, flags. -/
def quantMx (c rm : Nat) (seed base : Word) (vs : List Val) : Nat × List Nat × Flg :=
  let f := (mxElem c).getD 0
  if vs.any Val.isSpecial then (0xFF, vs.map fun _ => 0, fNV)
  else
    let e : Int :=
      match maxLog2 vs with
      | none => 0
      | some l => clampInt (-127) 127 (l - emaxOf f)
    let (xs, g) := encodeList f rm true seed base (vs.map (Val.scale (-e)))
    ((e + 127).toNat, xs, g)

/-- The sub-blocks of R52 from sub-block `j` on. -/
def quantSub (rm : Nat) (seed base : Word) (eb : Int) : Nat → List Val → Nat → List Nat × List Nat × Flg
  | 0, _, _ => ([], [], 0)
  | n + 1, vs, j =>
    let s : Int :=
      match maxLog2 (vs.take 16) with
      | none => 0
      | some l => clampInt 0 15 (eb - (l - 2))
    let (xs, f) := encodeList 0x08 rm true seed (base + BitVec.ofNat 64 (16 * j)) ((vs.take 16).map (Val.scale (s - eb)))
    let (ss, ys, g) := quantSub rm seed base eb n (vs.drop 16) (j + 1)
    (s.toNat :: ss, xs ++ ys, f ||| g)

/-- quantise_qbf4 (R52): scale, 16 sub-scales, 256 element codes, flags. -/
def quantQ (rm : Nat) (seed base : Word) (vs : List Val) : Nat × List Nat × List Nat × Flg :=
  if vs.any Val.isSpecial then (0xFF, List.replicate 16 0, vs.map fun _ => 0, fNV)
  else
    let eb : Int :=
      match maxLog2 vs with
      | none => 0
      | some l => clampInt (-127) 127 (l - 2)
    let (ss, xs, g) := quantSub rm seed base eb 16 vs 0
    ((eb + 127).toNat, ss, xs, g)

/-- Pack codes of `w` bits, the first in the lowest bits (R40). -/
def packBits (w : Nat) : List Nat → Nat
  | [] => 0
  | x :: xs => x % 2 ^ w + 2 ^ w * packBits w xs

/-- Element `i` of `w` bits of a packed number (R40). -/
def elemAt (w v i : Nat) : Nat := (v >>> (w * i)) % 2 ^ w

/-- The 144-byte QBF4 block (R44) as a number. -/
def packQ (scale : Nat) (subs elems : List Nat) : Nat :=
  packBits 4 elems + 2 ^ 1024 * packBits 4 subs + 2 ^ 1088 * scale

/-- FP32. -/
def fp32 : FFmt := ⟨23, 127, 32, some 0x7F800000, some 0x7FC00000, 0x7F7FFFFF⟩
def dec32 (c : Nat) : Val := decFp fp32 c
def enc32 (v : Val) : Nat × Flg := encFp fp32 0 false 0 v

/-- Signed mantissa of a finite value at exponent `e0`, which is at most its own. -/
def Val.at_ (e0 : Int) : Val → Int
  | .fin s m e => let x : Int := (m * 2 ^ (e - e0).toNat : Nat); if s then -x else x
  | _ => 0

/-- The exact sum of finite values; an exact zero is -0 only if every term is -0 (R65). -/
def sumFin (vs : List Val) : Val :=
  let e0 : Int := vs.foldl (fun a v => match v with | .fin _ _ e => if e < a then e else a | _ => a) 0
  let t : Int := vs.foldl (fun a v => a + v.at_ e0) 0
  let allNegZero := vs.all fun v => match v with | .fin s m _ => s && m == 0 | _ => false
  if t = 0 then .fin allNegZero 0 0 else .fin (decide (t < 0)) t.natAbs e0

/-- The sum of values with the special rules of R65: value and NV. -/
def sumVals (vs : List Val) : Val × Flg :=
  let anyNan := vs.any (· == .nan)
  let p := vs.any (· == .inf false)
  let n := vs.any (· == .inf true)
  if anyNan ∨ (p ∧ n) then (.nan, fNV)
  else if p then (.inf false, 0)
  else if n then (.inf true, 0)
  else (sumFin vs, 0)

/-- The product; zero times infinity counts as NaN (R65). -/
def mulVal : Val → Val → Val
  | .nan, _ => .nan
  | _, .nan => .nan
  | .inf a, .inf b => .inf (a != b)
  | .inf a, .fin b m _ => if m = 0 then .nan else .inf (a != b)
  | .fin b m _, .inf a => if m = 0 then .nan else .inf (a != b)
  | .fin a m e, .fin b n f => .fin (a != b) (m * n) (e + f)

def negVal : Val → Val
  | .nan => .nan
  | .inf s => .inf !s
  | .fin s m e => .fin (!s) m e

/-- FP32 results from exact values: one rounding, flags, NV where the value is an invalid NaN. -/
def fin32 (v : Val × Flg) : Nat × Flg := let (c, f) := enc32 v.1; (c, f ||| v.2)

def fAdd (a b : Nat) : Nat × Flg := fin32 (sumVals [dec32 a, dec32 b])
def fSub (a b : Nat) : Nat × Flg := fin32 (sumVals [dec32 a, negVal (dec32 b)])
def fMul (a b : Nat) : Nat × Flg :=
  let p := mulVal (dec32 a) (dec32 b)
  fin32 (p, if p = .nan then fNV else 0)
def fFma (a b c : Nat) : Nat × Flg := fin32 (sumVals [mulVal (dec32 a) (dec32 b), dec32 c])

/-- Whether `a < b` of two values that are not NaN. -/
def ltVal : Val → Val → Bool
  | .nan, _ => false
  | _, .nan => false
  | .inf a, .inf b => a && !b
  | .inf a, .fin _ _ _ => a
  | .fin _ _ _, .inf b => !b
  | .fin s m e, .fin t n f =>
    let e0 := if e < f then e else f
    decide ((Val.fin s m e).at_ e0 < (Val.fin t n f).at_ e0)

def eqVal : Val → Val → Bool
  | .inf a, .inf b => a == b
  | .fin s m e, .fin t n f =>
    let e0 := if e < f then e else f
    decide ((Val.fin s m e).at_ e0 = (Val.fin t n f).at_ e0)
  | _, _ => false

/-- VMAXF, VMINF and the Mill's MAX and MIN (R191): the zeros order -0 below +0. -/
def fMaxMin (isMin : Bool) (a b : Nat) : Nat × Flg :=
  let x := dec32 a
  let y := dec32 b
  if x = .nan ∨ y = .nan then (0x7FC00000, fNV)
  else if eqVal x y then
    (if isMin then (if a.testBit 31 then a else b) else (if a.testBit 31 then b else a), 0)
  else if ltVal x y then (if isMin then a else b, 0)
  else (if isMin then b else a, 0)

/-- trunc(v / 2^q) toward zero of a finite value, and whether it is inexact (R67). -/
def truncAt (q : Int) : Val → Int × Bool
  | .fin s m e =>
    let (n, ix) := roundMag 1 s m e q 0
    (if s then -(n : Int) else n, ix)
  | _ => (0, false)

end Sys2Proof.Machine
end

