-- ==== Sys2Proof/Config.lean ====
section
/-! DEFINITION. What the spec leaves to an implementation or to a part: free values, without bodies, so
that nothing can be proved of them (a log entry names each). -/

namespace Sys2Proof

/-- A tested combination of an Almanac (R334, R362): whether it lists FB0's stepping (Config.fb0Step), dies as (kind, generation, stepping), Lanterns as
(supplier, part, firmware triple), and stacks. -/
structure Combo where
  fb0Listed : Bool := true
  dies : List (Nat × Nat × Nat) := [(0, 1, 0), (1, 1, 0)]
  lanterns : List (Nat × Nat × Nat) := [(0, 0, 0)]
  hbmStacks : List Nat := []
  /-- it names exactly the versions of the slot's images -/
  versionsOk : Bool := true
  deriving DecidableEq, Repr

/-- An Almanac (signed manifest) as its bytes verify and parse; its layout is not given (R362, R374). DESIGN CHOICE:
log entry 74. -/
structure Alm where
  seq : Nat := 0
  rollback : Nat := 0
  vendorOk : Bool := true
  /-- the key that its owner signature verifies under; empty for none -/
  owner : List Byte := []
  /-- every listed image is present and matches its digest -/
  imagesOk : Bool := true
  combos : List Combo := [{}]
  /-- a debug record with JTAG = 1 that names this module (R385) -/
  jtag : Bool := false
  /-- kind, instance, version triple of each image (R369) -/
  images : List (Nat × Nat × Nat) := []
  /-- the core monitor image of generation 1, its bytes and its entry -/
  monitor : List Byte := List.replicate 8 0
  entry : Nat := 0
  /-- board configuration: PWR_CEILING, BIFURCATE, AUTO_RESTART, LASER_LIMIT (R372) -/
  ceilingW : Nat := 3600
  bifurcate : BitVec 2 := 0
  winOwn : BitVec 2 := 3
  autoRestart : Bool := false
  laserLimit : Nat := 0
  deriving DecidableEq, Repr

namespace Config

/-- The victim way of a Granary set (R116: not specified further). DESIGN CHOICE: free, log entry 1. -/
opaque victim : Nat → Nat
/-- The set index of the shared translation cache and its victim (R212: not specified). DESIGN CHOICE: free, log
entry 2. -/
opaque sharedSet : Nat → Nat → Nat → Nat
opaque sharedVictim : Nat → Nat
/-- The part of a Meridian read below the latest 25 MHz edge, in 2.5 ns steps (R401). DESIGN CHOICE: free, log entry
3. -/
opaque meridianSub : Nat → Nat
/-- The calibration curve of the crystal's Dome sensor (R400), fused at assembly test. DESIGN CHOICE: free, log
entry 4. -/
opaque tempPpb : Int → Int
/-- The cluster or base-fabric frequency, in 25 MHz, a die chooses under a budget in W (R393). DESIGN CHOICE: free, log entry 5. -/
opaque budgetFreq : Nat → Nat
/-- SHAKE256 with 64 bytes of output (R373): named by the spec, not given by it. DESIGN CHOICE: free, log entry 6.
-/
opaque shake256 : List Byte → BitVec 512
/-- The identity public key, the three certificates of its chain, and the boot ROM version (R375, R376). DESIGN
CHOICE: free, log entry 7. -/
opaque identityKey : List Byte
opaque cert : Nat → List Byte
opaque bootRomVersion : List Byte
/-- An Ed448ctx signature by the identity key (R379): 114 bytes are taken. DESIGN CHOICE: free, log entry 8. -/
opaque sign : List Byte → List Byte
/-- The verdict of Ed448ctx verification (R373): key, context, message, signature. DESIGN CHOICE: free, log entry 9.
-/
opaque verify : List Byte → List Byte → List Byte → List Byte → Bool
/-- The Almanac a slot's bytes hold, as it verifies and parses (R362); its layout is not given. DESIGN CHOICE: free, log entry 10. -/
opaque parseAlmanac : List (Nat × Byte) → Option Alm
/-- The bytes of a slot's Almanac (part 0) and of its images by KIND (R376); layout not given. DESIGN CHOICE: free, log entry 11. -/
opaque slotPart : Nat → List (Nat × Byte) → List Byte
/-- The recovery image's bytes and its ROLLBACK value (R376, R382), written at manufacture. DESIGN CHOICE: free, log
entry 12. -/
opaque recoveryImage : List Byte
opaque recoveryRollback : Nat
/-- The bytes of the fuse state that SEC_MEAS 0 takes (R376): owner key present, n, JTAG_EN. DESIGN CHOICE: free, log entry 13. -/
opaque fuseState : Bool → Nat → Bool → List Byte
/-- FB0's stepping, which GLB_ID shows: per part (chapter 01). DESIGN CHOICE: free, log entry 19. -/
opaque fb0Step : Nat
/-- The bytes of the fuse part of the Tithe map (R361): layout not given. DESIGN CHOICE: free, log entry 13. -/
opaque fuseBytes : List TitheUnit → List Byte
/-- The bytes of the exposed-to-physical mapping of cores and banks, as the Tithe digest takes them (R361): layout
not given. DESIGN CHOICE: free, log entry 13. -/
opaque mapBytes : List (Nat × Nat) → List (Nat × Nat) → List Byte
/-- The number WAITEV returns for a monitor event (R104 "its cause"): the encoding is not given. The event is a
thread that faulted (1 to 15), or 16 for other wake-ups. DESIGN CHOICE: free, log entry 14. -/
opaque monitorEvent : Nat → BitVec 64
/-- The second operand of a remote CAS: RATOM names one operand, sC (R103, R131). DESIGN CHOICE: free, log entry 15.
-/
opaque ratomSecond : Nat → BitVec 64
/-- BAR2's size on a link as the host's system software resized it: 2^(30 + n) bytes, 1 GiB to 1 TiB (R228, R232).
DESIGN CHOICE: free, log entry 16. -/
opaque bar2Log : Nat → Fin 11

/-- A link's Max_Read_Request_Size, 2^(7 + n) bytes, and its Enable Relaxed Ordering bit: configuration space, which the
host's system software sets (R228, R253). DESIGN CHOICE: free, log entry 139. -/
opaque readLog : Nat → Fin 6
opaque enableRo : Nat → Bool
/-- What a read of a doorbell returns (R231, R239 give its writes). DESIGN CHOICE: free, log entry 140. -/
opaque doorbellRead : Nat → BitVec 64

/-- Spare rows a bank has, from the qualified-stack entry (R142): at least one. DESIGN CHOICE: free, log entry 17.
-/
opaque spareRows : Nat → Nat

/-- The scale factor of a resource whose BASE is 0 while it is charged (R179 divides by BASE); at most 1,024. DESIGN
CHOICE: free, log entry 18. -/
opaque zeroBase : Nat → Nat
/-- GLB_ID.VENDOR, the part's PCIe vendor identifier. DESIGN CHOICE: free, log entry 19. -/
opaque vendorId : Nat
/-- The number that BUNDLE_RETRAIN gives a trigger: 0 NAKs, 1 CRC failures, 2 a lane clock (R337, R414). DESIGN
CHOICE: free, log entry 20. -/
opaque retrainTrigger : Nat → Nat
/-- What SEC_MEAS 6 is extended with at a watchdog restart (0) or a JTAG attach (1), of an FB (R376). DESIGN CHOICE:
free, log entry 20. -/
opaque runEvent : Nat → Nat → List Byte
/-- Lines that a read request moves, by its parameter flit, whose layout is not given (R158, R168). DESIGN CHOICE: free, log
entry 149. -/
opaque paramLines : List Byte → Nat
/-- How a LINK_STATE event names why a training ended in DOWN: 0 the module's own identifier, 1 the partner's, 2 both alike
(R302, R414). Log entry 153. -/
opaque trainCause : Nat → BitVec 8

end Config
end Sys2Proof
end

