-- ==== Sys2Proof/Machine/Table.lean ====
section
/-! DEFINITION. Sparse tables and byte memories in one canonical form: keys strictly rising, and no entry
equal to what an unlisted key reads as.  Equal contents are then equal data. -/

namespace Sys2Proof.Machine

/-- The value of key `k`; an unlisted key reads as `d`. -/
def tget {α : Type} (d : α) : Tbl α → Nat → α
  | [], _ => d
  | (i, x) :: r, k => if k = i then x else tget d r k

/-- Remove key `k`. -/
def tdel {α : Type} : Tbl α → Nat → Tbl α
  | [], _ => []
  | (i, x) :: r, k => if k = i then tdel r k else (i, x) :: tdel r k

/-- List `x` under `k`. -/
def tput {α : Type} : Tbl α → Nat → α → Tbl α
  | [], k, x => [(k, x)]
  | (i, y) :: r, k, x =>
    if k < i then (k, x) :: (i, y) :: r else if k = i then (k, x) :: r else (i, y) :: tput r k x

/-- Write `x` at `k`: writing what an unlisted key reads as removes the entry. -/
def tset {α : Type} [DecidableEq α] (d : α) (t : Tbl α) (k : Nat) (x : α) : Tbl α :=
  if x = d then tdel t k else tput t k x

/-- Change the value at `k`. -/
def tmod {α : Type} [DecidableEq α] (d : α) (t : Tbl α) (k : Nat) (f : α → α) : Tbl α :=
  tset d t k (f (tget d t k))

/-- Every listed key is at least `k`, the keys rise strictly and no entry equals `d`. -/
def twfFrom {α : Type} [DecidableEq α] (d : α) : Nat → Tbl α → Bool
  | _, [] => true
  | k, (i, x) :: r => decide (k ≤ i) && decide (x ≠ d) && twfFrom d (i + 1) r

/-- The canonical form of a table. -/
def twf {α : Type} [DecidableEq α] (d : α) (t : Tbl α) : Bool := twfFrom d 0 t

/-- A byte memory: `Host.Cell` pairs; an unlisted byte reads 0 (R353: a cold start zeroes device memory
and scratch; for other memories DESIGN CHOICE, log entry 21). -/
abbrev Memory := List Host.Cell

/-- What an unlisted address reads as. -/
def Memory.blank : Byte := 0

/-- The canonical form of a memory. -/
abbrev Memory.wf (m : Memory) : Prop := twf Memory.blank m = true

def Memory.read (m : Memory) (a : Nat) : Byte := tget Memory.blank m a
def Memory.write (m : Memory) (a : Nat) (b : Byte) : Memory := tset Memory.blank m a b

/-- Bytes `a` to `a + n - 1`, lowest first. -/
def Memory.readN (m : Memory) (a : Nat) : Nat → List Byte
  | 0 => []
  | n + 1 => Memory.read m a :: Memory.readN m (a + 1) n

/-- Write `bs` from address `a` on. -/
def Memory.writeN (m : Memory) (a : Nat) : List Byte → Memory
  | [] => m
  | b :: bs => Memory.writeN (Memory.write m a b) (a + 1) bs

/-- Remove every byte of `[a, b)`, so that it reads as unlisted. -/
def Memory.clearRange (m : Memory) (a b : Nat) : Memory :=
  m.filter fun c => decide (c.1 < a) || decide (b ≤ c.1)

/-- The `n` bytes at `a` as a little-endian number (R2). -/
def Memory.readLe (m : Memory) (a n : Nat) : Nat := leNat (Memory.readN m a n)
def Memory.writeLe (m : Memory) (a n v : Nat) : Memory := Memory.writeN m a (leBytes n v)

/-- The keys of a table in order. -/
def tkeys {α : Type} (t : Tbl α) : List Nat := t.map (·.1)

/-- Replace the first element that satisfies `p`. -/
def replaceFirst {α : Type} (p : α → Bool) (f : α → α) : List α → List α
  | [] => []
  | x :: xs => if p x then f x :: xs else x :: replaceFirst p f xs

/-- Insert where the order says, after equals. -/
def insertBy {α : Type} (le : α → α → Bool) (x : α) : List α → List α
  | [] => [x]
  | y :: ys => if le y x then y :: insertBy le x ys else x :: y :: ys

/-- Remove the first element equal to `x`. -/
def removeOne {α : Type} [DecidableEq α] (x : α) : List α → List α
  | [] => []
  | y :: ys => if y = x then ys else y :: removeOne x ys

end Sys2Proof.Machine
end

