-- ==== Sys2Proof/Machine/State.lean ====
section
/-! DEFINITION. The state of the QSM-9610 as plain data: everything the spec gives the module, grouped by
chapter, the queue of commands that wait, and the counter that free values are drawn with.  Every field's
default is its value at reset (R6: after a cold start's reset; State.reset is the module before power). -/

namespace Sys2Proof.Machine

/-- The machine never stops: every failure the spec describes is a status, an event, a state of the block or a
fault of one of its threads, all in `State`. So there is no reason to stop with; a step that ends in a fault does
not exist. Safe. -/
inductive Fault where
  deriving DecidableEq, Repr

/-- No meaning for a command. -/
inductive Refusal where
  /-- An instruction not modelled: named by its mnemonic; raised by no arm, for every command has its meaning.
  Safe. -/
  | notModelled (mnemonic : String)
  deriving DecidableEq, Repr

/-! ### Power, clocks, temperature and the Meridian (chapter 17, 19)

Per-die tables are keyed `8 * fb + d`: d 0 the FB, 1-4 SC(4q + d - 1), 5-6 MS(2q + d - 5), 7 LNq. -/

/-- The input, the limiter and the cap (R388-R397). -/
structure Pwr where
  /-- the input is above its start threshold: the always-on domains run (R388, R25) -/
  input : Bool := false
  /-- every rail but the always-on supply removed by overvoltage or a thermal trip (R391, R406) -/
  railsOff : Bool := false
  /-- overvoltage shutdown latch (R391) -/
  ovLatch : Bool := false
  voltage : Nat := 0
  current : Nat := 0
  sampleW : Nat := 0
  /-- the latest 1 µs samples of the mean, newest first (R24, PWR_INPUT.MEAN_W) -/
  samples : List Nat := []
  capW : Nat := 3600
  ceilingW : Nat := 3600
  uvMin : Nat := 0
  uvWarn : Bool := false
  ovWarn : Bool := false
  ovMax : Nat := 0
  limitTrips : Nat := 0
  /-- level the limiter requests (R397) -/
  limReq : Nat := 0
  /-- microseconds of the 500 µs hold still to run, and of the current 100 µs window -/
  limHold : Nat := 0
  limWin : Nat := 0
  limQuiet : Bool := true
  budget : Tbl Nat := []
  /-- mean draw of each die over the latest 100 µs -/
  draw : Tbl Nat := []
  rail : Tbl Nat := []
  deriving DecidableEq, Repr

/-- Clocks (R22, R395, R398, R399, R331, R339). -/
structure Clk where
  fmax : Tbl Nat := []
  pll : Tbl Bool := []
  /-- the clock a unit runs at, in 25 MHz: key 8*fb + 0 the base fabric, 8*fb + 1..4 the SCs -/
  freq : Tbl Nat := []
  /-- base fabric stopped, Reeve stopped (R399), by FB -/
  baseStop : Tbl Bool := []
  reeveStop : Tbl Bool := []
  /-- SC state: 0 RUN 1 STOPPED 2 OFF, by SC -/
  scState : Tbl Nat := []
  /-- running clusters of an SC, 17 bits -/
  running : Tbl Nat := []
  deriving DecidableEq, Repr

/-- Temperature (R403-R407). Temperatures are in °C, readings below 0 read 0. -/
structure Thm where
  autoRestart : Bool := false
  /-- AUTO_RESTART as held in the always-on domain from the latest start (R407) -/
  autoHeld : Bool := false
  tripValid : Bool := false
  tripFb : Nat := 0
  tripDie : Nat := 0
  tripTemp : Nat := 0
  tripTime : Word := 0
  /-- the THERMTRIP# latch (R406, R422) -/
  thermtrip : Bool := false
  peak : Tbl Nat := []
  temp : Tbl Nat := []
  step : Tbl Nat := []
  warn : Tbl Bool := []
  throttle : Tbl Bool := []
  deriving DecidableEq, Repr

/-- The Meridian copies (R318, R400-R402), by FB; FB0's is the master. -/
structure Mer where
  acc : Tbl (BitVec 96) := []
  /-- a copy that is ahead adds nothing until FB0's value reaches it (R401) -/
  hold : Tbl Bool := []
  /-- the latest value read in each FB: reads never decrease (R401) -/
  last : Tbl Word := []
  slew : Int := 0
  tempPpb : Int := 0
  /-- a forward step to add at the next edge, in ns (R318, R400) -/
  stepNs : Nat := 0
  steps : Nat := 0
  resyncs : Tbl Nat := []
  deriving DecidableEq, Repr

/-! ### Events (chapter 18) -/

/-- An event record (R409) in the queue. -/
structure Ev where
  sev : Nat
  loss : Bool
  count : Nat
  code : Nat
  source : Nat
  ctx : Nat
  mer : Word
  d0 : Word
  d1 : Word
  deriving DecidableEq, Repr

/-- Ring registers shared by the event ring and the fault ring (R223, R416). -/
structure RingRegs where
  base : Nat := 0
  irqSev : Nat := 0
  vector : Nat := 0
  link : Nat := 0
  log2 : Nat := 0
  enable : Bool := false
  head : W32 := 0
  tail : W32 := 0
  /-- a refusal episode runs (R436) -/
  refused : Bool := false
  deriving DecidableEq, Repr

/-- The event log (R409-R418, R433). -/
structure Evt where
  queue : List Ev := []
  /-- records released and waiting for the ring, oldest first -/
  out : List Ev := []
  sb : List Ev := []
  /-- ERROR and FATAL records held at their source (R413) -/
  held : List Ev := []
  dropped : Nat := 0
  sbDropped : Nat := 0
  /-- the next record released carries LOSS = 1 -/
  loss : Bool := false
  /-- counts since the latest EVT_LOSS record (R433) -/
  qCount : Nat := 0
  sbCount : Nat := 0
  /-- the record that the latest PollForPlatformEventMessage collected (R417) -/
  polled : Option Ev := none
  stamps : Tbl Word := []
  ring : RingRegs := { irqSev := 1 }
  minSev : Nat := 1
  /-- events raised, key 4*fb + severity (EVT_LOCAL) -/
  local_ : Tbl Nat := []
  deriving DecidableEq, Repr
/-! ### Granary and device memory (chapters 05, 06) -/

/-- A resident cache line (R116, R120), keyed by DPA / 256. -/
structure CLine where
  way : Nat := 0
  dirty : Bool := false
  /-- inserted as the next victim of its set (R116 streaming) -/
  nextVictim : Bool := false
  deriving DecidableEq, Repr

/-- An exposed bank, key 64*fb + b (R114, R119, R126-R130). -/
structure Bank where
  /-- none: exposed bank b is physical bank b (R114); 127 for an ABSENT bank (R359) -/
  phys : Option Nat := none
  degraded : Bool := false
  disabled : BitVec 16 := 0
  ce : Tbl Nat := []
  /-- the partition this bank has switched to -/
  w : Nat := 0
  /-- physical way of each logical scratch way -/
  scr : Tbl Nat := []
  unbacked : List Nat := []
  deriving DecidableEq, Repr

/-- An FB's Granary (R117, R119, R124, R125): state 0 OFF 1 ON 2 FLUSHING 3 REPARTITION. -/
structure Grn where
  scrub : Bool := false
  enable : Bool := false
  state : Nat := 0
  from_ : Nat := 0
  w : Nat := 0
  /-- GRN_PART as it reads: the latest accepted value -/
  part : Nat := 0
  /-- the partition being switched to, and a value of GRN_PART latched during a sweep or switch (R125) -/
  target : Nat := 0
  penPart : Option Nat := none
  switched : List Nat := []
  deriving DecidableEq, Repr

/-- A Region Attribute Table entry (R121). -/
structure Rat where
  base : Nat := 0
  limit : Nat := 0
  valid : Bool := false
  peerWr : Bool := false
  vis : Nat := 0
  rclass : Nat := 0
  policy : Nat := 0
  deriving DecidableEq, Repr

/-- An access from outside that is held at its home (R122, R142, R149): a request of another module that came
over a link, or a BAR2 access; and what waits behind a BAR2 write or a command window of its link (R239, R240).
Writes keep the class that their address had when they arrived (R121), and a BAR2 write whether it carries Relaxed
Ordering and ID-Based Ordering, and its Requester ID (R280). -/
inductive Parked where
  | fabric (l vis : Nat) (p : FPkt)
  | bar2w (link vis : Nat) (ro ido : Bool) (rid : BitVec 16) (dpa : Nat) (data : List Byte)
  | bar2r (link dpa len : Nat)
  | bell (link ring : Nat) (v : Word)
  | window (ring off : Nat) (data : List Byte)
  deriving DecidableEq, Repr

/-- Where a translated access goes: a DPA, or a host bus address through a link. -/
inductive Tgt where
  | dev (dpa : Nat)
  | host (link addr : Nat)
  deriving DecidableEq, Repr

/-- Who waits on a translation. -/
inductive Agent where
  | thread (n t : Nat)
  | aop (n id : Nat)
  /-- chunk `k` of a Carter's descriptor, and its flag writes -/
  | chunk (fb car slot k : Nat)
  | carFlag (fb car slot : Nat)
  | cmd (ring : Nat) (seq : W32)
  | mill (group : Nat)
  /-- the monitor of a core that reads the image of a launch (R248) -/
  | image (n : Nat)
  deriving DecidableEq, Repr

/-- The access an agent waits with: kind 0 read, 1 write, 2 atomic, 3 fetch (R222). -/
structure Waiter where
  agent : Agent
  acc : Nat
  dva : Nat
  deriving DecidableEq, Repr

/-- An access of an agent that its home or its link holds, with the translation under which it was issued (R217,
R218): kind, first DVA, bytes, and where they go. DEDUCED: log entry 167. -/
structure XHeld where
  agent : Agent
  acc : Nat
  dva : Nat
  len : Nat
  ts : List (Tgt × Nat)
  deriving DecidableEq, Repr

/-- The staging registers and the update in progress (R122). -/
structure RatCmd where
  stageBase : Word := 0
  stageAttr : Word := 0
  index : Nat := 0
  busy : Bool := false
  result : Nat := 0
  /-- MiB granules [lo, hi] of the two ranges whose accesses are held while the sweep runs -/
  hold : List (Nat × Nat) := []
  /-- accesses that the old entry was looked up for and that are not complete: held at their homes for another module,
  for BAR2, or for an agent of this module -/
  old : List Parked := []
  oldHome : List XHeld := []
  /-- request packets of the old entry in flight: FB, port, tag -/
  oldInj : List (Nat × Nat × Nat) := []
  deriving DecidableEq, Repr

/-- A memory stack, key 0-7 (R134, R145, R147, R151): state 0 OFF 1 TRAINING 2 READY 3 SELF_REFRESH
4 UNQUALIFIED. -/
structure Stack where
  state : Nat := 0
  temp : Nat := 0
  refresh2x : Bool := false
  throttled : Bool := false
  firstRead : Bool := false
  intervals : Nat := 0
  deriving DecidableEq, Repr

/-- A channel, key 64*fb + c (R149, R150): state 0 ACTIVE 1 STEPPED 2 RETRAINING 3 RETIRED 4 UNTRAINED. -/
structure Chan where
  state : Nat := 0
  laneErr : Nat := 0
  lanes : Nat := 0
  ce : Nat := 0
  ue : Nat := 0
  /-- the state before a retrain -/
  was : Nat := 0
  /-- DELIVERABLE as it reads: the rate at the latest update of its stack's scale factor (R155) -/
  deliv : Nat := 0
  deriving DecidableEq, Repr

/-- HBM registers of an FB. -/
structure Hbm where
  scrub : Bool := false
  srIdle : Nat := 20
  rowsRepaired : Nat := 0
  rowsUnrepaired : Nat := 0
  ueValid : Bool := false
  ueOverflow : Bool := false
  ueAddr : Nat := 0
  deriving DecidableEq, Repr

/-- The answer of the last bank or controller access command: what its requester is given. -/
inductive Resp where
  | none
  | data (bs : List Byte)
  | ok
  | fail (status : Nat) (dpa : Nat)
  deriving DecidableEq, Repr

structure Mem where
  grn : Tbl Grn := []
  banks : Tbl Bank := []
  lines : Tbl CLine := []
  /-- LOST lines, by DPA / 256 (R127, R128) -/
  lost : Tbl Bool := []
  rat : Tbl Rat := []
  ratDefault : Rat := { vis := 1, policy := 4 }
  ratCmd : RatCmd := {}
  hbm : Tbl Hbm := []
  hbmStacks : Tbl Stack := []
  chans : Tbl Chan := []
  /-- LOST bursts, by DPA / 64 (R142) -/
  lostBursts : Tbl Bool := []
  /-- bursts that were read uncorrectable and have not been rewritten whole since (R141) -/
  badBursts : Tbl Bool := []
  /-- dirty lines on their way to a channel or row that is held (R149): line and bytes, oldest first -/
  writeBacks : List (Nat × List Byte) := []
  /-- correctable errors of a row in the window (R139); repaired rows (R142), keyed by row -/
  rowCe : Tbl Nat := []
  rowDone : Tbl Bool := []
  /-- rows that failed repair for want of a spare (R142) -/
  rowFailed : Tbl Bool := []
  repairing : List Nat := []
  /-- the Meridian window the counts belong to (R126) -/
  window : Nat := 0
  /-- the zeroing of device memory after a host loss runs (R152) -/
  zeroing : Bool := false
  resp : Resp := .none
  /-- accesses from outside held at their homes -/
  parked : List Parked := []
  deriving DecidableEq, Repr
/-! ### Mesh and regulation (chapter 07)

A port is keyed `16 * (64 * fb + a) + p`; what lies beyond the outputs to a bank and to an agent, the bank's and the
agent's own lanes, stands under the reserved port numbers 10 and 11 (DESIGN CHOICE, log entry 150).  Lanes of a port are numbered `6 * VN + k`, k 0 CONTROL,
1 GUARANTEED, 2 BEST_EFFORT, 3-5 DETOUR_C, _G, _B (R161); lane `12 + g` of CREDIT_RETURN is a Mill down
credit of group g (R197).  An input lane is keyed `12 * port + lane`. -/

/-- A packet holding a grant, or suspended (R165, R167): its input lane's key, the chunks sent, whether the
next flit is the second of a chunk, the restarts of a bank burst (R168), and the latest flit sent. -/
structure Grant where
  lane : Nat
  /-- no flit of the packet has been sent -/
  first : Bool := true
  sent : Nat := 0
  half : Bool := false
  cont : Bool := false
  restarts : Nat := 0
  last : Option Flit := none
  deriving DecidableEq, Repr

/-- An output port's arbiter (R165-R170); under a bank's reserved port number 10, the bank's own. -/
structure Port where
  freeze : Bool := false
  drained : Bool := false
  restarts : Nat := 0
  cancels : Nat := 0
  grant : Option Grant := none
  /-- the decision made during the last cycle: input lane key (R166) -/
  dec : Option Nat := none
  /-- CANCEL flits that end packets suspended when FREEZE was set (R170), or a bank's read responses (R168) -/
  ends : List Flit := []
  suspG : Option Grant := none
  suspB : Option Grant := none
  /-- the input lane that last began a packet, by priority -/
  rr : Tbl Nat := []
  /-- credits used of each downstream lane -/
  used : Tbl Nat := []
  /-- the flit the port carried in its latest cycle -/
  out : Option Flit := none
  /-- the flit takes a second cycle to cross a hop with one bundle (R163) -/
  busy : Bool := false
  /-- FREEZE was set by a retrain of the hop (R337) -/
  hopFreeze : Bool := false
  deriving DecidableEq, Repr

/-- A request packet a metered port took (R172): waiting, or entered at a priority. -/
structure Inj where
  fb : Nat
  port : Nat
  tag : Nat
  dpa : Nat
  bytes : Nat
  cls : Nat
  charge : Nat
  prio : Nat
  sends : Nat
  deriving DecidableEq, Repr

structure Msh where
  ports : Tbl Port := []
  lanes : Tbl (List Flit) := []
  /-- cancelled packets whose remaining flits an input lane drops (R169) -/
  dropping : Tbl Bool := []
  /-- by lane: the latest flit of a packet that has not arrived whole -/
  open_ : Tbl (Option Flit) := []
  /-- retry responses a destination sent (R169) -/
  retries : List Flit := []
  /-- MSH_EDGE_REMAP.PAIR of edge e -/
  pair : Tbl W32 := []
  /-- packets in flight at metered ports -/
  inj : List Inj := []
  deriving DecidableEq, Repr

/-- A token bucket (R173), keyed `8 * (293 * fb + port) + class`. -/
structure Bucket where
  mode : Nat := 0
  rate : Nat := 0
  burst : Nat := 0
  level : Int := 0
  deriving DecidableEq, Repr

structure Rgl where
  buckets : Tbl Bucket := []
  wait : List Inj := []
  /-- charges of a class, by class -/
  charges : Tbl (List (Nat × Nat)) := []
  base : Tbl Nat := []
  /-- factor of each resource, 1,024ths -/
  factor : Tbl Nat := []
  /-- D_r in force at the latest update, 0.1 GB/s -/
  deliver : Tbl Nat := []
  /-- RGL_BKT_SEL by FB: port and class -/
  sel : Tbl (Nat × Nat) := []
  deriving DecidableEq, Repr

/-! ### Mill (chapter 08)

Inputs of a combining router: 4*v + c for member slot c of port Vv, 16-19 for child ports N, E, S, W. -/

/-- A Mill flit or chunk on its way. -/
inductive MKind where
  | partial_ (router inp : Nat)
  | result (node : MillNode)
  | bell (router inp : Nat)
  | release (node : MillNode)
  | notice (member : Nat)
  deriving DecidableEq, Repr

/-- DEDUCED: log entry 39. -/
structure MFlight where
  kind : MKind
  m : MillChunk
  deriving DecidableEq, Repr

/-- A member thread that waits on a sequence: for its result's count on `ctr`, or for a Bell's release (R188,
R194, R198). `op` is the operation that issued it. -/
structure MWait where
  member : Nat
  thread : Nat
  op : Nat
  pc : Nat
  seq : W32
  ctr : Nat
  bell : Bool
  deriving DecidableEq, Repr

/-- A chunk a module's ROOT sends another module (R322): kind 0 partial, 1 result, 2 ready notice. It is kept
until it is acknowledged. -/
structure FOut where
  dst : Nat
  kind : Nat
  m : MillChunk
  sent : Bool := false
  /-- µs of the next backoff: 0 before the first resend -/
  backoff : Nat := 0
  deriving DecidableEq, Repr

/-- A fabric-wide group's tree of modules (FAB_COLL as read at creation, R320). -/
structure FTree where
  parent : Option Nat
  children : List Nat
  timeout : Nat
  deliver : Bool
  deriving DecidableEq, Repr

/-- A reduction group (R182, R183): state 0 FREE 1 ACTIVE 2 CLOSING 3 FAULTED. -/
structure Group where
  state : Nat := 0
  status : Nat := 0
  ctx : Nat := 0
  desc : Option GroupDesc := none
  tree : Option FTree := none
  /-- NEXT_SEQ and NEXT_BELL -/
  nextSeq : W32 := 0
  nextBell : W32 := 0
  /-- next data and Bell sequence of each member (R188, R198) -/
  mseq : Tbl W32 := []
  bseq : Tbl W32 := []
  waits : List MWait := []
  /-- staged up chunks and Bells, in order: router, input, chunk -/
  up : List (Nat × Nat × MillChunk) := []
  bells : List (Nat × Nat × W32) := []
  /-- staged down chunks: router, chunk -/
  down : List (Nat × MillChunk) := []
  /-- chunks of a sequence a member has, and their flags: member, sequence, chunks, flags -/
  got : List (Nat × W32 × Nat × BitVec 6) := []
  /-- members that have a sequence's result, and members released from a Bell sequence -/
  done : List (Nat × W32) := []
  released : List (Nat × W32) := []
  /-- deposit: sequence, chunks written, flags gathered (R195) -/
  dep : List (W32 × Nat × BitVec 6) := []
  /-- a deposit that waits on a translation (R220) -/
  depWait : Option MillChunk := none
  /-- links that a sequence's deposit wrote, and its zero-length reads that are out (R195, R276) -/
  depLinks : List (W32 × Nat) := []
  depZlr : List (W32 × Nat) := []
  /-- fabric stage at ROOT: own combined chunks; children's chunks by child; children's Bells; what has been
  staged already; what waits for acknowledgement -/
  own : List MillChunk := []
  /-- the next sequence and chunk that the fabric stage combines -/
  fseq : W32 := 0
  fchunk : Nat := 0
  fin : List (Nat × MillChunk) := []
  fbells : List (Nat × W32) := []
  seen : List (Nat × Nat × W32 × Nat) := []
  fout : List FOut := []
  deriving DecidableEq, Repr

structure Mil where
  groups : Tbl Group := []
  flight : List MFlight := []
  /-- correctable staging errors, by FB -/
  stageCe : Tbl Nat := []
  deriving DecidableEq, Repr
/-! ### Contexts and translation (chapter 09)

Requester ports of an FB are numbered as the metered ports of chapter 07 (0-255 vertical, 256-267 Carters),
300 for the command processor and 320 + a for the Mill root at local router a. -/

/-- A context (R202): state 0 FREE 1 ACTIVE 2 SUSPENDED 3 STOPPED. -/
structure Ctx where
  state : Nat := 0
  link : Nat := 0
  raw : Bool := false
  reach : List Nat := []
  /-- the status with which its work ended -/
  reason : Nat := 0
  /-- CTX_DESTROY has begun (R203): its new faults are answered ABORT at once -/
  closing : Bool := false
  deriving DecidableEq, Repr

/-- A key of the translation caches (R212). -/
structure XKey where
  ctx : Nat
  seg : Nat
  page : Nat
  deriving DecidableEq, Repr

/-- A cached translation: the page-array entry, valid and well formed. -/
structure XEnt where
  key : XKey
  entry : Nat
  deriving DecidableEq, Repr

/-- A miss and its walk (R212), in arrival order: stage 1 runs on one of the FB's 16 walkers, for every access that asked
for its key; stage 0 waits in the FB's queue of 64, stage 2 is held at its port, each for one access. -/
structure Walk where
  fb : Nat
  key : XKey
  stage : Nat
  waiters : List Waiter
  deriving DecidableEq, Repr

/-- An unanswered fault (R221, R222). -/
structure XFault where
  id : W32
  cause : Nat
  acc : Nat
  ctx : Nat
  seg : Nat
  page : Nat
  source : Nat
  requester : Nat
  ringSeq : W32
  dva : Nat
  hostAddr : Word
  mer : Word
  entry : Word
  joined : List Waiter
  deriving DecidableEq, Repr

/-- Who asked for an invalidation. -/
inductive InvFor where
  | cmd (ring : Nat) (seq : W32)
  | host
  deriving DecidableEq, Repr

/-- An invalidation (R217): scope 0 pages, 1 segment, 2 context; what it still waits for. -/
structure Inval where
  who : InvFor
  ctx : Nat
  scope : Nat
  seg : Nat
  first : Nat
  count : Nat
  fbs : List Nat
  ports : List (Nat × Nat)
  links : List Nat
  /-- the context is being destroyed (R203) -/
  destroy : Bool
  /-- accesses translated before their port switched its epoch: FB, port, and a read's
  link and address, 100 + slot and the chunk of a Carter's write, or 200 + kind and DVA of one held at its home -/
  old : List (Nat × Nat × Nat × Nat)
  deriving DecidableEq, Repr

structure Xlt where
  ctxs : Tbl Ctx := []
  segs : Tbl (Option SegDesc) := []
  c0seg : Tbl Word := []
  /-- first-level caches, key 512*fb + port: most recently used first -/
  l1 : Tbl (List XEnt) := []
  /-- shared caches, key 4096*fb + 16*set + way -/
  l2 : Tbl (Option XEnt) := []
  walks : List Walk := []
  /-- walks started since the last start (WALKS) -/
  walkCount : Nat := 0
  faults : List XFault := []
  /-- FAULT_IDs in FB0's queue, oldest first -/
  fq : List W32 := []
  /-- FAULT_IDs whose records are rewritten before those of the queue (R226, R257) -/
  rewrite : List W32 := []
  /-- faulting engines that offer their record while the queue is full (R224) -/
  offered : List XFault := []
  nextId : W32 := 0
  ring : RingRegs := {}
  segSel : Tbl (Nat × Nat) := []
  inval : Option Inval := none
  invalQ : List Inval := []
  /-- links that carried HOST-kind writes of the current epoch (R217 step 5) -/
  hostW : List Nat := []
  /-- accesses held at their homes or links under the translation they were issued with -/
  atHome : List XHeld := []
  /-- contexts being destroyed whose kernels have not all stopped (R203), and who asked -/
  dying : List (Nat × InvFor) := []
  deriving DecidableEq, Repr
/-! ### Host attachment, rings and commands (chapter 10) -/

/-- An MSI-X table entry; its layout and reset are PCIe's (PRESUMED, log entry 22). -/
structure Msix where
  addr : Nat := 0
  data : Nat := 0
  masked : Bool := true
  deriving DecidableEq, Repr

/-- What waits for a zero-length read on a link (R276). -/
inductive ZWho where
  | chunk (fb car slot k : Nat)
  | flag (fb car slot : Nat)
  | cmd (ring : Nat) (seq : W32)
  | thread (n t : Nat)
  | aop (n id : Nat)
  | inval
  /-- the deposit of a group's sequence (R195) -/
  | mill (group : Nat) (seq : W32)
  deriving DecidableEq, Repr

/-- An outbound read request of a link (R228, R230): its tag while it is out, none while it waits for one of the link's
768 or has been answered; `seq` its place among the requests of its agent's access, `at_` among all accesses (R285),
`got` its data. -/
structure ORead where
  tag : Option Nat
  who : Agent
  ctx : Nat
  /-- host bus address, and the DVA it was translated from -/
  addr : Nat
  dva : Nat
  len : Nat
  seq : Nat
  at_ : Nat
  got : Option (List Byte) := none
  deriving DecidableEq, Repr

/-- A PCIe link, key 0-3 (R229): how far a host loss has gone (0 none, 1 bus mastering cut, 2 threads held,
3 contexts suspended), and whether it was a reset (PERST#, hot reset, FLR) or a timeout (R256). -/
structure Link where
  up : Bool := false
  retraining : Bool := false
  speed : Nat := 0
  width : Nat := 0
  retrains : Nat := 0
  busMaster : Bool := false
  perst : Bool := false
  loss : Nat := 0
  lossReset : Bool := false
  bar2 : Nat := 0
  rid : BitVec 16 := 0
  ridMask : BitVec 16 := 0
  winBase : Tbl Word := []
  winLimit : Tbl Word := []
  /-- window writes not yet in effect: index, limit register, value (R234) -/
  winPending : List (Nat × Bool × Word) := []
  msix : Tbl Msix := []
  pend : List Nat := []
  /-- interrupts raised, by vector -/
  irq : Tbl Nat := []
  reads : List ORead := []
  zlr : List ZWho := []
  /-- answer of the latest BAR read of this link -/
  answer : Resp := .none
  deriving DecidableEq, Repr

structure Region where
  r : Bool
  w : Bool
  rid : BitVec 16
  mask : BitVec 16
  base : Nat
  size : Nat
  deriving DecidableEq, Repr

/-- A command ring (R237-R245). -/
structure Ring where
  base : Nat := 0
  link : Nat := 0
  cq : Nat := 0
  log2 : Nat := 0
  ctx : Nat := 0
  priv : Bool := false
  loc : Bool := false
  enable : Bool := false
  head : W32 := 0
  tail : W32 := 0
  nextSeq : W32 := 0
  halted : Bool := false
  /-- the command window holds a packet not yet taken, and where in the ring it stands (R240) -/
  window : Bool := false
  winAt : W32 := 0
  /-- links that carried host writes of its commands, not yet followed by a zero-length read (R276, R284) -/
  hostLinks : List Nat := []
  deriving DecidableEq, Repr

/-- A completion ring (R252-R254). -/
structure CqRing where
  base : Nat := 0
  link : Nat := 0
  vector : Nat := 0
  log2 : Nat := 0
  loc : Bool := false
  enable : Bool := false
  head : W32 := 0
  tail : W32 := 0
  phase : Bool := false
  refused : Bool := false
  deriving DecidableEq, Repr

/-- A completion record (R252) held until it can be written. -/
structure Rec where
  ring : Nat
  op : Nat
  seq : W32
  status : Nat
  d16 : Nat
  d32 : Nat
  d64 : Nat
  tag : Word
  irq : Bool
  deriving DecidableEq, Repr

/-- A command in flight (R241). -/
structure Cmd where
  ring : Nat
  op : Nat
  seq : W32
  ctx : Nat := 0
  vis : Nat := 0
  compl : Nat := 0
  tag : Word := 0
  timeout : W32 := 0
  running : Bool := true
  /-- a status decided while effects still drain (KERNEL_STOP, faults) -/
  stop : Nat := 0
  /-- WAIT: comparison, address, value; SIGNAL and others waiting on a translation: the command itself -/
  cmp : Nat := 0
  addr : Nat := 0
  value : Word := 0
  /-- links whose zero-length read it waits for -/
  links : List Nat := []
  /-- its parameter bytes -/
  par : List Byte := []
  deriving DecidableEq, Repr

/-- What a command that reads or writes memory itself still has to do (R220, R247-R251). -/
inductive CmdJob where
  | writeInline (dst : Nat) (data : List Byte)
  | signal (op addr : Nat) (value : Word)
  | wait (cmp addr : Nat) (value : Word)
  | query (page dst : Nat)
  | attest (part dst dstLen : Nat) (nonce : List Byte)
  | fwWrite (off len src : Nat)
  | enroll (len src : Nat)
  | release (base size : Nat)
  | bell (group : Nat) (seq : W32)
  /-- PWR_SET waits for a round of budgets: the FBs not yet sent one (R396) -/
  | budget (fbs : List Nat)
  /-- FENCE: remote requests of earlier launches of its ring are still out (R284) -/
  | fence
  deriving DecidableEq, Repr

/-- A fault of a launch's thread (R248). -/
structure LFault where
  core : Nat
  thread : Nat
  cause : Nat
  status : Nat
  pc : Nat
  addr : Nat
  monitor : Bool
  deriving DecidableEq, Repr

/-- A running LAUNCH (R248). -/
structure Launch where
  ring : Nat
  seq : W32
  ctx : Nat
  threads : BitVec 16
  imageLen : Nat
  image : Nat
  entry : Nat
  arg : Word
  waiting : List Nat
  taken : List Nat
  faults : List LFault
  stopped : Bool
  deriving DecidableEq, Repr

structure Host_ where
  links : Tbl Link := []
  winOwn : Tbl Bool := []
  ro : Tbl Bool := []
  bifurcate : Tbl Bool := []
  lost : Bool := false
  armed : Bool := false
  regions : Tbl (Option Region) := []
  rings : Tbl Ring := []
  cqs : Tbl CqRing := []
  inflight : List Cmd := []
  /-- held records of a completion ring, oldest first -/
  held : Tbl (List Rec) := []
  launches : List Launch := []
  /-- commands that wait on a translation with their parameters (R220) -/
  parked : List (Nat × W32 × CmdJob) := []
  /-- the command windows: byte offset 65536 * ring + o -/
  windows : Memory := []
  /-- by link: the latest write that left it carried Relaxed Ordering (R253) -/
  lastRo : Tbl Bool := []
  /-- the final step of a host loss runs: contexts and memory are still being cleared (R256) -/
  lossEnds : Bool := false
  /-- the model's own: accesses issued so far, by which the order of their issue is known (R275, R285) -/
  issued : Nat := 0
  deriving DecidableEq, Repr

/-! ### Carters (chapter 11) -/

/-- A Carter command's parameters (R263-R265): `dims` the dimensions above the first, `side` as R264;
`fill` its pattern for FILL. -/
structure CarJob where
  ring : Nat
  seq : W32
  op : Nat
  ctx : Nat
  vis : Nat
  fl : FlagOpt
  t : Nat
  src : Nat
  dst : Nat
  side : Nat
  count0 : Nat
  dims : List Dim
  fill : List Byte
  deriving DecidableEq, Repr

/-- A chunk whose reads have issued and whose write has not (R267): where its bytes come from and where they go, the place
of its reads in the order of issue, and its data once all of them have been read. -/
structure CarRead where
  k : Nat
  src : List (Tgt × Nat)
  dst : List (Tgt × Nat)
  at_ : Nat
  data : Option (List Byte)
  deriving DecidableEq, Repr

/-- A chunk whose write has issued: its data and where they go; `done` once its homes have performed it, so that only its
acknowledgement is out. -/
structure CarPend where
  k : Nat
  data : List Byte
  dst : List (Tgt × Nat)
  at_ : Nat
  done : Bool
  deriving DecidableEq, Repr

/-- Why a Carter command stops (R271-R273): at which chunk, with what status and address, on the destination or
flag side, at a flag write. -/
structure CarFail where
  k : Nat
  status : Nat
  addr : Nat
  dst : Bool
  flag : Bool
  deriving DecidableEq, Repr

/-- A descriptor slot: state 0 FREE 1 RUNNING 2 FAULT_WAIT 3 DRAINING, key 48*fb + 4*carter + slot. -/
structure CarSlot where
  state : Nat := 0
  job : Option CarJob := none
  /-- chunks translated, and the runs of the next one that are: their pieces with their DVAs -/
  asked : Nat := 0
  src : List (List (Nat × Tgt × Nat)) := []
  dst : List (List (Nat × Tgt × Nat)) := []
  /-- the translated chunks whose write has not issued -/
  reads : List CarRead := []
  /-- chunks whose write has issued, and those of them not yet acknowledged -/
  next : Nat := 0
  pend : List CarPend := []
  /-- chunks at their visibility point: the prefix, and those beyond it (R268) -/
  vis : Nat := 0
  beyond : List Nat := []
  /-- flag groups whose bit has been written (R269) -/
  groups : Nat := 0
  /-- links that carried flag writes not yet followed by a zero-length read -/
  flagLinks : List Nat := []
  /-- no further flag word is written: a flag write has failed, or one that waited was given up at the TIMEOUT -/
  noFlags : Bool := false
  fail : Option CarFail := none
  deriving DecidableEq, Repr

structure Car where
  slots : Tbl CarSlot := []
  /-- commands waiting for a slot, in start order: FB, pool (0 H2D 1 D2H 2 D2D), job -/
  queue : List (Nat × Nat × CarJob) := []
  disable : Tbl (BitVec 12) := []
  /-- destination bytes written, key 12*fb + n -/
  written : Tbl Nat := []
  /-- the slot whose turn it was last, for reads and for writes (R260), key 12*fb + n -/
  turn : Tbl Nat := []
  wturn : Tbl Nat := []
  deriving DecidableEq, Repr
/-! ### Cores and threads (chapters 03, 04) -/

/-- An accumulator element (R55): in FP32 mode the value is the low 32 bits of G. -/
structure Elem where
  g : BitVec 160 := 0
  nan : Bool := false
  pinf : Bool := false
  ninf : Bool := false
  /-- an uncorrectable error of its array (chapter 03, failures) -/
  bad : Bool := false
  deriving DecidableEq, Repr

/-- An accumulator tile (R55); element (i, n) has key 64*i + n. -/
structure Tile where
  exact_ : Bool := false
  anchor : Int := 0
  owner : Option Nat := none
  elems : Tbl Elem := []
  /-- a TREL, or a TRD with REL, that waits for the operations numbered below this (R56) -/
  releasing : Option Nat := none
  deriving DecidableEq, Repr

/-- Thread states (R85). -/
inductive TState where
  | off
  | ready
  | stalled
  | waiting
  | xltWait
  | faulted
  | held
  deriving DecidableEq, Repr

/-- What a WAITING thread waits for (R85, R104). -/
inductive TWaitFor where
  | nothing
  | twait (c : Nat) (v : W32)
  | bar (mask : BitVec 16)
  | fence (vis : Nat)
  | waitg
  | xrecv (link : Nat)
  | access
  | event (d : Nat)
  | ecall (code : Nat)
  | exiting
  deriving DecidableEq, Repr

/-- The synchronous access a thread waits with (R85, R104, R108): its own fields of the word. -/
inductive Blk where
  | ldg (pr d a size : Nat)
  | stg (pr a b size vis : Nat)
  | atom (pr d a b c op vis : Nat)
  | waitg (pr a b cmp : Nat)
  | xrecv (pr a b c : Nat)
  deriving DecidableEq, Repr

/-- A hardware thread (R80-R85). -/
structure Thread where
  st : TState := .off
  wait : TWaitFor := .nothing
  /-- the state THCTL resume returns to -/
  prev : TState := .off
  prevWait : TWaitFor := .nothing
  pc : BitVec 16 := 0
  s : Tbl Word := []
  v : Tbl VReg := []
  p : Tbl Word := []
  flg : BitVec 6 := 0
  cnt : Tbl W32 := []
  /-- the instruction held on a translation, a wait or a full queue (R85, R108) -/
  blk : Option Blk := none
  /-- an answer to a fault that arrived while HELD: true RESUME, false ABORT (R104) -/
  answer : Option Bool := none
  /-- THCTL hold asked for while WAITING in an access: it takes effect once the access completes (R104) -/
  holdReq : Bool := false
  fStatus : Nat := 0
  fCause : Nat := 0
  fDeferred : Bool := false
  fIssue : Nat := 0
  fStop : Nat := 0
  faddr : Word := 0
  /-- a deferred fault waiting for the next boundary: op id, cause, status, issue PC, address (R106) -/
  dfr : Option (Nat × Nat × Nat × Nat × Nat) := none
  /-- skip this thread for one round (R104 YIELD) -/
  skip : Bool := false
  /-- links that carried host writes not yet fenced (R283), and the thread's last write class reached -/
  hostLinks : List Nat := []
  deriving DecidableEq, Repr

/-- What an asynchronous operation does (R98-R103), its operands captured at issue. -/
inductive AKind where
  | cpin (ls dva len rows pitch : Nat) (stride : Int)
  | cpout (ls dva len rows pitch : Nat) (stride : Int) (vis : Nat)
  | ldqb (ls dva stride sc : Nat)
  | ifetch (is_ dva len : Nat)
  | rput (ls ga len vis : Nat)
  | rget (ls ga len : Nat)
  | ratom (ls ga op : Nat) (c : Word) (vis : Nat)
  | mred (ls len group : Nat) (seq : W32)
  | bell (group : Nat) (seq : W32)
  | xsend (ls link len : Nat)
  | tmma (tile fa fb a b sa sb : Nat)
  | trd (tile : Nat) (o : TrdOpt) (dst pitch sdst : Nat) (seed base stride : Word)
  | tlda (tile fmt dst pitch : Nat)
  | tsave (tile dva : Nat)
  | tload (tile dva : Nat)
  | pref (dva : Nat)
  deriving DecidableEq, Repr

/-- An asynchronous operation in flight (R91): `prog` rows, chunks or blocks done; `stage` 0 queued or
moving, 1 waiting for remote or link answers, 2 waiting on a translation, 3 done but for its count. -/
structure AOp where
  id : Nat
  t : Nat
  pc : Nat
  k : Nat
  kind : AKind
  prog : Nat
  stage : Nat
  buf : List Byte
  /-- links its host writes used, for the zero-length reads of GLOBAL (R276) -/
  links : List Nat := []
  deriving DecidableEq, Repr

/-- A logical core (R80). -/
structure Core where
  thr : Tbl Thread := []
  ls : Memory := []
  /-- local-store words (address / 8) and instruction-store words with an uncorrectable error (R434) -/
  lsBad : Tbl Bool := []
  is_ : Memory := []
  isBad : Tbl Bool := []
  tiles : Tbl Tile := []
  /-- the TMMA and readout queues: ids of operations, in issue order (R58) -/
  tq : List Nat := []
  rq : List Nat := []
  aops : List AOp := []
  nextId : Nat := 0
  ctx : Nat := 0
  /-- the kernel thread that issued most recently (R86) -/
  last : Nat := 0
  /-- held in reset (R111, R112); thread 0 stopped by a fault (R109) -/
  reset : Bool := true
  monFault : Bool := false
  /-- the LAUNCH it runs: ring and SEQ -/
  launch : Option (Nat × W32) := none
  /-- threads arrived at a BAR, with their masks -/
  arrived : List (Nat × BitVec 16) := []
  /-- threads whose BAR, to be issued again after a hold, has been passed by all (R104) -/
  passed : List (Nat × BitVec 16) := []
  /-- monitor events not yet taken by WAITEV: cause -/
  events : List Nat := []
  phys : Option Nat := none
  deriving DecidableEq, Repr
/-! ### Fabric (chapter 13) -/

/-- A fabric link, key 0-95 (R299-R304): state 0 OFF 1 DETECT 2 TRAIN 3 ACTIVE 4 RETRAIN 5 DOWN. Credit classes:
0 CONTROL, 1 RAW, 2-5 REQ 0-3, 6-9 RSP 0-3, 10 shared (R300). -/
structure FLink where
  enable : Bool := false
  maxW : Nat := 8
  rawCtx : Nat := 0
  st : Nat := 0
  width : Nat := 0
  good : BitVec 8 := 0
  partner : Nat := 0
  partnerLink : Nat := 0
  retrains : Nat := 0
  naks : Nat := 0
  /-- uncorrectable codewords of the 1 ms window `uncorrWin` -/
  uncorr : Nat := 0
  uncorrWin : Nat := 0
  /-- rounds of mask exchange without agreement (R302) -/
  rounds : Nat := 0
  /-- credits in use at the partner, by class -/
  used : Tbl Nat := []
  /-- credits of this end's receive buffer that the partner counts as in use, and those of them owed to it (R300) -/
  rxUsed : Tbl Nat := []
  owed : Tbl Nat := []
  /-- packets queued, not yet framed; framed and unacknowledged, with their last frame -/
  txq : List FPkt := []
  frames : List (Nat × FPkt) := []
  /-- the next frame number, the first frame not acknowledged, and the bytes used of the last frame begun, 1,024 where
  none is open (R299, R305) -/
  txSeq : Nat := 0
  txAck : Nat := 0
  txFill : Nat := 1024
  rxSeq : Nat := 0
  /-- times in succession that frame `nakSeq` was NAKed (R299) -/
  nakRun : Nat := 0
  nakSeq : Nat := 0
  /-- this end owes a NAK -/
  nakOwed : Bool := false
  /-- raw packets received and not taken, oldest first (R317) -/
  raw : List FPkt := []
  deriving DecidableEq, Repr

/-- A Lantern (FAB_LN). -/
structure Lantern where
  ucieUp : BitVec 12 := 0
  /-- UCIe modules that did not train, or lost more lanes than their redundancy covers (R293) -/
  ucieBad : BitVec 12 := 0
  lightA : Bool := false
  lightB : Bool := false
  reject : Nat := 0
  admitted : Bool := false
  deriving DecidableEq, Repr

/-- A remote packet of an operation (R311-R315): `port` 512*fb + injection port, `tag` none while it waits for
one, the thread, operation and issue PC, where read data go in local store, the ring of the launch that issued it once that
launch has ended. `st`: 0 waits for a tag or for an
earlier packet to its line, 1 waits for a route, 2 queued for its link, 3 accepted by it. `dead`: its operation
has failed. -/
structure EReq where
  port : Nat
  tag : Option Nat
  n : Nat
  t : Nat
  op : Nat
  pc : Nat
  ls : Nat
  pkt : FPkt
  st : Nat
  dead : Bool
  ring : Option Nat := none
  deriving DecidableEq, Repr

structure Fab where
  id : Nat := 0
  idValid : Bool := false
  e2eTimeout : Nat := 1000
  dropped : Nat := 0
  role : Nat := 0
  altParent : Nat := 0x7F
  parent : Nat := 0x7F
  offset : Int := 0
  synced : Bool := false
  activeParent : Nat := 0x7F
  /-- an exchange is on its way -/
  exchange : Bool := false
  links : Tbl FLink := []
  lanterns : Tbl Lantern := []
  route : Tbl Word := []
  /-- FAB_COLL word w of group g, key 4*g + w; FAB_COLL_STS of g: status, missing, sequence -/
  coll : Tbl Word := []
  collSts : Tbl (Nat × BitVec 13 × W32) := []
  reqs : List EReq := []
  /-- packets that wait for an alternative (R310): their number and the packet -/
  waits : List (Nat × FPkt) := []
  nextWait : Nat := 0
  /-- packets for other modules that wait in the receive buffer of a link for egress buffer (R307) -/
  fwd : List (Nat × FPkt) := []
  deriving DecidableEq, Repr
/-! ### Die links, discovery and die loss (chapter 14) -/

/-- One end of a Gulgen bundle (R328-R337), key 32*fb + 16*s + 2*i + b: state 0 OFF 1 UCIE 2 TEST 3 AGREE 4 GULGEN
5 DISPUTE 6 RETRAIN 7 DOWN. -/
structure BundleEnd where
  st : Nat := 0
  ck : Nat := 0
  rounds : Nat := 0
  retrains : Nat := 0
  /-- CRC failures of the 1 ms window `crcWin` -/
  crcErr : Nat := 0
  crcWin : Nat := 0
  mine : BitVec 18 := 0
  mineCk : BitVec 2 := 0
  peer : BitVec 18 := 0
  peerCk : BitVec 2 := 0
  inuse : BitVec 18 := 0
  /-- next frame expected, frames sent and acknowledged, and NAKs in succession of one frame (R329) -/
  rxSeq : Nat := 0
  txSeq : Nat := 0
  acked : Nat := 0
  nakRun : Nat := 0
  nakSeq : Nat := 0
  /-- this end owes a NAK -/
  nakOwed : Bool := false
  /-- a retrain of the bundle has not ended (R337) -/
  retrain : Bool := false
  deriving DecidableEq, Repr

/-- A compute die (DIE_SC): state 0 OFF 1 TEST 2 ADMITTED 3 ISOLATED 4 RESETTING 5 REFUSED. -/
structure ScDie where
  st : Nat := 0
  cause : Nat := 0
  gen : Nat := 0
  proto : Nat := 0
  bonds : Nat := 0
  resets : Nat := 0
  /-- Meridian window of its latest loss (R344) -/
  lossWin : Option Nat := none
  deriving DecidableEq, Repr

/-- A base die's registers of chapter 14: reference source 0 own PLLs 1 primary 2 alternate 3 holdover. -/
structure FbDie where
  /-- its capability record was accepted in this start (R334) -/
  record : Bool := false
  isoCause : Nat := 0
  autoReadmit : Bool := true
  disputes : Nat := 0
  switches : Nat := 0
  altOk : Bool := false
  primaryOk : Bool := false
  source : Nat := 0
  deriving DecidableEq, Repr

structure DieSt where
  fbIso : BitVec 4 := 0
  fbs : Tbl FbDie := []
  scs : Tbl ScDie := []
  bundles : Tbl BundleEnd := []
  /-- clock monitors whose latest window deviated: FB, kind, index (R339) -/
  bad : List (Nat × Nat × Nat) := []
  /-- dies declared lost with their cause, not yet marked isolated; and marked, not yet contained (R341) -/
  lost : List (Die × Nat) := []
  marked : List (Die × Nat) := []
  /-- readmissions under way (R344, R345) -/
  readmit : List Die := []
  deriving DecidableEq, Repr

/-! ### Start-up, the Tithe map and firmware selection (chapter 15) -/

/-- An entry of the soft record (R354). -/
structure SoftUnit where
  unit : TitheUnit
  passes : Nat
  fuseOnly : Bool
  mer : Word
  deriving DecidableEq, Repr

/-- A firmware slot (R362, R380): its bytes as staged, and the Almanac it holds, if one verifies. -/
structure FwSlot where
  cells : Memory := []
  alm : Option Alm := none
  trialFailed : Bool := false
  deriving DecidableEq, Repr

/-- Start state (BOOT_ registers): phase 0 OFF, 1-7 step, 8 READY, 9 RECOVERY, 10 FAILED, 11 WARM_ENTRY. -/
structure Boot where
  phase : Nat := 0
  warm : Bool := false
  cause : Nat := 0
  stepFail : Nat := 0
  escalated : Bool := false
  slot : Nat := 0
  starts : Nat := 0
  recoveryNext : Bool := false
  /-- the start under way enters the recovery state (R364) -/
  toRecovery : Bool := false
  newBad : Nat := 0
  readyTime : Word := 0
  stepUs : Tbl Nat := []
  /-- the fuse part of the Tithe map, and the soft record -/
  fuse : List TitheUnit := []
  soft : List SoftUnit := []
  /-- units disabled in this run: fuse, soft and tests (R355) -/
  disabled : List TitheUnit := []
  digest : BitVec 512 := 0
  slots : Tbl FwSlot := [(0, { alm := some {} })]
  /-- the running Almanac and its combination -/
  alm : Alm := {}
  combo : Nat := 0
  /-- what an automatic restart or an input loss will give as CAUSE -/
  inputFell : Bool := false
  /-- SCs still to be released in step 7, and cores released once more after an uncorrectable read (R367) -/
  release : List Nat := []
  retried : List Nat := []
  deriving DecidableEq, Repr

/-! ### Security (chapter 16) -/

/-- A Reeve's watchdog (R386). -/
structure Wdog where
  expiries : Nat := 0
  window : Nat := 0
  windowNo : Nat := 0
  halted : Bool := false
  /-- the Reeve is down until its restart ends -/
  down : Bool := false
  deriving DecidableEq, Repr

/-- SEC_ registers: stage 0 IDLE 1 OPEN_CMD 2 OPEN_PLDM 3 COMMITTED. -/
structure Sec where
  stage : Nat := 0
  /-- the session: its slot, the byte ranges written in it, and whether PLDM opened it -/
  slot : Nat := 0
  written : List (Nat × Nat) := []
  rollback : Nat := 0
  ownerSet : Bool := false
  vendorKey : BitVec 512 := 0
  ownerKey : BitVec 512 := 0
  almVendor : BitVec 512 := 0
  almOwner : BitVec 512 := 0
  ratify : Bool := false
  /-- an owner enrolment request: its key -/
  enroll : Option (List Byte) := none
  laserLimit : Nat := 0
  jtagEn : Bool := false
  meas : Tbl (BitVec 512) := []
  wdog : Tbl Wdog := []
  /-- the latest PLDM answers: whether RequestUpdate was answered ALREADY_IN_UPDATE_MODE; slot, SEQ and versions of
  GetFirmwareParameters (R383) -/
  updateMode : Bool := false
  params : List (Nat × Nat × List (Nat × Nat × Nat)) := []
  deriving DecidableEq, Repr
/-- The state of the module. -/
structure State where
  pwr : Pwr := {}
  clk : Clk := {}
  thm : Thm := {}
  mer : Mer := {}
  evt : Evt := {}
  dram : Mem := {}
  /-- device memory and scratch by DPA: the array's bytes -/
  mem : Memory := []
  /-- bytes of dirty cache lines, which memory does not hold yet -/
  gmem : Memory := []
  /-- bytes the module wrote to host bus addresses -/
  hostMem : Memory := []
  msh : Msh := {}
  rgl : Rgl := {}
  mil : Mil := {}
  xlt : Xlt := {}
  host : Host_ := {}
  car : Car := {}
  cores : Tbl Core := []
  fab : Fab := {}
  die : DieSt := {}
  boot : Boot := {}
  sec : Sec := {}
  /-- GLB_INVENTORY bits (R32): SC_ADMITTED, MS_READY, LN_READY, FB_READY and DEGRADED -/
  scAdmitted : BitVec 16 := 0
  msReady : BitVec 8 := 0
  lnReady : BitVec 4 := 0
  fbReady : BitVec 4 := 0
  degraded : Bool := false
  /-- the module lock (R5) -/
  lock : Bool := false
  /-- the model's own: how many free values have been drawn -/
  free : Nat := 0
  /-- commands that wait, first in, first out -/
  pending : List Instr := []
  deriving DecidableEq, Repr

/-- The machine right after reset: every field at its Reset column or at the value its log entry names. DESIGN
CHOICE: log entry 54. DESIGN CHOICE: log entry 67. -/
def State.reset : State := {}

end Sys2Proof.Machine
end

