-- ==== Sys2Proof/Machine/Ops.lean ====
section
/-! DEFINITION. Named operations over registers, tables and events: the one place each kind of state is
read and written.  The block has no exception entry of a processor's kind: taking a fault is `takeFault`
and `takeDeferred` below (R105, R106, R109), raising an event is `logEvent` (R413), and the return from a
fault is FAULT_RESUME, THCTL and RECOVER. -/

namespace Sys2Proof.Machine

abbrev Out := Host.Outcome State Fault Refusal

/-! ### Accessors -/

def State.core (s : State) (n : Nat) : Core := tget {} s.cores n
def State.setCore (s : State) (n : Nat) (c : Core) : State := { s with cores := tset {} s.cores n c }
def Core.thread (c : Core) (t : Nat) : Thread := tget {} c.thr t
def Core.setThread (c : Core) (t : Nat) (x : Thread) : Core := { c with thr := tset {} c.thr t x }
def State.thr (s : State) (n t : Nat) : Thread := (s.core n).thread t
def State.setThr (s : State) (n t : Nat) (x : Thread) : State := s.setCore n ((s.core n).setThread t x)
def State.modThr (s : State) (n t : Nat) (f : Thread → Thread) : State := s.setThr n t (f (s.thr n t))
def State.modCore (s : State) (n : Nat) (f : Core → Core) : State := s.setCore n (f (s.core n))

def State.grn (s : State) (fb : Nat) : Grn := tget {} s.dram.grn fb
def State.setGrn (s : State) (fb : Nat) (g : Grn) : State :=
  { s with dram := { s.dram with grn := tset {} s.dram.grn fb g } }
def State.bank (s : State) (fb b : Nat) : Bank := tget {} s.dram.banks (64 * fb + b)
def State.setBank (s : State) (fb b : Nat) (x : Bank) : State :=
  { s with dram := { s.dram with banks := tset {} s.dram.banks (64 * fb + b) x } }
def State.hbm (s : State) (fb : Nat) : Hbm := tget {} s.dram.hbm fb
def State.setHbm (s : State) (fb : Nat) (x : Hbm) : State :=
  { s with dram := { s.dram with hbm := tset {} s.dram.hbm fb x } }
def State.stack (s : State) (k : Nat) : Stack := tget {} s.dram.hbmStacks k
def State.setStack (s : State) (k : Nat) (x : Stack) : State :=
  { s with dram := { s.dram with hbmStacks := tset {} s.dram.hbmStacks k x } }
def State.chan (s : State) (q c : Nat) : Chan := tget {} s.dram.chans (64 * q + c)
def State.setChan (s : State) (q c : Nat) (x : Chan) : State :=
  { s with dram := { s.dram with chans := tset {} s.dram.chans (64 * q + c) x } }
def State.lost (s : State) (line : Nat) : Bool := tget false s.dram.lost line
def State.setLost (s : State) (line : Nat) (b : Bool) : State :=
  { s with dram := { s.dram with lost := tset false s.dram.lost line b } }
def State.lostBurst (s : State) (x : Nat) : Bool := tget false s.dram.lostBursts x
def State.setLostBurst (s : State) (x : Nat) (b : Bool) : State :=
  { s with dram := { s.dram with lostBursts := tset false s.dram.lostBursts x b } }
def State.badBurst (s : State) (x : Nat) : Bool := tget false s.dram.badBursts x
def State.setBadBurst (s : State) (x : Nat) (b : Bool) : State :=
  { s with dram := { s.dram with badBursts := tset false s.dram.badBursts x b } }
def State.setResp (s : State) (r : Resp) : State := { s with dram := { s.dram with resp := r } }

def State.link (s : State) (l : Nat) : Link := tget {} s.host.links l
def State.setLink (s : State) (l : Nat) (x : Link) : State :=
  { s with host := { s.host with links := tset {} s.host.links l x } }
def State.ring (s : State) (r : Nat) : Ring := tget {} s.host.rings r
def State.setRing (s : State) (r : Nat) (x : Ring) : State :=
  { s with host := { s.host with rings := tset {} s.host.rings r x } }
def State.cq (s : State) (r : Nat) : CqRing := tget {} s.host.cqs r
def State.setCq (s : State) (r : Nat) (x : CqRing) : State :=
  { s with host := { s.host with cqs := tset {} s.host.cqs r x } }

def State.ctx (s : State) (c : Nat) : Ctx := tget {} s.xlt.ctxs c
def State.setCtx (s : State) (c : Nat) (x : Ctx) : State :=
  { s with xlt := { s.xlt with ctxs := tset {} s.xlt.ctxs c x } }
def State.group (s : State) (g : Nat) : Group := tget {} s.mil.groups g
def State.setGroup (s : State) (g : Nat) (x : Group) : State :=
  { s with mil := { s.mil with groups := tset {} s.mil.groups g x } }
def State.slot (s : State) (fb car sl : Nat) : CarSlot := tget {} s.car.slots (48 * fb + 4 * car + sl)
def State.setSlot (s : State) (fb car sl : Nat) (x : CarSlot) : State :=
  { s with car := { s.car with slots := tset {} s.car.slots (48 * fb + 4 * car + sl) x } }

/-- A free value's index: each draw takes the next. -/
def State.draw (s : State) : State × Nat := ({ s with free := s.free + 1 }, s.free)

/-- Whether FB `q` is isolated (R341). -/
def State.iso (s : State) (q : Nat) : Bool := s.die.fbIso.getLsbD q

/-- Whether the module has been started and its dies run: the input is up and the rails are on. -/
def State.powered (s : State) : Bool := s.pwr.input && !s.pwr.railsOff

/-- A pin is in the state Starting: from the rise of the input to the beginning of step 3, and in the warm entry (R429). -/
def pinsStarting (s : State) : Bool := [0, 1, 2, 11].contains s.boot.phase

/-- MCTP is served on the sideband: once step 2 has ended (R429). -/
def mctpServed (s : State) : Bool := s.powered && !pinsStarting s

/-- SMB_ALERT# is asserted: the sideband queue holds a record (R417, R422, R429). -/
def smbAlert (s : State) : Bool := s.pwr.input && !s.evt.sb.isEmpty

/-- The bytes of a digest (R361, R376). -/
def digestBytes (d : BitVec 512) : List Byte := leBytes 64 d.toNat

/-- Extend a measurement register (R376). -/
def extend (s : State) (r : Nat) (d : List Byte) : State :=
  let m : BitVec 512 := tget 0 s.sec.meas r
  { s with sec := { s.sec with
      meas := tset 0 s.sec.meas r (Config.shake256 (digestBytes m ++ digestBytes (Config.shake256 d))) } }

/-! ### The Meridian (R401) and events (R409-R418) -/

/-- A read of FB `fb`'s Meridian: the whole nanoseconds of the copy plus the time since the latest edge in 2.5 ns
steps, capped at 37.5 ns; reads within one FB never decrease. DESIGN CHOICE: log entry 23. -/
def readMer (s : State) (fb : Nat) : State × Word :=
  let (s, i) := s.draw
  let acc : BitVec 96 := tget 0 s.mer.acc fb
  let sub := Config.meridianSub i % 16
  let v : Word := BitVec.ofNat 64 (acc.toNat / 2 ^ 32 + 5 * sub / 2)
  let last : Word := tget 0 s.mer.last fb
  let v := if v < last then last else v
  ({ s with mer := { s.mer with last := tset 0 s.mer.last fb v } }, v)

/-- Severity of an event code (R414): 0 INFO 1 WARNING 2 ERROR 3 FATAL. -/
def evSev (code : Nat) : Nat :=
  if code = 0x0804 then 3
  else if [0x0100, 0x0101, 0x0200, 0x0201, 0x0202, 0x0203, 0x0300, 0x0303, 0x0310, 0x0313, 0x0314, 0x0410,
    0x0500, 0x0505, 0x0601, 0x0602, 0x0703, 0x0803, 0x0810].contains code then 2
  else if [0x0400, 0x0501, 0x0503, 0x0600, 0x0711, 0x0801].contains code then 0
  else 1

/-- The source number of R410. -/
def srcNo (fb block inst : Nat) : Nat := fb * 2 ^ 14 + block * 2 ^ 8 + inst

/-- Entries the 1,024-entry queue holds; an EVT_LOSS record takes none (R433). -/
def Evt.used (e : Evt) : Nat := e.queue.length + (e.out.filter fun r => r.code ≠ 0x0900).length

/-- Two records merge (R413). -/
def Ev.same (a b : Ev) : Bool := a.code = b.code && a.source = b.source && a.ctx = b.ctx && a.d0 = b.d0

/-- A record enters the queue in the order of R411: by MERIDIAN, then by SOURCE. -/
def Ev.le (a b : Ev) : Bool := decide (a.mer < b.mer) || (a.mer = b.mer && decide (a.source ≤ b.source))

/-- A record reaches FB0's queue: it merges, takes an entry, is dropped, or is held at its source (R413). DEDUCED:
log entry 132. -/
def Evt.add (e : Evt) (r : Ev) : Evt :=
  if e.queue.any r.same then
    { e with queue := replaceFirst r.same (fun q => { q with count := satInc 255 q.count }) e.queue }
  else if r.sev < 2 then
    if e.used < 960 then { e with queue := insertBy Ev.le r e.queue }
    else { e with dropped := satInc (2 ^ 24 - 1) e.dropped, qCount := e.qCount + 1, loss := true }
  else if e.used < 1024 then { e with queue := insertBy Ev.le r e.queue }
  else if e.held.any r.same then
    { e with held := replaceFirst r.same (fun q => { q with count := satInc 255 q.count }) e.held }
  else { e with held := e.held ++ [r] }

/-- Log an event (R409-R414): stamped by its FB's Meridian, counted in EVT_LOCAL, and sent to FB0; of an isolated FB
the record is lost, and the next one released carries LOSS (R412). DEDUCED: log entry 24. -/
def logEvent (s : State) (code fb block inst ctx : Nat) (d0 d1 : Word) : State :=
  if s.iso fb then { s with evt := { s.evt with loss := true } }
  else
  let (s, m) := readMer s fb
  let sev := evSev code
  let r : Ev := ⟨sev, false, 1, code, srcNo fb block inst, ctx, m, d0, d1⟩
  let k := 4 * fb + sev
  { s with evt := { (s.evt.add r) with local_ := tset 0 s.evt.local_ k (satInc 65535 (tget 0 s.evt.local_ k)) } }

/-- Log with numbers as data words. -/
def ev (s : State) (code fb block inst d0 d1 : Nat) : State :=
  logEvent s code fb block inst 0 (BitVec.ofNat 64 d0) (BitVec.ofNat 64 d1)

/-- A register write discarded and logged (REG_WRITE_DISCARDED, R432): `off` the BAR0 offset. DEDUCED: log entry
105. -/
def regDiscard (s : State) (off inst : Nat) (v : Word) : State :=
  logEvent s 0x0001 (off / 0x1000000 % 4) (off % 0x1000000 / 0x80000) inst 0 (BitVec.ofNat 64 off) v

/-! ### Interrupts on a link (R233, R253) -/

/-- The first address beyond the enabled windows that hold `a`. -/
def winEnd (k : Link) (a : Nat) : Option Nat :=
  (List.range 16).foldl (fun b i =>
    let lo := (tget 0 k.winBase i).toNat
    let hi := ((tget 0 k.winLimit i).toNat / 4096 + 1) * 4096
    if lo % 2 = 1 ∧ lo / 4096 * 4096 ≤ a ∧ a < hi then some (max hi (b.getD 0)) else b) none

/-- Whether every byte from `a` up to `e` lies in some enabled window: sixteen windows are passed through at most. -/
def winGo : Nat → Link → Nat → Nat → Bool
  | 0, _, a, e => decide (e ≤ a)
  | fuel + 1, k, a, e =>
    if e ≤ a then true
    else match winEnd k a with
      | none => false
      | some x => winGo fuel k x e

/-- Whether `n` bytes at host bus address `a` lie in enabled windows of link `l` (R233). -/
def winCovers (k : Link) (a n : Nat) : Bool := winGo 16 k a (a + n)

/-- Bytes written to host memory: transmitted on their link (R276). `ro`: a data write, which carries Relaxed Ordering
where HST_CTRL.RO and the link's Enable Relaxed Ordering bit are set (R253). DEDUCED: log entry 57. -/
def hostWrite (s : State) (l : Nat) (ro : Bool) (a : Nat) (bs : List Byte) : State :=
  { s with
    hostMem := Memory.writeN s.hostMem a bs
    host := { s.host with
      lastRo := tset false s.host.lastRo l (ro && tget false s.host.ro (l % 2) && Config.enableRo l) } }

/-- Raise MSI-X vector `v` of link `l`: outside every window it stays pending and an event names it. -/
def raiseMsix (s : State) (l v : Nat) : State :=
  let k := s.link l
  let e := tget {} k.msix v
  let pend (k : Link) : Link := if k.pend.contains v then k else { k with pend := insertBy (· ≤ ·) v k.pend }
  if e.masked then s.setLink l (pend k)
  else if !k.busMaster ∨ k.retraining then s.setLink l (pend k)
  else if winCovers k e.addr 4 then
    hostWrite (s.setLink l { k with irq := tset 0 k.irq v (tget 0 k.irq v + 1), pend := k.pend.filter (· ≠ v) }) l false
      e.addr (leBytes 4 e.data)
  else
    let s' := s.setLink l (pend k)
    if k.pend.contains v then s'
    else ev s' 0x0008 (if l % 2 = 0 then 0 else 3) 0x0D l e.addr (v + 256 * l)

/-! ### Faults of threads (R105, R106, R109) -/

/-- Fault causes (R107). -/
def cILLEGAL : Nat := 0x01
def cPRIV : Nat := 0x02
def cFORMAT : Nat := 0x03
def cALIGN : Nat := 0x04
def cTILE : Nat := 0x05
def cADDR : Nat := 0x06
def cRIGHTS : Nat := 0x07
def cABORTED : Nat := 0x08
def cMEM : Nat := 0x09
def cGRN : Nat := 0x0A
def cLOCAL : Nat := 0x0B
def cREACH : Nat := 0x0C
def cREMOTE : Nat := 0x0D
def cTLOAD : Nat := 0x0E
def cHOST : Nat := 0x0F

/-- The STATUS a cause carries (R107). -/
def causeStatus (c : Nat) : Nat :=
  if c = cRIGHTS then 0x0201 else if c = cABORTED then 0x0200 else if c = cMEM then 0x0300
  else if c = cGRN then 0x0301 else if c = cHOST then 0x0400 else 0

/-- The event source of a logical core: block 0x20 + j, exposed core (R410). -/
def coreFb (n : Nat) : Nat := n / 1024
def coreBlock (n : Nat) : Nat := 0x20 + n / 256 % 4

/-- A fault of the monitor stops it: every kernel thread is held, an event is logged and the Reeve is
signalled (R109). -/
def monitorFault (s : State) (n cause : Nat) : State :=
  let c := s.core n
  let hold (x : Thread) : Thread :=
    if x.st = .off ∨ x.st = .faulted ∨ x.st = .held then x
    else { x with st := .held, prev := x.st, prevWait := x.wait }
  let thr := (List.range 16).foldl (fun tb t =>
    if t = 0 then tb else tset {} tb t (hold (tget {} tb t))) c.thr
  ev (s.setCore n { c with thr := thr, monFault := true }) 0x0201 (coreFb n) (coreBlock n) (n % 256) n cause

/-- A fault on a core of a launch is kept for its completion (R248). -/
def noteLaunch (s : State) (n : Nat) (f : LFault) : State :=
  match (s.core n).launch with
  | none => s
  | some (r, q) =>
    { s with
      host := { s.host with
        launches := replaceFirst (fun l => l.ring = r && l.seq = q)
          (fun l => { l with faults := l.faults ++ [f] }) s.host.launches } }

/-- The monitor's WAITEV returns with an event's cause (R104), or the event is kept for the next WAITEV. -/
def pushEvent (s : State) (n e : Nat) : State :=
  let m := s.thr n 0
  match m.st, m.wait with
  | .waiting, .event d =>
    s.setThr n 0 { m with
      st := .ready, wait := .nothing, pc := m.pc + 8, s := tset 0 m.s (d % 64) (Config.monitorEvent e) }
  | _, _ => s.modCore n fun c => { c with events := c.events ++ [e] }

/-- A command or access of a context completes DIE_LOST: the context is STOPPED (R343). -/
def State.stopCtx (s : State) (c : Nat) : State :=
  let x := s.ctx c
  if c ≠ 0 ∧ x.state = 1 then s.setCtx c { x with state := 3, reason := 0x0401 } else s

/-- A thread enters FAULTED with its record; the monitor's WAITEV has an event to return with. -/
def enterFault (s : State) (n t cause status issue stop : Nat) (deferred : Bool) (addr : Word) : State :=
  let th := s.thr n t
  let th := { th with
    st := .faulted, wait := .nothing, blk := none, fStatus := status, fCause := cause,
    fDeferred := deferred, fIssue := issue, fStop := stop, faddr := addr }
  let s := if status = 0x0401 ∧ t ≠ 0 then s.stopCtx (s.core n).ctx else s
  let s := noteLaunch (s.setThr n t th) n ⟨n, t, cause, status, issue, addr.toNat, t = 0⟩
  if t = 0 then monitorFault s n cause
  else pushEvent s n t

/-- A precise fault of thread `t` at its PC (R105): nothing else has changed. -/
def takeFault (s : State) (n t cause status : Nat) (addr : Word) : State :=
  let pc := (s.thr n t).pc.toNat
  enterFault s n t cause status pc pc false addr

/-- A failed asynchronous operation's fault is known; the record names the operation issued first (R106). -/
def noteDeferred (th : Thread) (id cause status pc addr : Nat) : Thread :=
  match th.dfr with
  | some (i, _) => if i ≤ id then th else { th with dfr := some (id, cause, status, pc, addr) }
  | none => { th with dfr := some (id, cause, status, pc, addr) }

/-- The deferred fault is taken at the thread's next instruction boundary (R106). -/
def takeDeferred (s : State) (n t : Nat) : State :=
  match (s.thr n t).dfr with
  | none => s
  | some (_, cause, status, pc, addr) =>
    let s := s.modThr n t fun th => { th with dfr := none }
    enterFault s n t cause status pc (s.thr n t).pc.toNat true (BitVec.ofNat 64 addr)

end Sys2Proof.Machine
end

