-- ==== Sys2Proof/Machine/Path.lean ====
section
/-! DEFINITION. The path to device memory and scratch: address decode (R26, R115, R118, R135-R137), the
Granary's policies (R116-R128), the controllers (R138-R142, R149, R150) and bank atomics (R131). -/

namespace Sys2Proof.Machine

/-- Why an access to this module's memory fails, with the DPA reported. -/
inductive Fail where
  /-- reserved, or scratch that is not backed (R27) -/
  | addr (dpa : Nat)
  | grn (dpa : Nat)
  | mem (dpa : Nat)
  | die (dpa : Nat)
  /-- the access is held: a sweep, a retrain or a row repair runs (R122, R142, R149) -/
  | held (dpa : Nat)
  deriving DecidableEq, Repr

/-! ### Address decode -/

def memTop : Nat := 0xC000000000
def scrBase : Nat := 0xF000000000
def scrTop : Nat := 0xF080000000

def isDev (a : Nat) : Bool := decide (a < memTop)
def isScr (a : Nat) : Bool := decide (scrBase ≤ a) && decide (a < scrTop)

/-- Home quadrant and quadrant offset of a device-memory DPA (R135). -/
def homeQ (a : Nat) : Nat := bits a 21 20 ^^^ bits a 23 22
def quadOff (a : Nat) : Nat := a / 2 ^ 22 * 2 ^ 20 + a % 2 ^ 20

/-- Bank and set of a quadrant offset (R115). -/
def devBank (a : Nat) : Nat := bits (quadOff a) 13 8 ^^^ bits (quadOff a) 19 14
def devSet (a : Nat) : Nat := bits (quadOff a) 24 14

/-- Channel index and channel offset (R136). -/
def chanOf (a : Nat) : Nat := bits (quadOff a) 17 12 ^^^ bits (quadOff a) 23 18
def chanOff (a : Nat) : Nat := bits (quadOff a) 37 18 * 2 ^ 12 + a % 2 ^ 12

/-- The row of a burst: the granule's row of its pseudo-channel (R137). DEDUCED: log entry 37. -/
def rowOf (a : Nat) : Nat := a / 4096 * 2 + bit' a
where bit' (a : Nat) : Nat := a / 64 % 2

/-- Scratch: FB, FB-local offset, bank, logical way (R118). -/
def scrQ (a : Nat) : Nat := (a - scrBase) / 0x20000000
def scrOff (a : Nat) : Nat := (a - scrBase) % 0x20000000
def scrBank (a : Nat) : Nat := bits (scrOff a) 13 8
def scrWay (a : Nat) : Nat := bits (scrOff a) 28 25
def scrSet (a : Nat) : Nat := bits (scrOff a) 24 14

/-- Whether a scratch address lies in logical way `u` of a bank. -/
def inScrWay (fb b u a : Nat) : Bool := isScr a && scrQ a = fb && scrBank a = b && scrWay a = u

/-- Set `i` of logical way `u` of an exposed bank: the line's number (R118). -/
def scrLine (fb b u i : Nat) : Nat := (scrBase + fb * 0x20000000 + u * 0x2000000 + i * 0x4000 + b * 0x100) / 256

/-- The FB that homes a DPA of memory or scratch. -/
def homeFb (a : Nat) : Nat := if isDev a then homeQ a else scrQ a

/-- Whether a scratch address is backed: the partition in force at its bank (R118, R119). DEDUCED: log entry 28. -/
def scrBacked (s : State) (a : Nat) : Bool :=
  decide (scrOff a < (s.bank (scrQ a) (scrBank a)).w * 0x2000000)

/-- Whether a DPA is device memory or backed scratch (R27). -/
def dpaOk (s : State) (a : Nat) : Bool := isDev a || (isScr a && scrBacked s a)

/-! ### Attributes (R121) -/

/-- DEDUCED: log entry 110. -/
def ratMatch (r : Rat) (mib : Nat) : Bool := r.valid && decide (r.base ≤ mib) && decide (mib ≤ r.limit)

/-- The lowest-numbered valid entry that covers the address, or the default entry. -/
def ratOf (s : State) (a : Nat) : Rat :=
  match (List.range 64).find? fun i => ratMatch (tget {} s.dram.rat i) (a / 2 ^ 20) with
  | some i => tget {} s.dram.rat i
  | none => s.dram.ratDefault

/-- Whether a sweep of R122 holds accesses to the address. -/
def ratHeld (s : State) (a : Nat) : Bool :=
  s.dram.ratCmd.hold.any fun r => decide (r.1 ≤ a / 2 ^ 20) && decide (a / 2 ^ 20 ≤ r.2)

/-- The policy in force: codes 0-4 while the cache is ON, uncached otherwise (R120, R124) and in an ABSENT bank
(R359). It is read when the bank performs the access. DEDUCED: log entry 165. -/
def policyOf (s : State) (a : Nat) : Nat :=
  let g := s.grn (homeQ a)
  let on := g.state = 1 || (g.state = 3 && g.from_ = 1)
  if on && (s.bank (homeQ a) (devBank a)).phys ≠ some 127 then (ratOf s a).policy else 4

/-! ### Controllers -/

/-- Number of the bursts that bytes `[a, a + n)` touch, first and count. -/
def burstsOf (a n : Nat) : List Nat :=
  if n = 0 then [] else (List.range ((a + n - 1) / 64 - a / 64 + 1)).map (a / 64 + ·)

/-- A channel's rate before its stack's throttle: by its state, at the normal or the doubled refresh (R146). DESIGN
CHOICE: log entry 68. -/
def chanRate (st : Nat) (twice : Bool) : Nat :=
  if st = 0 then (if twice then 694 else 720) else if st = 1 then (if twice then 555 else 576) else 0

/-- What a stack's controller admits, where the stack is READY or in self-refresh; half of it while it throttles
(R147). -/
def halved (k : Stack) (n : Nat) : Nat := if k.throttled then n / 2 else n

/-- HBM_CH.DELIVERABLE of channel `c` of quadrant `q`. -/
def chanDeliv (s : State) (q c : Nat) : Nat :=
  let k := s.stack (2 * q + c / 32)
  if k.state = 2 ∨ k.state = 3 then halved k (chanRate (s.chan q c).state k.refresh2x) else 0

/-- HBM_STACK.DELIVERABLE: the sum over the stack's 32 channels. -/
def stackDeliv (s : State) (k : Nat) : Nat :=
  let x := s.stack k
  if x.state = 2 ∨ x.state = 3 then
    halved x ((List.range 32).foldl (fun a c => a + chanRate (s.chan (k / 2) (32 * (k % 2) + c)).state x.refresh2x) 0)
  else 0

/-- HBM_STACK.DELIVERABLE and HBM_CH.DELIVERABLE of stack `k` show its rates of now (R155). -/
def showStack (s : State) (k : Nat) : State :=
  let s := (List.range 32).foldl (fun s i =>
    let c := 32 * (k % 2) + i
    s.setChan (k / 2) c { s.chan (k / 2) c with deliv := chanDeliv s (k / 2) c }) s
  { s with rgl := { s.rgl with deliver := tset 0 s.rgl.deliver k (stackDeliv s k) } }

/-- An access to a stack in self-refresh brings it out, and is then served (R151). DEDUCED: log entry 143. -/
def wakeStack (s : State) (a : Nat) : State :=
  let k := 2 * homeQ a + chanOf a / 32
  if (s.stack k).state = 3 && s.msReady.getLsbD k then s.setStack k { s.stack k with state := 2 } else s

/-- An uncorrectable read of device memory: recorded in HBM_UE_ADDR and logged (R141). -/
def noteUe (s : State) (a : Nat) : State :=
  let q := homeQ a
  let h := s.hbm q
  let h := if h.ueValid then { h with ueOverflow := true }
    else { h with ueValid := true, ueAddr := a / 64 }
  ev (s.setHbm q h) 0x0310 q 0x08 (chanOf a) (a / 64 * 64) (s.chan q (chanOf a)).state

/-- An uncorrectable read of the array counts in its channel as well (UE_COUNT). -/
def countUe (s : State) (a : Nat) : State :=
  let c := s.chan (homeQ a) (chanOf a)
  s.setChan (homeQ a) (chanOf a) { c with ue := satInc 4095 c.ue }

/-- Whether a burst cannot be accessed now: its channel retrains, its row is under repair, or its line's write-back waits
(R142, R149). -/
def burstHeld (s : State) (b : Nat) : Bool :=
  (s.chan (homeQ (64 * b)) (chanOf (64 * b))).state = 2 || s.dram.repairing.contains (rowOf (64 * b)) ||
  s.dram.writeBacks.any fun e => e.1 = b / 4

/-- Whether a line's write-back waits: until it is done, accesses to the line wait as well. -/
def lineHeld (s : State) (line : Nat) : Bool := s.dram.writeBacks.any fun e => e.1 = line

def burstDead (s : State) (b : Nat) : Bool := (s.chan (homeQ (64 * b)) (chanOf (64 * b))).state = 3

/-- Whether a burst's contents cannot be read: LOST, or uncorrectable since it was last written whole (R141, R142). -/
def burstBad (s : State) (b : Nat) : Bool := s.lostBurst b || s.badBurst b

/-- Whether a controller does not perform an access to a burst; `whole`: it is a write of the whole burst. -/
def burstStops (s : State) (whole : Bool) (b : Nat) : Bool := burstHeld s b || burstDead s b || (burstBad s b && !whole)

/-- The access stops at burst `b`: it is held, or it fails under R141. -/
def burstStop (s : State) (b : Nat) : State × Fail :=
  if burstHeld s b then (s, .held (64 * b))
  else
    let s := if s.badBurst b && !burstDead s b then countUe s (64 * b) else s
    (noteUe s (64 * b), .mem (64 * b))

/-- A controller read of bytes in the array (R138-R142, R149, R150): the first failing burst decides. -/
def dramRead (s : State) (a n : Nat) : State × Except Fail (List Byte) :=
  let s := wakeStack s a
  match (burstsOf a n).find? (burstStops s false) with
  | none => (s, .ok (Memory.readN s.mem a n))
  | some b =>
    let (s, f) := burstStop s b
    (s, .error f)

/-- Whether a write of `n` bytes at `a` covers all of burst `b`. -/
def coversBurst (a n b : Nat) : Bool := decide (a ≤ 64 * b) && decide (64 * b + 64 ≤ a + n)

/-- A burst has been written whole: it is neither LOST nor uncorrectable (R141, R142). -/
def freshBurst (s : State) (b : Nat) : State :=
  let s := if s.lostBurst b then s.setLostBurst b false else s
  if s.badBurst b then s.setBadBurst b false else s

/-- A controller write: written whole or not at all; a burst covered whole has a valid code again, and one that cannot be
read fails it where it is covered in part (R140-R142). -/
def dramWrite (s : State) (a : Nat) (bs : List Byte) : State × Option Fail :=
  let s := wakeStack s a
  match (burstsOf a bs.length).find? fun b => burstStops s (coversBurst a bs.length b) b with
  | some b =>
    let (s, f) := burstStop s b
    (s, some f)
  | none =>
    let s := ((burstsOf a bs.length).filter (coversBurst a bs.length)).foldl freshBurst s
    ({ s with mem := Memory.writeN s.mem a bs }, none)

/-! ### Cache lines -/

def State.cline (s : State) (line : Nat) : Option CLine :=
  (s.dram.lines.find? fun e => e.1 = line).map (·.2)

def State.setCline (s : State) (line : Nat) (c : CLine) : State :=
  { s with dram := { s.dram with lines := tput s.dram.lines line c } }

/-- Drop a line from the cache without writing it back. -/
def dropLine (s : State) (line : Nat) : State :=
  { s with
    dram := { s.dram with lines := tdel s.dram.lines line }
    gmem := Memory.clearRange s.gmem (256 * line) (256 * line + 256) }

/-- Bytes of a dirty line reach memory; where its channel or row is held they wait (R149); a write that fails leaves the
line LOST (R127). -/
def storeBack (s : State) (line : Nat) (bs : List Byte) : State :=
  match dramWrite s (256 * line) bs with
  | (s, none) => s
  | (s, some (.held _)) => { s with dram := { s.dram with writeBacks := s.dram.writeBacks ++ [(line, bs)] } }
  | (s, some _) => s.setLost line true

/-- The write-backs that wait are tried again, in order. -/
def settleBacks (s : State) : State :=
  s.dram.writeBacks.foldl (fun s e => storeBack s e.1 e.2) { s with dram := { s.dram with writeBacks := [] } }

/-- Write back if dirty, then invalidate (sweeps, victims, ways that change use). DEDUCED: log entry 35. -/
def evict (s : State) (line : Nat) : State :=
  match s.cline line with
  | none => s
  | some c =>
    if c.dirty then storeBack (dropLine s line) line (Memory.readN s.gmem (256 * line) 256) else dropLine s line

/-- Good physical ways of a bank that serve cache now (R117, R129). -/
def cacheWays (b : Bank) : List Nat :=
  (List.range 16).filter fun w => !b.disabled.getLsbD w && !(b.scr.any fun e => e.2 = w)

/-- Resident lines of one set. -/
def setLines (s : State) (fb b set : Nat) : List (Nat × CLine) :=
  s.dram.lines.filter fun e =>
    homeQ (256 * e.1) = fb && devBank (256 * e.1) = b && devSet (256 * e.1) = set

/-- A way for a new line of a set: a free good cache way, else the line inserted as next victim, else one the
policy of the part picks (R116). None if the bank has no cache way. -/
def pickWay (s : State) (fb b set : Nat) : State × Option Nat :=
  let ways := cacheWays (s.bank fb b)
  let res := setLines s fb b set
  match ways.find? fun w => !(res.any fun e => e.2.way = w) with
  | some w => (s, some w)
  | none =>
    match res.find? fun e => e.2.nextVictim with
    | some e => (s, some e.2.way)
    | none =>
      if ways = [] then (s, none)
      else
        let (s, i) := s.draw
        (s, ways[Config.victim i % ways.length]?)

/-- Make a line resident (R116, R120); `victim` inserts it as the next victim of its set. -/
def allocLine (s : State) (line : Nat) (dirty victim : Bool) : State :=
  let a := 256 * line
  let fb := homeQ a
  let b := devBank a
  match pickWay s fb b (devSet a) with
  | (s, none) => s
  | (s, some w) =>
    let s := match (setLines s fb b (devSet a)).find? fun e => e.2.way = w with
      | some e => evict s e.1
      | none => s
    s.setCline line { way := w, dirty := dirty, nextVictim := victim }

/-- Bytes of a resident line. -/
def lineBytes (s : State) (c : CLine) (a n : Nat) : List Byte :=
  if c.dirty then Memory.readN s.gmem a n else Memory.readN s.mem a n

/-- Store into a resident line as dirty data: a clean line's bytes come along. -/
def dirtyLine (s : State) (line : Nat) (c : CLine) (a : Nat) (bs : List Byte) : State :=
  let s := if c.dirty then s
    else { s with gmem := Memory.writeN s.gmem (256 * line) (Memory.readN s.mem (256 * line) 256) }
  { (s.setCline line { c with dirty := true }) with gmem := Memory.writeN s.gmem a bs }

/-! ### Accesses within one line at its home bank -/

/-- Whether a line's bursts outside the bytes [a, a + n) can fill it (R141). -/
def fillOk (s : State) (line a n : Nat) : Bool :=
  (burstsOf (256 * line) 256).all fun b => coversBurst a n b || !(burstHeld s b || burstDead s b || burstBad s b)

/-- A read of `n` bytes at `a`, within one 256-byte line (R116-R128); `alloc`: a miss may allocate. Scratch is never
held by a sweep (R120). DEDUCED: log entry 144. DEDUCED: log entry 133. -/
def lineReadIf (alloc : Bool) (s : State) (a n : Nat) : State × Except Fail (List Byte) :=
  if isScr a then
    if s.iso (scrQ a) then (s, .error (.die a))
    else if !scrBacked s a then (s, .error (.addr a))
    else if (s.bank (scrQ a) (scrBank a)).unbacked.contains (scrWay a) || s.lost (a / 256) then
      (s, .error (.grn a))
    else (s, .ok (Memory.readN s.mem a n))
  else if !isDev a then (s, .error (.addr a))
  else if s.iso (homeQ a) then (s, .error (.die a))
  else if ratHeld s a || lineHeld s (a / 256) then (s, .error (.held a))
  else if burstDead s (a / 64) then (noteUe s (a / 64 * 64), .error (.mem (a / 64 * 64)))
  else if s.lost (a / 256) then (s, .error (.grn a))
  else
    match s.cline (a / 256) with
    | some c => (s, .ok (lineBytes s c a n))
    | none =>
      match dramRead s a n with
      | (s, .error f) => (s, .error f)
      | (s, .ok bs) =>
        if alloc && decide (policyOf s a < 4) && fillOk s (a / 256) a 0 then
          (allocLine s (a / 256) false (policyOf s a = 3), .ok bs)
        else (s, .ok bs)

def lineRead (s : State) (a n : Nat) : State × Except Fail (List Byte) := lineReadIf true s a n

/-- A write of a line that is not resident, under a policy that allocates (R120): part of a line first fetches the rest. A
line that cannot be filled is not allocated, and memory is written (R141). -/
def missWrite (s : State) (p line a : Nat) (bs : List Byte) : State × Option Fail :=
  let full := bs.length = 256
  let s := if full then s else wakeStack s a
  let rest := (burstsOf (256 * line) 256).filter fun b => !coversBurst a bs.length b
  match rest.find? (burstHeld s) with
  | some b => (s, some (.held (64 * b)))
  | none =>
    if !fillOk s line a bs.length then dramWrite s a bs
    else if p = 1 then
      match dramWrite s a bs with
      | (s, some f) => (s, some f)
      | (s, none) => (allocLine s line false false, none)
    else
      let s := allocLine s line false (p = 3)
      match s.cline line with
      | none => dramWrite s a bs
      | some c => (dirtyLine s line c a bs, none)

/-- A write of device memory that its home performs: into a resident line, or as a miss (R120). -/
def bankWrite (s : State) (a : Nat) (bs : List Byte) : State × Option Fail :=
  let line := a / 256
  let p := policyOf s a
  match s.cline line with
  | some c => if p = 0 || p = 3 || c.dirty then (dirtyLine s line c a bs, none) else dramWrite s a bs
  | none => if p = 0 || p = 1 || p = 3 then missWrite s p line a bs else dramWrite s a bs

/-- A write of bytes at `a`, within one line (R116-R128): none, or why it wrote nothing. One that covers the line ends
LOST. -/
def lineWrite (s : State) (a : Nat) (bs : List Byte) : State × Option Fail :=
  let line := a / 256
  let full := bs.length = 256
  if isScr a then
    if s.iso (scrQ a) then (s, some (.die a))
    else if !scrBacked s a then (s, some (.addr a))
    else if (s.bank (scrQ a) (scrBank a)).unbacked.contains (scrWay a) then (s, some (.grn a))
    else if s.lost line && !full then (s, some (.grn a))
    else ({ (s.setLost line false) with mem := Memory.writeN s.mem a bs }, none)
  else if !isDev a then (s, some (.addr a))
  else if s.iso (homeQ a) then (s, some (.die a))
  else if ratHeld s a || lineHeld s (a / 256) then (s, some (.held a))
  else if burstDead s (a / 64) then (noteUe s (a / 64 * 64), some (.mem (a / 64 * 64)))
  else if s.lost line && !full then (s, some (.grn a))
  else
    match bankWrite s a bs with
    | (s, none) => (s.setLost line false, none)
    | r => r

/-- A read of any range, line by line in increasing address order; the first failure ends it. `fuel` bounds
the number of lines. -/
def rangeRead : Nat → State → Nat → Nat → State × Except Fail (List Byte)
  | 0, s, _, _ => (s, .ok [])
  | fuel + 1, s, a, n =>
    if n = 0 then (s, .ok [])
    else
      let k := min n (256 - a % 256)
      match lineRead s a k with
      | (s, .error f) => (s, .error f)
      | (s, .ok bs) =>
        match rangeRead fuel s (a + k) (n - k) with
        | (s, .error f) => (s, .error f)
        | (s, .ok cs) => (s, .ok (bs ++ cs))

def rangeWrite : Nat → State → Nat → List Byte → State × Option Fail
  | 0, s, _, _ => (s, none)
  | fuel + 1, s, a, bs =>
    if bs.isEmpty then (s, none)
    else
      let k := min bs.length (256 - a % 256)
      match lineWrite s a (bs.take k) with
      | (s, some f) => (s, some f)
      | (s, none) => rangeWrite fuel s (a + k) (bs.drop k)

/-- Read and write `n` bytes at a DPA through the home banks. -/
def memRead (s : State) (a n : Nat) : State × Except Fail (List Byte) := rangeRead (n / 256 + 2) s a n
def memWrite (s : State) (a : Nat) (bs : List Byte) : State × Option Fail :=
  rangeWrite (bs.length / 256 + 2) s a bs

/-! ### Atomics (R131) -/

/-- The new value of a word under an atomic operation. -/
def atomOp (op : Nat) (old b c : Word) : Word :=
  match op with
  | 0x0 => b
  | 0x1 => if old = b then c else old
  | 0x2 => old + b
  | 0x3 => old &&& b
  | 0x4 => old ||| b
  | 0x5 => old ^^^ b
  | 0x6 => if old.toInt < b.toInt then b else old
  | 0x7 => if b.toInt < old.toInt then b else old
  | 0x8 => if old.toNat < b.toNat then b else old
  | 0x9 => if b.toNat < old.toNat then b else old
  | _ =>
    let lo := (fAdd (old.toNat % 2 ^ 32) (b.toNat % 2 ^ 32)).1
    let hi := (fAdd (old.toNat / 2 ^ 32) (b.toNat / 2 ^ 32)).1
    BitVec.ofNat 64 (hi * 2 ^ 32 + lo)

/-- An atomic at the word's home bank: indivisible, the word unchanged where it fails (R131, R141); write-around does
not allocate. -/
def memAtom (s : State) (a op : Nat) (b c : Word) : State × Except Fail Word :=
  match lineReadIf (policyOf s a != 2) s a 8 with
  | (s, .error f) => (s, .error f)
  | (s, .ok bs) =>
    let old : Word := BitVec.ofNat 64 (leNat bs)
    match lineWrite s a (leBytes 8 (atomOp op old b c).toNat) with
    | (s, some f) => (s, .error f)
    | (s, none) => (s, .ok old)

/-- Status code and address a failure reports to a command (R27, R127, R141). -/
def Fail.status : Fail → Nat
  | .addr _ => 0x0301
  | .grn _ => 0x0301
  | .mem _ => 0x0300
  | .die _ => 0x0401
  | .held _ => 0x0000

def Fail.dpa : Fail → Nat
  | .addr a => a
  | .grn a => a
  | .mem a => a
  | .die a => a
  | .held a => a

/-- The fault cause a failure gives a core thread (R107); STATUS as `causeStatus`, DIE_LOST under REMOTE. -/
def Fail.cause : Fail → Nat
  | .addr _ => cADDR
  | .grn _ => cGRN
  | .mem _ => cMEM
  | .die _ => cREMOTE
  | .held _ => 0

def Fail.cstatus (f : Fail) : Nat :=
  match f with
  | .die _ => 0x0401
  | f => causeStatus f.cause

end Sys2Proof.Machine
end

