-- ==== Sys2Proof/Machine/Xlate.lean ====
section
/-! DEFINITION. Translation at a requester port (R205-R214), walks (R208-R210, R212) and faults
(R220-R224). -/

namespace Sys2Proof.Machine

/-- Why an access does not go on: it waits (a walk or a fault), lacks rights, its link is lost, or its fault
was answered ABORT at once (context 0). -/
inductive XStop where
  | wait
  | rights (dva : Nat)
  | hostLost (dva : Nat)
  | aborted (dva : Nat)
  deriving DecidableEq, Repr

/-- A requester: its FB, its port there, its context and who it is. -/
structure Req where
  fb : Nat
  port : Nat
  ctx : Nat
  agent : Agent
  deriving DecidableEq, Repr

def pageSize (d : SegDesc) : Nat := if d.page = 1 then 2 ^ 31 else 2 ^ 26

def State.seg (s : State) (ctx i : Nat) : Option SegDesc := tget none s.xlt.segs (16 * ctx + i)
def State.setSeg (s : State) (ctx i : Nat) (d : Option SegDesc) : State :=
  { s with xlt := { s.xlt with segs := tset none s.xlt.segs (16 * ctx + i) d } }

/-- The segment that covers a DVA (R205). -/
def findSeg (s : State) (ctx dva : Nat) : Option (Nat × SegDesc) :=
  (List.range 16).findSome? fun i =>
    match s.seg ctx i with
    | some d => if d.base ≤ dva ∧ dva < d.base + d.pages * pageSize d then some (i, d) else none
    | none => none

/-- Whether a VALID page-array entry is well formed (R209). -/
def pteOk (d : SegDesc) (e : Nat) : Bool :=
  bits e 25 1 == 0 && (d.page != 1 || bits e 30 26 == 0) &&
  (d.kind == 1 || (bits e 63 40 == 0 && (isDev (bits e 39 26 * 2 ^ 26) || isScr (bits e 39 26 * 2 ^ 26))))

/-- Whether the segment's rights permit an access: 0 read, 1 write, 2 atomic, 3 fetch (R211). -/
def rightsOk (d : SegDesc) (acc : Nat) : Bool :=
  match acc with
  | 0 => d.r
  | 1 => d.w
  | 2 => d.r && d.w && d.kind == 0
  | _ => d.x

/-- The link a HOST access leaves through (R213). -/
def hostLinkOf (s : State) (d : SegDesc) (fb ctx : Nat) : Nat :=
  let p := if d.port = 2 then (if fb < 2 then 0 else 1) else d.port
  let l := (s.ctx ctx).link
  if tget false s.host.bifurcate p && l % 2 = p then l else p

/-- First-level cache of a port: most recently used first, 64 entries (R212). -/
def l1Of (s : State) (fb port : Nat) : List XEnt := tget [] s.xlt.l1 (512 * fb + port)

def l1Insert (s : State) (fb port : Nat) (e : XEnt) : State :=
  let l := (e :: (l1Of s fb port).filter fun x => x.key ≠ e.key).take 64
  { s with xlt := { s.xlt with l1 := tset [] s.xlt.l1 (512 * fb + port) l } }

/-- A shared cache's entry for a key. -/
def l2Find (s : State) (fb : Nat) (k : XKey) : Option XEnt :=
  s.xlt.l2.findSome? fun e =>
    if e.1 / 4096 = fb then e.2.bind fun x => if x.key = k then some x else none else none

/-- Insert into a set the part chooses, in a free way or one the part chooses (R212). -/
def l2Insert (s : State) (fb : Nat) (e : XEnt) : State :=
  let set := Config.sharedSet e.key.ctx e.key.seg e.key.page % 256
  let slot (w : Nat) : Nat := 4096 * fb + 16 * set + w
  let (s, w) := match (List.range 16).find? fun w => tget none s.xlt.l2 (slot w) = none with
    | some w => (s, w)
    | none => let (s, i) := s.draw; (s, Config.sharedVictim i % 16)
  { s with xlt := { s.xlt with l2 := tset none s.xlt.l2 (slot w) (some e) } }

/-- Walks of an FB in a stage: 0 queued, 1 running, 2 held at the port. -/
def walksIn (s : State) (fb stage : Nat) : Nat :=
  (s.xlt.walks.filter fun w => w.fb = fb && w.stage = stage).length

/-- A walk on `k` runs for every access that waits with that key: queued and held misses on it join (R212). -/
def runWalk (s : State) (fb : Nat) (k : XKey) : State :=
  let mine (x : Walk) : Bool := x.fb = fb && x.key = k
  { s with xlt := { s.xlt with
      walks := s.xlt.walks.filter (fun x => !mine x) ++
        [{ fb := fb, key := k, stage := 1, waiters := (s.xlt.walks.filter mine).flatMap (·.waiters) }]
      walkCount := s.xlt.walkCount + 1 } }

/-- Queued misses take free walkers in arrival order, and held misses enter the queue as its entries free. -/
def walkGo : Nat → State → Nat → State
  | 0, s, _ => s
  | fuel + 1, s, fb =>
    let q (st : Nat) (x : Walk) : Bool := x.fb = fb && x.stage = st
    match s.xlt.walks.find? (q 0) with
    | some w =>
      if walksIn s fb 1 < 16 then walkGo fuel (runWalk s fb w.key) fb
      else if walksIn s fb 0 < 64 && s.xlt.walks.any (q 2) then
        walkGo fuel { s with xlt := { s.xlt with
          walks := replaceFirst (q 2) (fun x => { x with stage := 0 }) s.xlt.walks } } fb
      else s
    | none =>
      if s.xlt.walks.any (q 2) then
        walkGo fuel { s with xlt := { s.xlt with
          walks := replaceFirst (q 2) (fun x => { x with stage := 0 }) s.xlt.walks } } fb
      else s

/-- Walkers or queue entries of an FB have freed. -/
def walkNext (s : State) (fb : Nat) : State := walkGo (2 * s.xlt.walks.length + 1) s fb

/-- A miss: it joins the walk that runs on its key, or takes a walker, waits in the queue, or is held at its port
(R212). -/
def addMiss (s : State) (fb : Nat) (k : XKey) (w : Waiter) : State :=
  let mine (x : Walk) : Bool := x.fb = fb && x.key = k
  if s.xlt.walks.any fun x => mine x && x.waiters.contains w then s
  else if s.xlt.walks.any fun x => mine x && x.stage = 1 then
    { s with
      xlt := { s.xlt with
        walks := replaceFirst (fun x => mine x && x.stage = 1) (fun x => { x with waiters := x.waiters ++ [w] })
          s.xlt.walks } }
  else
    let free := decide (walksIn s fb 1 < 16)
    let st := if free then 1 else if walksIn s fb 0 < 64 then 0 else 2
    { s with
      xlt := { s.xlt with
        walks := s.xlt.walks ++ [{ fb := fb, key := k, stage := st, waiters := [w] }]
        walkCount := s.xlt.walkCount + (if free then 1 else 0) } }

/-! ### Faults -/

/-- REQUESTER, SOURCE and RING_SEQ of a fault record (R222). -/
def requesterOf : Agent → Nat
  | .thread n t => n + 4096 * t
  | .aop n _ => n
  | .chunk _ _ _ _ | .carFlag _ _ _ => 0
  | .cmd r _ => r
  | .mill g => g
  | .image n => n

def sourceOf (fb port : Nat) : Nat :=
  if port < 256 then srcNo fb (0x24 + port / 64) (port % 64)
  else if port < 268 then srcNo fb 0x0F (port - 256)
  else if port = 300 then srcNo fb 0x0E 0
  else srcNo fb 0x0B (port - 320)

/-- Merging of faults (R221): context, segment, page and cause, or context and 64 MiB for NO_SEGMENT. -/
def XFault.same (a b : XFault) : Bool :=
  a.ctx = b.ctx && a.cause = b.cause &&
  (if a.cause = 1 then a.dva / 2 ^ 26 = b.dva / 2 ^ 26 else a.seg = b.seg && a.page = b.page)

/-- A thread whose fault is queued enters XLT_WAIT; an operation waits (R85, R108). -/
def markFaulted (s : State) : Agent → State
  | .thread n t => s.modThr n t fun th =>
      if th.st = .held then (if th.blk.isSome then { th with prev := .xltWait } else th) else { th with st := .xltWait }
  | .aop n id => s.modCore n fun c =>
      { c with aops := c.aops.map fun o => if o.id = id then { o with stage := 2 } else o }
  | .chunk fb car sl _ | .carFlag fb car sl =>
    let c := s.slot fb car sl
    if c.state = 1 then s.setSlot fb car sl { c with state := 2 } else s
  | _ => s

/-- The FAULT_ID of the next new fault: the next in order that no unanswered fault has (R222). -/
def freeId (s : State) : Nat → W32 → W32
  | 0, i => i
  | fuel + 1, i => if s.xlt.faults.any fun f => f.id = i then freeId s fuel (i + 1) else i
def nextFaultId (s : State) : W32 := freeId s (s.xlt.faults.length + 1) s.xlt.nextId

/-- Offer a fault: it joins a queued unanswered fault, enters the 256-entry queue with the next FAULT_ID, or its
engine stays stalled and offers it again (R221, R223, R224). DEDUCED: log entry 56. -/
def offerFault (s : State) (f : XFault) : State :=
  if s.xlt.faults.any f.same then
    let s := { s with
      xlt := { s.xlt with
        faults := replaceFirst f.same (fun x => { x with joined := x.joined ++ f.joined }) s.xlt.faults } }
    f.joined.foldl (fun s w => markFaulted s w.agent) s
  else if s.xlt.fq.length < 256 then
    let f := { f with id := nextFaultId s }
    let s := { s with
      xlt := { s.xlt with
        faults := s.xlt.faults ++ [f], fq := s.xlt.fq ++ [f.id], nextId := f.id + 1 } }
    f.joined.foldl (fun s w => markFaulted s w.agent) s
  else { s with xlt := { s.xlt with offered := s.xlt.offered ++ [f] } }

/-- Take a translation fault (R220-R222). -/
def raiseFault (s : State) (rq : Req) (w : Waiter) (cause seg page : Nat) (off entry : Word) : State :=
  let (s, m) := readMer s rq.fb
  let hostA : Word := if cause = 1 then 0 else BitVec.ofNat 64 w.dva + off
  let rs : W32 := match w.agent with
    | .cmd _ q => q
    | .chunk fb c sl _ | .carFlag fb c sl => (((s.slot fb c sl).job).map (·.seq)).getD 0
    | _ => 0
  let who : Nat := match w.agent with
    | .chunk fb c sl _ | .carFlag fb c sl => (((s.slot fb c sl).job).map (·.ring)).getD 0
    | .aop n id => n + 4096 * ((((s.core n).aops.find? fun o => o.id = id).map (·.t)).getD 0)
    | a => requesterOf a
  let f : XFault := ⟨0, cause, w.acc, rq.ctx, seg, page, sourceOf rq.fb rq.port, who, rs, w.dva, hostA, m,
    entry, [w]⟩
  offerFault s f

/-- A translation fault in context 0 is answered ABORT at once and logged (R220). -/
def ctx0Fault (s : State) (fb dva cause : Nat) : State := ev s 0x0100 fb 0x29 0 dva cause

/-! ### Translating an access -/

/-- A hit: rights, then the host port's link and window (R211, R213, R233). -/
def useEntry (s : State) (rq : Req) (d : SegDesc) (acc dva len entry : Nat) : State × Except XStop Tgt :=
  if !rightsOk d acc then (s, .error (.rights dva))
  else
    let off := (dva - d.base) % pageSize d
    if d.kind = 0 then (s, .ok (.dev (bits entry 39 26 * 2 ^ 26 + off)))
    else
      let l := hostLinkOf s d rq.fb rq.ctx
      let a := bits entry 63 26 * 2 ^ 26 + off
      let k := s.link l
      if !k.up && !k.retraining then (s, .error (.hostLost dva))
      else if !k.busMaster then (s, .error (.hostLost dva))
      else if !winCovers k a len then (s, .error (.rights dva))
      else if acc = 1 then
        ({ s with
           xlt := { s.xlt with
             hostW := if s.xlt.hostW.contains l then s.xlt.hostW else l :: s.xlt.hostW } },
          .ok (.host l a))
      else (s, .ok (.host l a))

/-- Translate bytes `[dva, dva + len)` of one page at a requester port (R210-R213). -/
def xlate (s : State) (rq : Req) (acc dva len : Nat) : State × Except XStop Tgt :=
  match findSeg s rq.ctx dva with
  | none =>
    if rq.ctx = 0 then (ctx0Fault s rq.fb dva 1, .error (.aborted dva))
    else if (s.ctx rq.ctx).state = 0 || (s.ctx rq.ctx).closing then (s, .error (.aborted dva))
    else (raiseFault s rq ⟨rq.agent, acc, dva⟩ 1 0 0 0 0, .error .wait)
  | some (i, d) =>
    let k : XKey := ⟨rq.ctx, i, (dva - d.base) / pageSize d⟩
    match (l1Of s rq.fb rq.port).find? fun e => e.key = k with
    | some e => useEntry (l1Insert s rq.fb rq.port e) rq d acc dva len e.entry
    | none =>
      match l2Find s rq.fb k with
      | some e => useEntry (l1Insert s rq.fb rq.port e) rq d acc dva len e.entry
      | none => (addMiss s rq.fb k ⟨rq.agent, acc, dva⟩, .error .wait)

/-- Translate a range page by page (R212): the pieces with their lengths. -/
def xlateRange : Nat → State → Req → Nat → Nat → Nat → State × Except XStop (List (Tgt × Nat))
  | 0, s, _, _, _, _ => (s, .ok [])
  | fuel + 1, s, rq, acc, dva, n =>
    if n = 0 then (s, .ok [])
    else
      let k := min n (2 ^ 26 - dva % 2 ^ 26)
      match xlate s rq acc dva k with
      | (s, .error e) => (s, .error e)
      | (s, .ok t) =>
        match xlateRange fuel s rq acc (dva + k) (n - k) with
        | (s, .error e) => (s, .error e)
        | (s, .ok ts) => (s, .ok ((t, k) :: ts))

/-- An access that its home held goes on under the translation it was issued with; any other is translated. -/
def XHeld.is (h : XHeld) (a : Agent) (acc dva n : Nat) : Bool :=
  h.agent = a && h.acc = acc && h.dva = dva && h.len = n

def xlateAll (s : State) (rq : Req) (acc dva n : Nat) : State × Except XStop (List (Tgt × Nat)) :=
  match s.xlt.atHome.find? fun h => h.is rq.agent acc dva n with
  | some h => ({ s with xlt := { s.xlt with atHome := s.xlt.atHome.filter fun h => !h.is rq.agent acc dva n } }, .ok h.ts)
  | none => xlateRange (n / 2 ^ 26 + 2) s rq acc dva n

/-- An access waits at its home or its link, with its translation (R218). -/
def holdAt (s : State) (rq : Req) (acc dva n : Nat) (ts : List (Tgt × Nat)) : State :=
  { s with xlt := { s.xlt with
      atHome := (s.xlt.atHome.filter fun h => !h.is rq.agent acc dva n) ++ [⟨rq.agent, acc, dva, n, ts⟩] } }

/-! ### Moving bytes at translated pieces -/

/-- Write pieces in increasing address order; the first failing piece ends it, and a write to a link that retrains waits
(R255). `ro`: host bytes may carry Relaxed Ordering. -/
def writePieces (ro : Bool) : State → List (Tgt × Nat) → List Byte → State × Option Fail
  | s, [], _ => (s, none)
  | s, (.dev a, n) :: ts, bs =>
    match memWrite s a (bs.take n) with
    | (s, some f) => (s, some f)
    | (s, none) => writePieces ro s ts (bs.drop n)
  | s, (.host l a, n) :: ts, bs =>
    if (s.link l).retraining then (s, some (.held a)) else writePieces ro (hostWrite s l ro a (bs.take n)) ts (bs.drop n)

/-- Read pieces: device bytes from their home banks, host bytes from `data`, which the completions of the
outbound reads brought. -/
def readPieces : State → List (Tgt × Nat) → List Byte → State × Except Fail (List Byte)
  | s, [], _ => (s, .ok [])
  | s, (.dev a, n) :: ts, data =>
    match memRead s a n with
    | (s, .error f) => (s, .error f)
    | (s, .ok bs) =>
      match readPieces s ts data with
      | (s, .error f) => (s, .error f)
      | (s, .ok cs) => (s, .ok (bs ++ cs))
  | s, (.host _ _, n) :: ts, data =>
    match readPieces s ts (data.drop n) with
    | (s, .error f) => (s, .error f)
    | (s, .ok cs) => (s, .ok ((data ++ List.replicate n 0).take n ++ cs))

/-- Links of the host pieces. -/
def hostLinks (ts : List (Tgt × Nat)) : List Nat :=
  ts.filterMap fun p => match p.1 with | .host l _ => some l | .dev _ => none

/-- The port and FB of a logical core's accesses (R185, R275). -/
def corePort (n : Nat) : Nat := 64 * (n / 256 % 4) + n % 256 / 4
def coreReq (s : State) (n t : Nat) (a : Agent) : Req :=
  { fb := coreFb n, port := corePort n, ctx := if t = 0 then 0 else (s.core n).ctx, agent := a }
def cmdReq (ring : Nat) (seq : W32) (ctx : Nat) : Req :=
  { fb := ring / 16, port := 300, ctx := ctx, agent := .cmd ring seq }

end Sys2Proof.Machine
end

