-- ==== Sys2Proof/Machine/Reads.lean ====
section
/-! DEFINITION. Outbound reads of host memory (R228, R230) and accesses by an agent: translated, held at their homes,
answered (R210-R213, R217, R218). -/

namespace Sys2Proof.Machine

/-! ### Requests and tags (R228, R267) -/

/-- `n` bytes at host bus address `a` and DVA `v`, cut at multiples of `m`. -/
def readCuts (m : Nat) : Nat → Nat → Nat → Nat → List (Nat × Nat × Nat)
  | 0, _, _, _ => []
  | fuel + 1, a, v, n =>
    if n = 0 then []
    else
      let k := min n (m - a % m)
      (a, v, k) :: readCuts m fuel (a + k) (v + k) (n - k)

/-- A link's Max_Read_Request_Size. -/
def maxRead (l : Nat) : Nat := 2 ^ (7 + (Config.readLog l).val)

/-- Translated pieces with their DVAs. -/
def withDvas : Nat → List (Tgt × Nat) → List (Nat × Tgt × Nat)
  | _, [] => []
  | v, (t, n) :: ts => (v, t, n) :: withDvas (v + n) ts

/-- The requests that read the host pieces, none larger than its link's Max_Read_Request_Size: link, address, DVA,
bytes. -/
def hostReqs (ts : List (Nat × Tgt × Nat)) : List (Nat × Nat × Nat × Nat) :=
  ts.flatMap fun p => match p.2.1 with
    | .host l a => (readCuts (maxRead l) (p.2.2 / 128 + 2) a p.1 p.2.2).map fun c => (l, c)
    | .dev _ => []

/-- Reads that hold a tag of the link. -/
def tagged (k : Link) : Nat := (k.reads.filter fun r => r.tag.isSome).length

/-- The smallest tag a link does not use. -/
def freeTag (k : Link) : Nat :=
  ((List.range (k.reads.length + 1)).find? fun i => !(k.reads.any fun r => r.tag = some i)).getD k.reads.length

/-- Reads that wait take tags in order, as far as the link's 768 go (R228). DESIGN CHOICE: log entry 49. -/
def retagGo : Nat → Link → Link
  | 0, k => k
  | fuel + 1, k =>
    let waits (r : ORead) : Bool := r.tag.isNone && r.got.isNone
    if tagged k + k.zlr.length < 768 && k.reads.any waits then
      retagGo fuel { k with reads := replaceFirst waits (fun r => { r with tag := some (freeTag k) }) k.reads }
    else k

def Link.retag (k : Link) : Link := retagGo k.reads.length k

/-- Tags that have freed are taken. -/
def retagAll (s : State) : State :=
  { s with host := { s.host with links := (tkeys s.host.links).foldl (fun t l => tmod {} t l Link.retag) s.host.links } }

/-- The next place in the order of issue (R275, R285). -/
def State.stamp (s : State) : State × Nat :=
  ({ s with host := { s.host with issued := s.host.issued + 1 } }, s.host.issued)

/-- Issue an access's outbound reads. -/
def askReads (s : State) (rq : Req) (qs : List (Nat × Nat × Nat × Nat)) : State :=
  let (s, at_) := s.stamp
  let s := (List.range qs.length).foldl (fun s i =>
    match qs[i]? with
    | some (l, a, v, n) =>
      let k := s.link l
      s.setLink l { k with reads := k.reads ++ [⟨none, rq.agent, rq.ctx, a, v, n, i, at_, none⟩] }
    | none => s) s
  retagAll s

/-- The reads of an agent's access, on every link. -/
def readsOf (s : State) (who : Agent) : List ORead := s.host.links.flatMap fun e => e.2.reads.filter fun r => r.who = who

/-- What the reads have returned, in the order of the access; none while one is out. -/
def answers (rs : List ORead) : Option (List Byte) :=
  if rs.all fun r => r.got.isSome then
    some ((List.range rs.length).flatMap fun i => (((rs.find? fun r => r.seq = i).bind (·.got)).getD []))
  else none

/-- An agent's reads are over. -/
def readsDone (s : State) (who : Agent) : State :=
  retagAll { s with host := { s.host with
      links := (tkeys s.host.links).foldl (fun t l =>
        tmod {} t l fun k => { k with reads := k.reads.filter fun r => r.who ≠ who }) s.host.links } }

/-- The reads of an agent that are out are answered with `data`, in order; none of them on a link that retrains. -/
def answerGo : List Nat → State → Agent → List Byte → State
  | [], s, _, _ => s
  | i :: is, s, who, data =>
    match (tkeys s.host.links).findSome? fun l =>
        ((s.link l).reads.find? fun r => r.who = who && r.seq = i && r.tag.isSome).map fun r => (l, r) with
    | some (l, r) =>
      let k := s.link l
      if k.retraining then s
      else
        let bs := (data ++ List.replicate r.len 0).take r.len
        let rs := replaceFirst (fun x => x = r) (fun r => { r with tag := none, got := some bs }) k.reads
        answerGo is (s.setLink l { k with reads := rs }) who (data.drop r.len)
    | none => answerGo is s who data

def answerReads (s : State) (who : Agent) (data : List Byte) : State :=
  if data.isEmpty then s else retagAll (answerGo (List.range (readsOf s who).length) s who data)

/-! ### Who waits -/

/-- Whether an agent waits on a walk, a fault, or a read of host memory. -/
def agentWaits (s : State) (a : Agent) : Bool :=
  (s.xlt.walks.any fun w => w.waiters.any fun x => x.agent = a) ||
  (s.xlt.faults.any fun f => f.joined.any fun x => x.agent = a) ||
  (s.xlt.offered.any fun f => f.joined.any fun x => x.agent = a) ||
  (s.host.links.any fun e => e.2.reads.any fun r => r.who = a && r.got.isNone)

/-- Accesses of an invalidation's old epoch that are still in flight (R217): reads that have not been answered, accesses
held at home, chunks not written or not acknowledged. -/
def pruneOld (s : State) : State :=
  let live (e : Nat × Nat × Nat × Nat) : Bool :=
    let k := e.2.2.1
    if k < 100 then (s.link k).reads.any fun r => r.addr = e.2.2.2 && r.got.isNone
    else if k < 200 then
      let c := s.slot e.1 (e.2.1 - 256) (k - 100)
      (c.pend.any fun p => p.k = e.2.2.2) || c.reads.any fun r => r.k = e.2.2.2
    else s.xlt.atHome.any fun h => h.acc = k - 200 && h.dva = e.2.2.2
  { s with xlt := { s.xlt with inval := s.xlt.inval.map fun i => { i with old := i.old.filter live } } }

/-- Agents wait no longer: their places among walks and faults, their reads and what their homes hold are given up; misses
that nothing waits for are withdrawn (R212). -/
def forgetIf (s : State) (p : Agent → Bool) : State :=
  let drop (l : List Waiter) : List Waiter := l.filter fun x => !p x.agent
  let s := { s with
    xlt := { s.xlt with
      walks := (s.xlt.walks.map fun w => { w with waiters := drop w.waiters }).filter fun w =>
        w.stage = 1 || !w.waiters.isEmpty
      faults := s.xlt.faults.map fun f => { f with joined := drop f.joined }
      offered := (s.xlt.offered.map fun f => { f with joined := drop f.joined }).filter fun f => !f.joined.isEmpty
      atHome := s.xlt.atHome.filter fun h => !p h.agent }
    host := { s.host with
      links := (tkeys s.host.links).foldl (fun t l =>
        tmod {} t l fun k => { k with reads := k.reads.filter fun r => !p r.who }) s.host.links } }
  pruneOld (retagAll ((List.range 4).foldl walkNext s))

def forget (s : State) (a : Agent) : State := forgetIf s fun b => b = a

/-! ### Zero-length reads (R276) -/

/-- No repeats, in order. -/
def addLinks (a b : List Nat) : List Nat := b.foldl (fun xs l => if xs.contains l then xs else xs ++ [l]) a

/-- Issue a zero-length read on each link, for `who`. -/
def issueZlr (s : State) (who : ZWho) (ls : List Nat) : State :=
  ls.foldl (fun s l => let k := s.link l; s.setLink l { k with zlr := k.zlr ++ [who] }) s

/-- Links that carry a zero-length read now: on a lost link it counts as completed (R217, R256). -/
def zlrLinks (s : State) (ls : List Nat) : List Nat :=
  ls.filter fun l => ((s.link l).up || (s.link l).retraining) && (s.link l).busMaster

/-- Drop the zero-length reads of an agent. -/
def dropZlr (s : State) (p : ZWho → Bool) : State :=
  retagAll { s with host := { s.host with
      links := (tkeys s.host.links).foldl (fun t l =>
        tmod {} t l fun k => { k with zlr := k.zlr.filter fun w => !p w }) s.host.links } }

/-! ### Accesses -/

/-- What an access of an agent came to. -/
inductive Acc where
  /-- done: the bytes read; the links written -/
  | done (s : State) (data : List Byte) (links : List Nat)
  /-- it waits: for a walk, a fault, a read of host memory, its home or its link -/
  | waits (s : State)
  | stops (s : State) (e : XStop)
  | fails (s : State) (f : Fail)

/-- Read translated pieces: host bytes are what the agent's outbound reads return, which issue where none is out. -/
def readAt (s : State) (rq : Req) (acc dva n : Nat) (ts : List (Tgt × Nat)) : Acc :=
  let rs := readsOf s rq.agent
  if rs.isEmpty && !(hostLinks ts).isEmpty then
    .waits (askReads (holdAt s rq acc dva n ts) rq (hostReqs (withDvas dva ts)))
  else
    match answers rs with
    | none => .waits (holdAt s rq acc dva n ts)
    | some data =>
      match readPieces s ts data with
      | (s, .error (.held _)) => .waits (holdAt s rq acc dva n ts)
      | (s, .error f) => .fails (readsDone s rq.agent) f
      | (s, .ok bs) => .done (readsDone s rq.agent) bs []

/-- An agent reads bytes at a DVA: `acc` 0 a read, 3 a fetch. -/
def accessRead (s : State) (rq : Req) (acc dva n : Nat) : Acc :=
  match xlateAll s rq acc dva n with
  | (s, .error .wait) => .waits s
  | (s, .error e) => .stops s e
  | (s, .ok ts) => readAt s rq acc dva n ts

/-- An agent writes bytes at a DVA, in increasing address order (R250). -/
def accessWrite (ro : Bool) (s : State) (rq : Req) (dva : Nat) (bs : List Byte) : Acc :=
  match xlateAll s rq 1 dva bs.length with
  | (s, .error .wait) => .waits s
  | (s, .error e) => .stops s e
  | (s, .ok ts) =>
    match writePieces ro s ts bs with
    | (s, some (.held _)) => .waits (holdAt s rq 1 dva bs.length ts)
    | (s, some f) => .fails s f
    | (s, none) => .done s [] (hostLinks ts)

/-- What a poll's read of host memory returned: nothing yet, an answer of Unsupported Request or Completer Abort, a word. -/
inductive HostVal where
  | none
  | refused
  | word (v : Word)
  deriving DecidableEq, Repr

def HostVal.of : Option Word → HostVal
  | .none => .refused
  | .some v => .word v

/-- A poll of an 8-byte word through its home (R285): a host word is what the poll's read returned. -/
def pollRead (s : State) (rq : Req) (dva : Nat) (h : HostVal) : Acc :=
  match xlateAll s rq 0 dva 8 with
  | (s, .error .wait) => .waits s
  | (s, .error e) => .stops s e
  | (s, .ok ts) =>
    match (hostLinks ts).head?, h with
    | some l, .word v => if (s.link l).retraining then .waits s else .done s (leBytes 8 v.toNat) []
    | some l, .refused => if (s.link l).retraining then .waits s else .stops s (.rights dva)
    | some _, .none => .waits s
    | none, _ => readAt s rq 0 dva 8 ts

/-- An agent's atomic at a DVA (R131): the old word; none in a HOST segment. -/
def accessAtom (s : State) (rq : Req) (dva op : Nat) (b c : Word) : Acc :=
  match xlateAll s rq 2 dva 8 with
  | (s, .error .wait) => .waits s
  | (s, .error e) => .stops s e
  | (s, .ok ts) =>
    match ts with
    | [(.dev x, _)] =>
      match memAtom s x op b c with
      | (s, .error (.held _)) => .waits (holdAt s rq 2 dva 8 ts)
      | (s, .error f) => .fails s f
      | (s, .ok old) => .done s (leBytes 8 old.toNat) []
    | _ => .stops s (.rights dva)

end Sys2Proof.Machine
end

