-- ==== Sys2Proof/Machine/Complete.lean ====
section
/-! DEFINITION. Status codes, commands in flight and their completion (R12, R13, R241, R252, R253), and what a FENCE
command waits for (R249, R284). -/

namespace Sys2Proof.Machine

/-! ### Status codes (R12) -/

def stDONE : Nat := 0x0000
def stBADPARAM : Nat := 0x0102
def stRESOURCE : Nat := 0x0104
def stABORTED : Nat := 0x0200
def stRIGHTS : Nat := 0x0201
def stHOSTLOST : Nat := 0x0400
def stDIELOST : Nat := 0x0401
def stTIMEOUT : Nat := 0x0600

/-! ### In flight -/

def State.cmd? (s : State) (ring : Nat) (seq : W32) : Option Cmd :=
  s.host.inflight.find? fun c => c.ring = ring && c.seq = seq

def State.modCmd (s : State) (ring : Nat) (seq : W32) (f : Cmd → Cmd) : State :=
  { s with host := { s.host with
      inflight := s.host.inflight.map fun c => if c.ring = ring && c.seq = seq then f c else c } }

/-- Forget what a command still had to do. -/
def unpark (s : State) (ring : Nat) (seq : W32) : State :=
  { s with host := { s.host with parked := s.host.parked.filter fun e => !(e.1 = ring && e.2.1 = seq) } }

/-- Complete a command (R243 COMPL, R252): its record joins those of its completion ring, in completion order. -/
def finish (s : State) (ring : Nat) (seq : W32) (status d16 d32 d64 : Nat) : State :=
  match s.cmd? ring seq with
  | none => s
  | some c =>
    let s := unpark { s with host := { s.host with
      inflight := s.host.inflight.filter fun x => !(x.ring = ring && x.seq = seq) } } ring seq
    let s := if status = stDIELOST then s.stopCtx c.ctx else s
    let want := c.compl ≠ 0 || status ≠ stDONE
    if want && !s.iso (ring / 16) then
      let r : Rec := ⟨ring, c.op, seq, status, d16, d32 % 2 ^ 32, d64, c.tag, c.compl ≠ 1⟩
      let q := (s.ring ring).cq
      { s with host := { s.host with held := tset [] s.host.held q (tget [] s.host.held q ++ [r]) } }
    else s

/-- Complete with a status and an address alone. -/
def finishSt (s : State) (ring : Nat) (seq : W32) (status d64 : Nat) : State := finish s ring seq status 0 0 d64

/-- BELL commands that wait on a group (R249): they complete once their sequence has been released to every member, with
the group's status once it is FAULTED, BAD_PARAM once it is destroyed (DEDUCED, log entry 64). -/
def bellCheck (s : State) (gi : Nat) : State :=
  let g := s.group gi
  s.host.parked.foldl (fun s e =>
    match e.2.2 with
    | .bell i q =>
      if i ≠ gi then s
      else if g.state = 0 then finishSt s e.1 e.2.1 stBADPARAM 0
      else if g.state = 3 then finishSt s e.1 e.2.1 g.status 0
      else if 0 < (g.nextBell - q).toInt then finishSt s e.1 e.2.1 stDONE 0
      else s
    | _ => s) s

/-! ### Visibility of a command's writes (R253, R276, R284) -/

/-- Complete DONE; ATTEST reports its bytes in DETAIL32 (R378), which `addr` of its entry holds. -/
def doneCmd (s : State) (ring : Nat) (seq : W32) : State :=
  match s.cmd? ring seq with
  | none => s
  | some c => finish s ring seq stDONE 0 (if c.op = 0x80 then c.addr else 0) 0

/-- A command's writes have been performed: it completes at its class's point (R253, R276). -/
def settleCmd (s : State) (c : Cmd) (links : List Nat) : State :=
  let r := s.ring c.ring
  let s := s.setRing c.ring { r with hostLinks := addLinks r.hostLinks links }
  let zs := zlrLinks s (addLinks [] links)
  if c.vis = 2 ∧ zs ≠ [] then
    issueZlr (s.modCmd c.ring c.seq fun x => { x with links := zs }) (.cmd c.ring c.seq) zs
  else doneCmd s c.ring c.seq

/-- Hold a command with what it still has to do. -/
def park (s : State) (c : Cmd) (j : CmdJob) : State :=
  let s := unpark s c.ring c.seq
  { s with host := { s.host with parked := s.host.parked ++ [(c.ring, c.seq, j)] } }

/-- A remote write or atomic of an earlier launch of the ring has not reached the point of class `vis` (R276). -/
def fenceOut (s : State) (ring vis : Nat) : Bool :=
  s.fab.reqs.any fun r => r.ring = some ring && (r.pkt.type = 0x01 || r.pkt.type = 0x03) &&
    (vis = 2 || decide (r.st < 2 + vis))

/-- A FENCE command: it waits for the remote writes of its ring's earlier launches, then, at GLOBAL, for a zero-length
read on each link that its ring's commands wrote (R284). DEDUCED: log entry 58. -/
def fenceGo (s : State) (c : Cmd) : State :=
  if fenceOut s c.ring c.vis then park s c .fence
  else settleCmd (unpark s c.ring c.seq) c (s.ring c.ring).hostLinks

/-- FENCE commands that wait on remote writes look again. -/
def fenceCheck (s : State) : State :=
  s.host.parked.foldl (fun s e =>
    match e.2.2, s.cmd? e.1 e.2.1 with
    | .fence, some c => fenceGo s c
    | _, _ => s) s

end Sys2Proof.Machine
end

