-- ==== Sys2Proof/Machine/Operands.lean ====
section
/-! DEFINITION. Operand forms of the core instructions (R80, R81, R93): registers, lanes, local store and
instruction store. -/

namespace Sys2Proof.Machine

/-- Scalar register, vector register, predicate register (p0 reads as all ones, R81), tally counter. -/
def Thread.rs (t : Thread) (i : Nat) : Word := tget 0 t.s (i % 64)
def Thread.rv (t : Thread) (i : Nat) : VReg := tget 0 t.v (i % 16)
def Thread.rp (t : Thread) (i : Nat) : Word := if i % 8 = 0 then BitVec.allOnes 64 else tget 0 t.p (i % 8)
def Thread.rc (t : Thread) (i : Nat) : W32 := tget 0 t.cnt (i % 8)

def Thread.ws (t : Thread) (i : Nat) (x : Word) : Thread := { t with s := tset 0 t.s (i % 64) x }
def Thread.wv (t : Thread) (i : Nat) (x : VReg) : Thread := { t with v := tset 0 t.v (i % 16) x }
/-- Writes to p0 are discarded (R81). -/
def Thread.wp (t : Thread) (i : Nat) (x : Word) : Thread :=
  if i % 8 = 0 then t else { t with p := tset 0 t.p (i % 8) x }
def Thread.wc (t : Thread) (i : Nat) (x : W32) : Thread := { t with cnt := tset 0 t.cnt (i % 8) x }

/-! ### Lanes (R80, R92) -/

def lane (v : VReg) (i : Nat) : Nat := (v.toNat >>> (32 * i)) % 2 ^ 32
def lanes (v : VReg) : List Nat := (List.range 64).map (lane v)
def ofLanes (l : List Nat) : VReg := BitVec.ofNat 2048 (packBits 32 l)
def laneOn (p : Word) (i : Nat) : Bool := p.getLsbD i

/-- Write the enabled lanes of a result over the old register. -/
def maskLanes (p : Word) (old new : VReg) : VReg :=
  ofLanes ((List.range 64).map fun i => if laneOn p i then lane new i else lane old i)

/-! ### Local store (R83, R84, R434) -/

def lsTop : Nat := 0x40000
def monLs : Nat := 0x3E000

/-- A kernel thread's range `[a, a + n)` reaches the monitor region of local store (R83). -/
def inMon (t a n : Nat) : Bool := t != 0 && decide (monLs < a + n) && decide (a < lsTop) && n != 0

/-- The same of `rows` rows of `n` bytes, `pitch` apart. -/
def rowsInMon (t a rows pitch n : Nat) : Bool := t != 0 && (List.range rows).any fun r => inMon t (a + r * pitch) n

/-- The first word of a range that is uncorrectable. -/
def badWord (tb : Tbl Bool) (a n : Nat) : Option Nat :=
  if n = 0 then none
  else ((List.range ((a + n - 1) / 8 - a / 8 + 1)).map (a / 8 + ·)).find? fun w => tget false tb w

/-- Read local-store bytes, or the address of the uncorrectable word that fails the read. -/
def lsRead (c : Core) (a n : Nat) : Except Nat (List Byte) :=
  match badWord c.lsBad a n with
  | some w => .error (8 * w)
  | none => .ok (Memory.readN c.ls a n)

/-- Write local-store bytes: a word covered whole takes fresh check bits; a partly covered uncorrectable
word fails, with the words before it written and none after (R434). -/
def lsWrite (c : Core) (a : Nat) (bs : List Byte) : Core × Option Nat :=
  let n := bs.length
  let whole (w : Nat) : Bool := decide (a ≤ 8 * w) && decide (8 * w + 8 ≤ a + n)
  let ws := if n = 0 then [] else (List.range ((a + n - 1) / 8 - a / 8 + 1)).map (a / 8 + ·)
  match ws.find? fun w => tget false c.lsBad w && !whole w with
  | some w =>
    let k := 8 * w - a
    ({ c with
       ls := Memory.writeN c.ls a (bs.take k)
       lsBad := (ws.filter fun x => decide (x < w)).foldl (fun b x => tset false b x false) c.lsBad },
      some (8 * w))
  | none =>
    ({ c with
       ls := Memory.writeN c.ls a bs
       lsBad := ws.foldl (fun b x => if whole x then tset false b x false else b) c.lsBad }, none)

/-- Log LOCAL_UNC of a core (R434). -/
def logLocal (s : State) (n a : Nat) : State := ev s 0x0202 (coreFb n) (coreBlock n) (n % 256) n a

end Sys2Proof.Machine
end

