-- ==== Sys2Proof/Machine/Flags.lean ====
section
/-! DEFINITION. FLG, the sticky flag register (R82): every conversion, TMMA and readout ORs its flags in. -/

namespace Sys2Proof.Machine

/-- OR flags into a thread's FLG. -/
def Thread.orFlg (t : Thread) (f : Flg) : Thread := { t with flg := t.flg ||| f }

/-- FLG as RDFLG reads it: bits [63:6] zero. -/
def Thread.flgWord (t : Thread) : Word := t.flg.setWidth 64

/-- Lane results with their flags: only enabled lanes raise flags (R92). -/
def lanesFlags (p : Word) (rs : List (Nat × Flg)) : Flg :=
  ((List.range 64).zip rs).foldl (fun f e => if laneOn p e.1 then f ||| e.2.2 else f) 0

end Sys2Proof.Machine
end

