-- ==== Sys2Proof/Machine/Issue.lean ====
section
/-! DEFINITION. Issue of one core instruction (R83, R85, R92, R94, R105, R435): the frame that every core
instruction's meaning runs in, precise faults in the order of R435, asynchronous operations (R89-R91) and
the waking of threads. -/

namespace Sys2Proof.Machine

/-- What an instruction's own effect is, before the frame moves the program counter. -/
inductive Res where
  /-- retires; the program counter goes on by 8 -/
  | done (s : State)
  /-- retires; the program counter becomes a target, given without wrapping (R83) -/
  | jump (s : State) (target : Int)
  /-- does not retire: it waits, or the thread is STALLED -/
  | stay (s : State)
  /-- ends the thread's program: EXIT and ECALL -/
  | leave (s : State)
  /-- a precise fault found at issue or in execution: the state carries what is not the thread's (events) -/
  | fault (s : State) (cause status addr : Nat)

/-- One issue-time check: it is broken, its cause, its address. -/
abbrev Check := Bool × Nat × Nat

/-- The cause reported first (R435): ILLEGAL, PRIV, TILE, FORMAT, ALIGN, ADDR, REACH. -/
def causeRank (c : Nat) : Nat :=
  if c = cILLEGAL then 0 else if c = cPRIV then 1 else if c = cTILE then 2 else if c = cFORMAT then 3
  else if c = cALIGN then 4 else if c = cADDR then 5 else if c = cREACH then 6 else 7

def firstCheck (cs : List Check) : Option (Nat × Nat) :=
  ((cs.filter (·.1)).foldl (fun (b : Option (Nat × Nat)) c =>
    match b with
    | none => some c.2
    | some x => if causeRank c.2.1 < causeRank x.1 then some c.2 else b) none)

/-- A program counter a thread may go to (R83): a kernel's range, or the whole store for thread 0. -/
def pcOk (t : Nat) (x : Int) : Bool :=
  if t = 0 then decide (0 ≤ x ∧ x ≤ 0xFFFF) else decide (0x4000 ≤ x ∧ x ≤ 0xFFFF)

/-- The cause of a program counter outside: PRIV for kernels, ILLEGAL for thread 0 (R83). -/
def pcCause (t : Nat) : Nat := if t = 0 then cILLEGAL else cPRIV

/-- The instruction retires; a hold asked for during an access takes effect (R104). DEDUCED: log entry 29. -/
def retire (th : Thread) : Thread :=
  { th with
    st := if th.holdReq then .held else .ready
    prev := if th.holdReq then .ready else th.prev
    wait := .nothing, blk := none, holdReq := false, pc := th.pc + 8 }

/-- The frame of a core instruction: the thread must be READY; a pending deferred fault is taken at this
boundary instead (R106); an instruction outside the vector group whose predicate bit is 0 retires without
effect (R92); then the issue-time checks in the order of R435, the next program counter among them (R83),
and the effect. `vec` marks vector-group instructions other than VEXT. -/
def coreStep (n t pr : Nat) (vec : Bool) (checks : State → List Check) (eff : State → Res) (s : State) : Out :=
  let th := s.thr n t
  if th.st ≠ .ready then .next s -- thread not READY
  else if th.dfr.isSome then .next (takeDeferred s n t)
  else if !vec && !(th.rp pr).getLsbD 0 then .next (s.modThr n t retire)
  else
    let r := match firstCheck (checks s) with
      | some (c, a) => Res.fault s c 0 a
      | none => eff s
    let bad (x : Int) : Option Int := if pcOk t x then none else some x
    let out := match eff s with
      | .jump _ x => bad x
      | _ => bad (th.pc.toNat + 8)
    match r, out with
    | .fault s' c st a, o =>
      if o.isSome && causeRank (pcCause t) < causeRank c then
        .next (takeFault s n t (pcCause t) 0 (BitVec.ofInt 64 (o.getD 0)))
      else .next (takeFault s' n t c st (BitVec.ofNat 64 a))
    | _, some x => .next (takeFault s n t (pcCause t) 0 (BitVec.ofInt 64 x))
    | .done s', none => .next (s'.modThr n t retire)
    | .jump s' x, none => .next (s'.modThr n t fun th => { (retire th) with pc := BitVec.ofInt 16 x })
    | .stay s', none => .next s'
    | .leave s', none => .next s'

/-- A scalar or vector effect on the issuing thread alone. -/
def pure_ (n t : Nat) (f : Thread → Thread) (s : State) : Res := .done (s.modThr n t f)

/-! ### Waiting -/

/-- The thread waits with an instruction that has not retired. -/
def block (s : State) (n t : Nat) (w : TWaitFor) (i : Option Blk) : State :=
  s.modThr n t fun th => { th with
    st := if th.st = .xltWait then .xltWait else .waiting
    wait := w, blk := i }

/-- (c − n) modulo 2^32 read as signed is at least zero (R90). -/
def reached (c v : W32) : Bool := decide (0 ≤ (c - v).toInt)

/-- STALLED threads of a core try again once a resource frees (R85). -/
def unstall (c : Core) : Core :=
  { c with
    thr := (List.range 16).foldl (fun tb t =>
      let th : Thread := tget {} tb t
      if th.st = .stalled then tset {} tb t { th with st := .ready }
      else if th.st = .held ∧ th.prev = .stalled then tset {} tb t { th with prev := .ready }
      else tb) c.thr }

/-- The thread's operations in flight; a tensor operation only while in its queue (R91). -/
def inSlot (c : Core) (o : AOp) : Bool :=
  match o.kind with
  | .tmma _ _ _ _ _ _ _ | .trd _ _ _ _ _ _ _ _ | .tlda _ _ _ _ | .tsave _ _ | .tload _ _ =>
    c.tq.contains o.id || c.rq.contains o.id
  | .pref _ => false
  | _ => true

def opsOf (c : Core) (t : Nat) : Nat := (c.aops.filter fun o => o.t = t && inSlot c o).length
def opsAll (c : Core) : Nat := (c.aops.filter (inSlot c)).length

/-- Issue an asynchronous operation, or stall the thread for want of a slot (R91). -/
def startOp (n t k : Nat) (kind : AKind) (s : State) : Res :=
  let c := s.core n
  if opsOf c t ≥ 16 ∨ opsAll c ≥ 128 then .stay (s.modThr n t fun th => { th with st := .stalled })
  else
    let o : AOp := ⟨c.nextId, t, (c.thread t).pc.toNat, k, kind, 0, 0, [], []⟩
    .done (s.setCore n { c with aops := c.aops ++ [o], nextId := c.nextId + 1 })

/-- Whether an operation of a thread has not sent all its data, or waits at GLOBAL for its zero-length reads, or a remote
packet of the thread has yet to reach its point for class `vis` (R276). -/
def opsPending (s : State) (n t vis : Nat) : Bool :=
  ((s.core n).aops.any fun o => o.t = t &&
    (match o.kind with
     | .cpout _ _ _ _ _ _ _ => o.stage != 1 || vis == 2
     | .rput _ _ _ _ | .ratom _ _ _ _ _ | .xsend _ _ _ => o.stage != 1
     | _ => false)) ||
  (s.fab.reqs.any fun r => r.n = n && r.t = t && !r.dead && r.pkt.type != 0x02 &&
    (vis == 2 || decide (r.st < 2 + vis)))

/-- Whether an earlier write of a thread has yet to reach its point for class `vis` (R276, R283): an operation, a packet,
or at GLOBAL a host write not yet followed by a zero-length read. -/
def writesPending (s : State) (n t vis : Nat) : Bool :=
  opsPending s n t vis || (vis == 2 && !(s.thr n t).hostLinks.isEmpty)

/-- Waiting threads of a core whose condition holds go on (R90, R283, EXIT of R85). -/
def wakeThread (pend : Nat → Nat → Bool) (c : Core) (t : Nat) : Core :=
  let th := c.thread t
  if th.st ≠ .waiting then c
  else
    match th.wait with
    | .twait k v => if reached (th.rc k) v then c.setThread t (retire th) else c
    | .fence vis => if pend t vis then c else c.setThread t (retire th)
    | .exiting =>
      if th.dfr.isSome || c.aops.any fun o => o.t = t && !(match o.kind with | .pref _ => true | _ => false) then c
      else c.setThread t { th with st := .off, wait := .nothing }
    | _ => c

/-- Stalled threads try again, and waits that have ended end. -/
def wake (s : State) (n : Nat) : State :=
  s.modCore n fun c => (List.range 16).foldl (wakeThread (writesPending s n)) (unstall c)

/-! ### Tiles (R56-R58) -/

def Core.tile (c : Core) (k : Nat) : Tile := tget {} c.tiles k
def Core.setTile (c : Core) (k : Nat) (x : Tile) : Core := { c with tiles := tset {} c.tiles k x }

/-- The tile an operation names. -/
def tileOf : AKind → Option Nat
  | .tmma tl _ _ _ _ _ _ => some tl
  | .trd tl _ _ _ _ _ _ _ => some tl
  | .tlda tl _ _ _ => some tl
  | .tsave tl _ => some tl
  | .tload tl _ => some tl
  | _ => none

/-- An operation issued before `id` that names the tile and has not taken effect (R57). -/
def tilePending (c : Core) (tl id : Nat) : Bool :=
  c.aops.any fun o => tileOf o.kind = some tl && decide (o.id < id) && o.stage != 3

/-- A release takes effect once nothing earlier is pending (R56). -/
def settle (c : Core) (tl : Nat) : Core :=
  let x := c.tile tl
  match x.releasing with
  | some id => if tilePending c tl id then c else unstall (c.setTile tl { x with releasing := none, owner := none })
  | none => c

def settleAll (c : Core) : Core := (tkeys c.tiles).foldl settle c

/-- Remove an operation; a release that waited for it takes effect. -/
def dropOp (c : Core) (id : Nat) : Core :=
  settleAll { c with
    aops := c.aops.filter fun o => o.id ≠ id
    tq := c.tq.filter (· ≠ id)
    rq := c.rq.filter (· ≠ id) }

/-- An operation has had all its effects: one count on its counter, its flags before it, and whoever waits
goes on (R82, R89). -/
def countOp (s : State) (n : Nat) (o : AOp) (f : Flg) : State :=
  wake (s.modCore n fun c =>
    let c := dropOp c o.id
    let th := (c.thread o.t).orFlg f
    c.setThread o.t (th.wc o.k (th.rc o.k + 1))) n

/-- Waits that a deferred fault ends (the case under R106). DEDUCED, log entry 162: every wait but an access's own, WAITEV and
the end of a step. -/
def endedByFault (th : Thread) : Bool :=
  th.st = .waiting &&
  (match th.wait with
   | .access | .nothing | .event _ => false
   | _ => true)

/-- A failed operation: no count; the fault is taken at the thread's next boundary, which a thread that
waits has already reached (R106). -/
def failOp (s : State) (n : Nat) (o : AOp) (cause status addr : Nat) : State :=
  let s := s.modCore n fun c =>
    let c := dropOp c o.id
    unstall (c.setThread o.t (noteDeferred (c.thread o.t) o.id cause status o.pc addr))
  if endedByFault (s.thr n o.t) then
    let s := s.modCore n fun c => { c with
      arrived := c.arrived.filter fun e => e.1 ≠ o.t, passed := c.passed.filter fun e => e.1 ≠ o.t }
    takeDeferred s n o.t
  else s

end Sys2Proof.Machine
end

