-- ==== Sys2Proof/Machine/MemGroup.lean ====
section
/-! DEFINITION. Memory group (GRP 0x3): R98-R100, R131, R211, R278, R434, R437. -/

namespace Sys2Proof.Machine

/-- Bytes of an access size code (R98). -/
def sizeBytes (z : Nat) : Nat := 2 ^ z

/-- Why a synchronous access does not go on (R108, R211). -/
def stopAccess (s : State) (n t : Nat) (i : Blk) : XStop → Res
  | .wait => .stay (block s n t .access (some i))
  | .rights a => .fault s cRIGHTS 0x0201 a
  | .hostLost a => .fault s cHOST 0x0400 a
  | .aborted a => .fault s cABORTED 0x0200 a

/-- A synchronous access goes on to `ok`, waits with its instruction, or faults (R127, R141, R211); an access that a sweep,
a repair or a retrain holds waits as well (R122, R142, R149). -/
def accRes (n t : Nat) (i : Blk) (dva : Nat) (ok : State → List Byte → List Nat → Res) : Acc → Res
  | .done s bs ls => ok s bs ls
  | .waits s => .stay (block s n t .access (some i))
  | .stops s e => stopAccess s n t i e
  | .fails s f => .fault s f.cause f.cstatus dva

/-- LDS (R98). -/
def execLds (n t pr d a size : Nat) (s : State) : Out :=
  coreStep n t pr false
    (fun s => let v := ((s.thr n t).rs a).toNat
      [(decide (3 < size), cILLEGAL, 0), (inMon t v (sizeBytes size), cPRIV, v),
       (v % sizeBytes size != 0 || decide (lsTop < v + sizeBytes size), cALIGN, v)])
    (fun s => let v := ((s.thr n t).rs a).toNat
      match lsRead (s.core n) v (sizeBytes size) with
      | .error e => .fault (logLocal s n e) cLOCAL 0 e
      | .ok bs => .done (s.modThr n t fun th => th.ws d (BitVec.ofNat 64 (leNat bs)))) s

/-- STS (R98). -/
def execSts (n t pr a b size : Nat) (s : State) : Out :=
  coreStep n t pr false
    (fun s => let v := ((s.thr n t).rs a).toNat
      [(decide (3 < size), cILLEGAL, 0), (inMon t v (sizeBytes size), cPRIV, v),
       (v % sizeBytes size != 0 || decide (lsTop < v + sizeBytes size), cALIGN, v)])
    (fun s => let v := ((s.thr n t).rs a).toNat
      match lsWrite (s.core n) v (leBytes (sizeBytes size) ((s.thr n t).rs b).toNat) with
      | (_, some e) => .fault (logLocal s n e) cLOCAL 0 e
      | (c, none) => .done (s.setCore n c)) s

/-- LDV (R98): 256 bytes. -/
def execLdv (n t pr d a : Nat) (s : State) : Out :=
  coreStep n t pr false
    (fun s => let v := ((s.thr n t).rs a).toNat
      [(inMon t v 256, cPRIV, v), (v % 32 != 0 || decide (lsTop < v + 256), cALIGN, v)])
    (fun s => let v := ((s.thr n t).rs a).toNat
      match lsRead (s.core n) v 256 with
      | .error e => .fault (logLocal s n e) cLOCAL 0 e
      | .ok bs => .done (s.modThr n t fun th => th.wv d (BitVec.ofNat 2048 (leNat bs)))) s

/-- Write the enabled lanes of a vector to local store, lane by lane (R98, R434). -/
def storeLanes (p : Word) (v : VReg) (a : Nat) : List Nat → Core → Core × Option Nat
  | [], c => (c, none)
  | i :: is, c =>
    if laneOn p i then
      -- two lanes that fill one 8-byte word store it whole
      if i % 2 = 0 && laneOn p (i + 1) && a % 8 = 0 then
        match lsWrite c (a + 4 * i) (leBytes 8 (lane v i + 2 ^ 32 * lane v (i + 1))) with
        | (c, some e) => (c, some e)
        | (c, none) => storeLanes p v a is c
      else if i % 2 = 1 && laneOn p (i - 1) && a % 8 = 0 then storeLanes p v a is c
      else
        match lsWrite c (a + 4 * i) (leBytes 4 (lane v i)) with
        | (c, some e) => (c, some e)
        | (c, none) => storeLanes p v a is c
    else storeLanes p v a is c

/-- STV (R92, R98; DEDUCED, log entry 31): acts if bit 0 of pPR is 1, and then writes the enabled lanes. DEDUCED, log entry 159:
the checks take all 256 bytes, whatever lanes are masked. -/
def execStv (n t pr a b : Nat) (s : State) : Out :=
  coreStep n t pr false
    (fun s => let v := ((s.thr n t).rs a).toNat
      [(inMon t v 256, cPRIV, v), (v % 32 != 0 || decide (lsTop < v + 256), cALIGN, v)])
    (fun s => let th := s.thr n t
      match storeLanes (th.rp pr) (th.rv b) (th.rs a).toNat (List.range 64) (s.core n) with
      | (_, some e) => .fault (logLocal s n e) cLOCAL 0 e
      | (c, none) => .done (s.setCore n c)) s

/-! ### Global accesses -/

/-- A thread's host write has been transmitted; at GLOBAL it waits for a zero-length read (R276, R278). -/
def hostStored (s : State) (n t vis : Nat) : List Nat → Res
  | [] => .done s
  | l :: _ =>
    if vis = 2 then
      let k := s.link l
      .stay (block (s.setLink l { k with zlr := k.zlr ++ [.thread n t] }) n t .access none)
    else .done (s.modThr n t fun th =>
      { th with hostLinks := if th.hostLinks.contains l then th.hostLinks else l :: th.hostLinks })

/-- Issue-time checks of a global access: DVA bits [63:56] (R205) and alignment (R98). -/
def dvaChecks (v size : Nat) : List Check := [(v % size != 0, cALIGN, v), (decide (2 ^ 56 ≤ v), cADDR, v)]

/-- LDG (R98, R211). -/
def execLdg (n t pr d a size : Nat) (s : State) : Out :=
  coreStep n t pr false
    (fun s => (decide (3 < size), cILLEGAL, 0) :: dvaChecks ((s.thr n t).rs a).toNat (sizeBytes size))
    (fun s => let v := ((s.thr n t).rs a).toNat
      accRes n t (.ldg pr d a size) v
        (fun s bs _ => .done (s.modThr n t fun th => th.ws d (BitVec.ofNat 64 (leNat bs))))
        (accessRead s (coreReq s n t (.thread n t)) 0 v (sizeBytes size))) s

/-- STG (R98, R278): retires at the visibility point of its class. -/
def execStg (n t pr a b size vis : Nat) (s : State) : Out :=
  coreStep n t pr false
    (fun s => (decide (3 < size) || decide (2 < vis), cILLEGAL, 0) ::
      dvaChecks ((s.thr n t).rs a).toNat (sizeBytes size))
    (fun s => let v := ((s.thr n t).rs a).toNat
      accRes n t (.stg pr a b size vis) v (fun s _ ls => hostStored s n t vis ls)
        (accessWrite true s (coreReq s n t (.thread n t)) v
          (leBytes (sizeBytes size) ((s.thr n t).rs b).toNat))) s

/-- ATOM (R131, R211): in a HOST segment it takes XLT_RIGHTS whatever the rights. -/
def execAtom (n t pr d a b c op vis : Nat) (s : State) : Out :=
  coreStep n t pr false
    (fun s => (decide (10 < op) || decide (2 < vis), cILLEGAL, 0) :: dvaChecks ((s.thr n t).rs a).toNat 8)
    (fun s => let th := s.thr n t
      let v := (th.rs a).toNat
      accRes n t (.atom pr d a b c op vis) v
        (fun s bs _ => .done (s.modThr n t fun th => th.ws d (BitVec.ofNat 64 (leNat bs))))
        (accessAtom s (coreReq s n t (.thread n t)) v op (th.rs b) (th.rs c))) s

/-- Issue-time checks of one- and two-dimensional copies (R98, R99), each with its address (R435). -/
def copyChecks (t ls dva len rows pitch : Nat) (stride : Int) (vis : Nat) (two : Bool) : List Check :=
  let top := if t = 0 then lsTop else monLs
  let last := ls + (rows - 1) * pitch + len
  let lo : Int := dva + (if stride < 0 then ((rows : Int) - 1) * stride else 0)
  let hi : Int := dva + len + (if stride < 0 then 0 else ((rows : Int) - 1) * stride)
  let lenBad := len % 32 != 0 || pitch % 32 != 0 || stride % 32 != 0 || decide (len < 32) ||
    (!two && decide (253952 < len)) || rows == 0
  [(decide (2 < vis), cILLEGAL, 0), (rowsInMon t ls rows pitch len, cPRIV, ls),
   (ls % 32 != 0 || decide (top < last), cALIGN, ls), (dva % 32 != 0, cALIGN, dva), (lenBad, cALIGN, 0),
   (decide (lo < 0) || decide ((2 ^ 56 : Nat) < hi), cADDR, dva)]

/-- A whole register as a local-store address of an asynchronous copy. -/
def lsAddr (w : Word) : Nat := w.toNat

/-- CPIN (R99). -/
def execCpin (n t pr a b c k : Nat) (s : State) : Out :=
  coreStep n t pr false
    (fun s => let th := s.thr n t
      copyChecks t (lsAddr (th.rs a)) (th.rs b).toNat (th.rs c).toNat 1 0 0 0 false)
    (fun s => let th := s.thr n t
      startOp n t k (.cpin (lsAddr (th.rs a)) (th.rs b).toNat (th.rs c).toNat 1 0 0) s) s

/-- CPOUT (R99). -/
def execCpout (n t pr a b c k vis : Nat) (s : State) : Out :=
  coreStep n t pr false
    (fun s => let th := s.thr n t
      copyChecks t (lsAddr (th.rs a)) (th.rs b).toNat (th.rs c).toNat 1 0 0 vis false)
    (fun s => let th := s.thr n t
      startOp n t k (.cpout (lsAddr (th.rs a)) (th.rs b).toNat (th.rs c).toNat 1 0 0 vis) s) s

/-- The fields of a two-dimensional copy: row length, rows, pitch, stride (R99). -/
def twoD (c d : Word) : Nat × Nat × Nat × Int :=
  (bits c.toNat 19 0, bits c.toNat 39 24, bits d.toNat 63 48, sext 48 d.toNat)

/-- CPIN2 (R99). -/
def execCpin2 (n t pr d a b c k : Nat) (s : State) : Out :=
  coreStep n t pr false
    (fun s => let th := s.thr n t
      let (len, rows, pitch, stride) := twoD (th.rs c) (th.rs d)
      copyChecks t (lsAddr (th.rs a)) (th.rs b).toNat len rows pitch stride 0 true)
    (fun s => let th := s.thr n t
      let (len, rows, pitch, stride) := twoD (th.rs c) (th.rs d)
      startOp n t k (.cpin (lsAddr (th.rs a)) (th.rs b).toNat len rows pitch stride) s) s

/-- CPOUT2 (R99). -/
def execCpout2 (n t pr d a b c k vis : Nat) (s : State) : Out :=
  coreStep n t pr false
    (fun s => let th := s.thr n t
      let (len, rows, pitch, stride) := twoD (th.rs c) (th.rs d)
      copyChecks t (lsAddr (th.rs a)) (th.rs b).toNat len rows pitch stride vis true)
    (fun s => let th := s.thr n t
      let (len, rows, pitch, stride) := twoD (th.rs c) (th.rs d)
      startOp n t k (.cpout (lsAddr (th.rs a)) (th.rs b).toNat len rows pitch stride vis) s) s

/-- LDQB (R100): operand tiles at sA, scale tiles at sD, blocks at sB with stride sC. -/
def execLdqb (n t pr d a b c k : Nat) (s : State) : Out :=
  coreStep n t pr false
    (fun s => let th := s.thr n t
      let la := (th.rs a).toNat
      let ld := (th.rs d).toNat
      let v := (th.rs b).toNat
      let st := (th.rs c).toInt
      let last : Int := v + 63 * st
      let top := if t = 0 then lsTop else monLs
      [(inMon t la 8192, cPRIV, la), (inMon t ld 1024, cPRIV, ld),
       (la % 256 != 0 || decide (top < la + 8192), cALIGN, la), (ld % 64 != 0 || decide (top < ld + 1024), cALIGN, ld),
       (v % 16 != 0, cALIGN, v), (st % 16 != 0, cALIGN, 0),
       (decide (2 ^ 56 < v + 144) || decide (last < 0) || decide ((2 ^ 56 : Nat) < last + 144), cADDR, v)])
    (fun s => let th := s.thr n t
      startOp n t k (.ldqb (th.rs a).toNat (th.rs b).toNat (th.rs c).toNat (th.rs d).toNat) s) s

/-- PREF once its translation is cached: a line under policies 0 to 3 is allocated as a read miss would (R437). -/
def prefLine (s : State) (d : SegDesc) (v entry : Nat) : State :=
  let x := bits entry 39 26 * 2 ^ 26 + (v - d.base) % pageSize d
  if isDev x && decide (policyOf s x < 4) && !s.iso (homeQ x) && !s.lost (x / 256) && fillOk s (x / 256) x 0 then
    (lineRead s (x / 256 * 256) 256).1
  else s

/-- PREF (R437): never faults; a translation miss may start a walk, whose end `start` remembers. -/
def prefetch (s : State) (n t v : Nat) (start : Bool) : State :=
  let ctx := if t = 0 then 0 else (s.core n).ctx
  if 2 ^ 56 ≤ v then s
  else
    match findSeg s ctx v with
    | none => s
    | some (i, d) =>
      if !d.r || d.kind = 1 then s
      else
        let k : XKey := ⟨ctx, i, (v - d.base) / pageSize d⟩
        match ((l1Of s (coreFb n) (corePort n)).find? fun e => e.key = k).orElse
            fun _ => l2Find s (coreFb n) k with
        | some e => prefLine (l1Insert s (coreFb n) (corePort n) e) d v e.entry
        | none =>
          if !start then s
          else
            let id := (s.core n).nextId
            addMiss (s.modCore n fun c =>
              { c with
                aops := c.aops ++ [⟨id, t, (c.thread t).pc.toNat, 0, .pref v, 0, 2, [], []⟩]
                nextId := id + 1 }) (coreFb n) k ⟨.aop n id, 0, v⟩

/-- PREF (R437). -/
def execPref (n t pr a : Nat) (s : State) : Out :=
  coreStep n t pr false (fun _ => []) (fun s => .done (prefetch s n t ((s.thr n t).rs a).toNat true)) s

end Sys2Proof.Machine
end

