-- ==== Sys2Proof/Machine/Fabric.lean ====
section
/-! DEFINITION. Fabric links and packets: credits and frames (R298-R300), routing (R306-R310), end-to-end tags
and the failures of remote operations (R311-R315). -/

namespace Sys2Proof.Machine

def State.flink (s : State) (l : Nat) : FLink := tget {} s.fab.links l
def State.setFlink (s : State) (l : Nat) (k : FLink) : State :=
  { s with fab := { s.fab with links := tset {} s.fab.links l k } }
def State.lantern (s : State) (q : Nat) : Lantern := tget {} s.fab.lanterns q
def State.setLantern (s : State) (q : Nat) (x : Lantern) : State :=
  { s with fab := { s.fab with lanterns := tset {} s.fab.lanterns q x } }

/-- Links in ACTIVE. -/
def linksUp (s : State) : List Nat := (List.range 96).filter fun l => (s.flink l).st = 3

/-! ### Classes, credits and frames (R299, R300, R306) -/

def isControl (p : FPkt) : Bool := p.type == 0x12 || p.type == 0x13 || p.type == 0x30

/-- 0 CONTROL, 1 RAW, 2 + h REQ h, 6 + h RSP h. -/
def fclass (p : FPkt) : Nat :=
  if isControl p then 0 else if p.type = 0x20 then 1 else if p.vn = 0 then 2 + p.hops else 6 + p.hops

/-- Credits of 256 bytes that a packet needs, and those reserved for a class. -/
def fneed (p : FPkt) : Nat := ceilDiv (32 + p.data.length) 256
def freserve (c : Nat) : Nat := if c = 0 then 16 else if c = 1 then 64 else 32

/-- Add credits of a class. -/
def addCredits (u : Tbl Nat) (p : FPkt) : Tbl Nat := tset 0 u (fclass p) (tget 0 u (fclass p) + fneed p)

/-- Whether a receive buffer with `u` in use takes the packet's whole length: its class's reservation, then the shared
108 KiB. -/
def takesLength (u : Tbl Nat) (p : FPkt) : Bool :=
  let used := tget 0 (addCredits u p)
  if fclass p = 0 then decide (used 0 ≤ 16)
  else decide ((((List.range 9).map fun i => used (i + 1) - freserve (i + 1)).foldl (· + ·) 0) ≤ 432)

/-- Credits of a buffer that holds packets. -/
def heldCredits (ps : List FPkt) : Tbl Nat := ps.foldl addCredits []

/-- A packet stands in the receive buffer of its link, or has left it: its credits are owed. -/
def rxTake (s : State) (l : Nat) (p : FPkt) : State :=
  let k := s.flink l
  s.setFlink l { k with rxUsed := addCredits k.rxUsed p }
def rxOwe (s : State) (l : Nat) (p : FPkt) : State :=
  let k := s.flink l
  s.setFlink l { k with owed := addCredits k.owed p }
/-- A packet that leaves the receive buffer as it comes. -/
def rxPass (s : State) (l : Nat) (p : FPkt) : State := rxOwe (rxTake s l p) l p

/-- Bytes of a packet on a link. -/
def fbytes (p : FPkt) : Nat := 32 + p.data.length

/-- Where a packet begins in the frame that is open: right behind the one before it, a CONTROL packet at the next 256-byte
boundary (R305, R325). -/
def frameStart (k : FLink) (p : FPkt) : Nat := if isControl p then 256 * ceilDiv k.txFill 256 else k.txFill

/-- Frames that a packet begins, and frames not yet acknowledged (R298, R299). DESIGN CHOICE: log entry 41. -/
def newFrames (k : FLink) (p : FPkt) : Nat := ceilDiv (frameStart k p + fbytes p) 1024 - 1
def framesOut (k : FLink) : Nat := (k.txSeq + 4096 - k.txAck) % 4096

/-- The first queued packet that can be framed and is not behind another of its class. -/
def pickFrame (k : FLink) : List FPkt → List Nat → Option FPkt
  | [], _ => none
  | p :: ps, blocked =>
    if !blocked.contains (fclass p) && takesLength k.used p && decide (framesOut k + newFrames k p ≤ 192) then some p
    else pickFrame k ps (fclass p :: blocked)

/-- Frame one packet, CONTROL packets first. -/
def frameOne (k : FLink) : Option (FLink × FPkt) :=
  if k.st ≠ 3 then none
  else (pickFrame k (k.txq.filter isControl ++ k.txq.filter fun p => !isControl p) []).map fun p =>
    let n := (k.txSeq + newFrames k p) % 4096
    ({ k with
       txq := removeOne p k.txq
       frames := k.frames ++ [((n + 4095) % 4096, p)]
       txSeq := n
       txFill := frameStart k p + fbytes p - 1024 * newFrames k p
       used := addCredits k.used p }, p)

/-! ### Operations and their packets (R89, R276, R314) -/

def setReqs (s : State) (l : List EReq) : State := { s with fab := { s.fab with reqs := l } }

/-- A remote operation is counted once its packets have reached the point of its class. -/
def opAdvance (s : State) (n id : Nat) : State :=
  match (s.core n).aops.find? fun o => o.id = id with
  | none => fenceCheck (wake s n) -- it has been counted; a FENCE may still wait for its packet
  | some o =>
    let rs := s.fab.reqs.filter fun r => r.n = n && r.op = id
    let ready := match o.kind with
      | .rput _ _ _ vis | .ratom _ _ _ _ vis =>
        if vis = 2 then rs.isEmpty else rs.all fun r => decide (2 + vis ≤ r.st)
      | .rget _ _ _ | .xsend _ _ _ => rs.isEmpty
      | _ => false
    if o.stage = 1 && ready then countOp s n o 0 else wake s n

/-- A remote packet of an operation fails: a deferred fault with its global address (R106, R313, R314). -/
def reqFail (s : State) (r : EReq) (cause status : Nat) : State :=
  let ga := r.pkt.dst * 2 ^ 42 + r.pkt.addr
  let s := setReqs s ((removeOne r s.fab.reqs).map fun x =>
    if x.n = r.n && x.op = r.op then { x with dead := true } else x)
  if r.dead then fenceCheck s
  else
    match (s.core r.n).aops.find? fun o => o.id = r.op with
    | some o => failOp s r.n o cause status ga
    | none =>
      -- the count was made already (R314)
      let s := s.modThr r.n r.t fun th => noteDeferred th r.op cause status r.pc ga
      if endedByFault (s.thr r.n r.t) then takeDeferred s r.n r.t else s

/-- CAUSE of an error packet's status (R313). -/
def causeOfStatus (st : Nat) : Nat :=
  if st = 0x0201 then cRIGHTS else if st = 0x0102 then cADDR else if st = 0x0300 then cMEM
  else if st = 0x0301 then cGRN else cREMOTE

/-- STATUS that goes with it (R107: ADDR carries none). -/
def statusOfError (st : Nat) : Nat := if st = 0x0102 then 0 else st

/-- The request of this module that a response or an error answers. -/
def reqOf (s : State) (tag : Nat) : Option EReq := s.fab.reqs.find? fun r => r.tag = some tag

/-! ### Routing (R308-R310) -/

inductive Route where
  | go (l : Nat)
  | wait
  | fail (status : Nat)
  deriving DecidableEq, Repr

/-- Links an entry lists. -/
def routeAlts (w : Nat) : List Nat :=
  (List.range (bits w 34 32)).map fun i => (w >>> (8 * i)) % 128

/-- The link a packet leaves on. -/
def routeOf (s : State) (p : FPkt) : Route :=
  let w := (tget (0 : Word) s.fab.route p.dst).toNat
  if p.hops ≥ 4 then .fail 0x0403
  else if !bit w 63 then .fail 0x0403
  else
    let up := (routeAlts w).filter fun l => (s.flink l).st = 3
    if up = [] then .wait
    else
      let hasAddr := p.type = 0x01 || p.type = 0x02 || p.type = 0x03
      let ga := if hasAddr then bits (p.dst * 2 ^ 42 + p.addr) 41 8 else 0
      let h := (ga ^^^ (ga >>> 13) ^^^ p.src) % 2 ^ 32
      match up[h % up.length]? with
      | some l => .go l
      | none => .wait

/-- The link has accepted a packet under link-level retry (R276, R314, R316). DEDUCED: log entry 51. -/
def accepted (s : State) (p : FPkt) : State :=
  match s.fab.reqs.find? fun r => r.pkt = p && r.st = 2 with
  | none => s
  | some r =>
    let s := if p.type = 0x20 then setReqs s (removeOne r s.fab.reqs)
      else setReqs s (replaceFirst (fun x => x = r) (fun x => { x with st := 3 }) s.fab.reqs)
    opAdvance s r.n r.op

/-- Frame what can be framed on a link. -/
def pumpLink : Nat → State → Nat → State
  | 0, s, _ => s
  | fuel + 1, s, l =>
    match frameOne (s.flink l) with
    | none => s
    | some (k, p) => pumpLink fuel (accepted (s.setFlink l k) p) l

/-- A packet enters a link's egress queue. -/
def enqueue (s : State) (l : Nat) (p : FPkt) : State :=
  let k := s.flink l
  let s := s.setFlink l { k with txq := k.txq ++ [p] }
  let s := match s.fab.reqs.find? fun r => r.pkt = p && decide (r.st < 2) with
    | some r =>
      opAdvance (setReqs s (replaceFirst (fun x => x = r) (fun x => { x with st := 2 }) s.fab.reqs)) r.n r.op
    | none => s
  pumpLink (k.txq.length + 1) s l

def dropCount (s : State) : State := { s with fab := { s.fab with dropped := satInc 65535 s.fab.dropped } }

/-- A packet that cannot go waits for an alternative (R310). -/
def routeWait (s : State) (p : FPkt) : State :=
  { s with fab := { s.fab with waits := s.fab.waits ++ [(s.fab.nextWait, p)], nextWait := s.fab.nextWait + 1 } }

/-- Send an error packet, or a response: one that cannot be routed is dropped. -/
def sendQuiet (s : State) (p : FPkt) : State :=
  match routeOf s p with
  | .go l => enqueue s l p
  | .wait => routeWait s p
  | .fail _ => s

/-- An error packet to `dst` for a tag (R305, R315). -/
def errorPkt (s : State) (dst tag status : Nat) : FPkt :=
  { hops := 0, vn := 1, type := 0x0C, src := s.fab.id, dst := dst, tag := tag, prio := 2, op := 0, vis := 0,
    group := 0, seq := 0, addr := 0, len := 0, chunk := 0, status := status, flags := 0, data := [] }

/-- A packet is lost or fails: the operation's originator is told, at once if it is this module (R306, R310, R315). -/
def netFail (s : State) (p : FPkt) (status : Nat) : State :=
  let orig := if p.vn = 0 then p.src else p.dst
  if p.type = 0x0B || p.type = 0x0C || decide (0x10 ≤ p.type) then s
  else if orig = s.fab.id then
    match s.fab.reqs.find? fun r => if p.vn = 0 then r.pkt = p else r.tag = some p.tag with
    | some r => reqFail s r (causeOfStatus status) status
    | none => s
  else sendQuiet s (errorPkt s orig p.tag status)

/-- Send a packet on its way. -/
def send (s : State) (p : FPkt) : State :=
  match routeOf s p with
  | .go l => enqueue s l p
  | .wait =>
    let s := match s.fab.reqs.find? fun r => r.pkt = p && r.st = 0 with
      | some r => setReqs s (replaceFirst (fun x => x = r) (fun x => { x with st := 1 }) s.fab.reqs)
      | none => s
    routeWait s p
  | .fail st => netFail (if 4 ≤ p.hops then dropCount s else s) p st

/-! ### Forwarding (R306, R307) -/

/-- The port of an egress link has buffer left in the packet's class for its whole length. DESIGN CHOICE: log entry 154. -/
def egressRoom (k : FLink) (p : FPkt) : Bool := takesLength (heldCredits k.txq) p

/-- The first packet that waits for egress buffer and goes on: it is behind none of its link and class. -/
def nextFwd (s : State) : List (Nat × FPkt) → List (Nat × Nat) → Option (Nat × FPkt)
  | [], _ => none
  | (l, p) :: r, held =>
    let stays := held.contains (l, fclass p) ||
      (match routeOf s { p with hops := p.hops + 1 } with
       | .go e => !egressRoom (s.flink e) { p with hops := p.hops + 1 }
       | _ => false)
    if stays then nextFwd s r ((l, fclass p) :: held) else some (l, p)

/-- Packets for other modules leave their receive buffers as the egress ports take them: one more link is crossed. -/
def pumpFwd : Nat → State → State
  | 0, s => s
  | fuel + 1, s =>
    match nextFwd s s.fab.fwd [] with
    | none => s
    | some (l, p) =>
      pumpFwd fuel (send (rxOwe { s with fab := { s.fab with fwd := removeOne (l, p) s.fab.fwd } } l p)
        { p with hops := p.hops + 1 })

def pumpFwds (s : State) : State := pumpFwd (s.fab.fwd.length + 1) s

/-! ### Injection (R311, R312) -/

/-- Lines of two packets meet. -/
def sameLine (a b : FPkt) : Bool :=
  a.dst = b.dst && decide (a.addr / 256 ≤ (b.addr + b.len - 1) / 256) &&
  decide (b.addr / 256 ≤ (a.addr + a.len - 1) / 256)

/-- The next request that may leave: a free tag of its port's 256, and no earlier packet of the port on its
lines. -/
def nextReq (all : List EReq) : List EReq → List EReq → Option EReq
  | [], _ => none
  | r :: rs, before =>
    if r.tag.isNone && r.st = 0 && r.pkt.type != 0x20 &&
        decide ((all.filter fun x => x.port = r.port && x.tag.isSome).length < 256) &&
        !(before.any fun x => x.port = r.port && sameLine x.pkt r.pkt) then some r
    else nextReq all rs (r :: before)

/-- A tag no outstanding request of this module uses (DEDUCED, log entry 42). -/
def freeE2e (s : State) : Nat :=
  ((List.range (s.fab.reqs.length + 1)).find? fun i => !(s.fab.reqs.any fun r => r.tag = some i)).getD 0

/-- Give tags and send. -/
def pumpReqs : Nat → State → State
  | 0, s => s
  | fuel + 1, s =>
    match nextReq s.fab.reqs s.fab.reqs [] with
    | none => s
    | some r =>
      let g := freeE2e s
      let p := { r.pkt with tag := g }
      let s := setReqs s (replaceFirst (fun x => x = r) (fun x => { x with tag := some g, pkt := p }) s.fab.reqs)
      pumpReqs fuel (send s p)

def pumpAll (s : State) : State := pumpReqs (s.fab.reqs.length + 1) s

/-- A request's packet in the header of R305. -/
def reqPkt (s : State) (type dst addr len op vis : Nat) (data : List Byte) : FPkt :=
  { hops := 0, vn := 0, type := type, src := s.fab.id, dst := dst, tag := 0, prio := 2, op := op, vis := vis,
    group := 0, seq := 0, addr := addr, len := len, chunk := 0, status := 0, flags := 0, data := data }

/-- Split `[a, a + n)` at 4 KiB boundaries of the target (R311): offsets and lengths. -/
def split4k : Nat → Nat → Nat → Nat → List (Nat × Nat)
  | 0, _, _, _ => []
  | fuel + 1, a, off, n =>
    if n = 0 then []
    else
      let k := min n (4096 - a % 4096)
      (off, k) :: split4k fuel (a + k) (off + k) (n - k)

/-- Send an operation's packets: `type` 1 write with its data, 2 read. -/
def sendRemote (s : State) (n : Nat) (o : AOp) (type ls ga vis : Nat) (data : List Byte) (len : Nat) : State :=
  let port := 512 * coreFb n + corePort n
  let a := ga % 2 ^ 40
  let rs := (split4k (len / 4096 + 2) a 0 len).map fun e =>
    (⟨port, none, n, o.t, o.id, o.pc, ls + e.1,
      reqPkt s type (ga / 2 ^ 42) (a + e.1) e.2 0 vis ((data.drop e.1).take e.2), 0, false, none⟩ : EReq)
  let s := s.modCore n fun c =>
    { c with aops := c.aops.map fun x => if x.id = o.id then { x with stage := 1 } else x }
  pumpAll (setReqs s (s.fab.reqs ++ rs))

/-- RATOM's packet: opcode and operand (R103, R305). -/
def sendAtomic (s : State) (n : Nat) (o : AOp) (ls ga op : Nat) (c : Word) (vis : Nat) : State :=
  let port := 512 * coreFb n + corePort n
  let r : EReq := ⟨port, none, n, o.t, o.id, o.pc, ls,
    reqPkt s 0x03 (ga / 2 ^ 42) (ga % 2 ^ 40) 8 op vis (leBytes 8 c.toNat), 0, false, none⟩
  let s := s.modCore n fun c =>
    { c with aops := c.aops.map fun x => if x.id = o.id then { x with stage := 1 } else x }
  pumpAll (setReqs s (s.fab.reqs ++ [r]))

/-- Send a raw packet to the partner alone (R316). -/
def sendRaw (s : State) (n : Nat) (o : AOp) (l : Nat) (data : List Byte) : State :=
  let p := { reqPkt s 0x20 (s.flink l).partner 0 data.length 0 0 data with
    seq := BitVec.ofNat 32 l, tag := o.id % 65536 }
  let r : EReq := ⟨512 * coreFb n + corePort n, none, n, o.t, o.id, o.pc, 0, p, 0, false, none⟩
  let s := s.modCore n fun c =>
    { c with aops := c.aops.map fun x => if x.id = o.id then { x with stage := 1 } else x }
  enqueue (setReqs s (s.fab.reqs ++ [r])) l p

/-- A request has been answered: its tag is free, its operation goes on (R311, R312). -/
def answered (s : State) (r : EReq) : State :=
  pumpAll (opAdvance (setReqs s (removeOne r s.fab.reqs)) r.n r.op)

/-! ### Raw packets received (R317) -/

/-- The bytes XRECV writes for a packet, up to `room` bytes. -/
def rawImage (p : FPkt) (room : Nat) : List Byte :=
  let n := p.data.length
  leBytes 4 n ++ leBytes 2 (p.src % 2 ^ 14) ++ leBytes 1 (b2n (decide (room - 32 < n))) ++ leBytes 25 0 ++
    p.data.take (room - 32)

/-- Link-wide effects of a change of state: packets that wait look again (R310). -/
def retryRoutes (s : State) : State :=
  let ws := s.fab.waits
  ws.foldl (fun s w =>
    match routeOf s w.2 with
    | .go l => enqueue { s with fab := { s.fab with waits := s.fab.waits.filter fun x => x.1 ≠ w.1 } } l w.2
    | _ => s) s

end Sys2Proof.Machine
end

