-- ==== Sys2Proof/Machine/Tensor.lean ====
section
/-! DEFINITION. Tensor group (GRP 0x2): chapter 03 (R55-R79) and R97. -/

namespace Sys2Proof.Machine

/-! ### Operand tiles (R59, R63, R64) -/

/-- Operand class of a tensor format: 1 4-bit, 2 8-bit, 3 16-bit, 0 none (R59). -/
def tclass (f : Nat) : Nat :=
  if [0x08, 0x10, 0x1C, 0x20].contains f then 1
  else if [0x04, 0x05, 0x06, 0x07, 0x11, 0x18, 0x19, 0x1A, 0x1B, 0x1D].contains f then 2
  else if [0x02, 0x03].contains f then 3 else 0

/-- k of a class (R59). -/
def kOf (f : Nat) : Nat := match tclass f with | 1 => 64 | 2 => 32 | 3 => 16 | _ => 0

/-- The vector pitch P (R63). -/
def pitchOf (f : Nat) : Nat := kOf f * fmtBits f / 8

/-- Bytes per vector of a scale tile; 0 for formats without one (R64). -/
def scaleBytes (f : Nat) : Nat :=
  if f = 0x1C then 2 else if (mxElem f).isSome then 1 else if f = 0x20 then 4 else 0

/-- Element j of vector v: its exact decoded value with its scales (R61). -/
def operandVal (f : Nat) (row sc : Nat) (j : Nat) : Val :=
  let code := elemAt (fmtBits f) row j
  match mxElem f with
  | some e => decMx e code (elemAt 8 sc (j / 32))
  | none => if f = 0x20 then decQ code (elemAt 8 sc 0) (elemAt 4 (sc / 256) (j / 16)) else decElem f code

/-- The 64 vectors of an operand tile, read from local store; the address of an uncorrectable word. -/
def operandTile (c : Core) (f a sa : Nat) : Except Nat (List (List Val)) :=
  let p := pitchOf f
  let b := scaleBytes f
  match lsRead c a (64 * p), lsRead c sa (64 * b) with
  | .error e, _ => .error e
  | _, .error e => .error e
  | .ok _, .ok _ =>
    .ok ((List.range 64).map fun v =>
      let row := Memory.readLe c.ls (a + v * p) p
      let sc := Memory.readLe c.ls (sa + v * b) b
      (List.range (kOf f)).map (operandVal f row sc))

/-! ### Accumulation (R65-R69) -/

/-- One step of an FP32 element: the exact sum rounded once (R65). -/
def stepFp32 (e : Elem) (ps : List Val) : Elem × Flg :=
  let (c, f) := fin32 (sumVals (dec32 (e.g.toNat % 2 ^ 32) :: ps))
  ({ e with g := BitVec.ofNat 160 c }, f)

/-- One product of an EXACT element: truncated on its own and added modulo 2^160 (R67, R68). -/
def stepExact1 (anchor : Int) (x : Elem × Flg) (p : Val) : Elem × Flg :=
  match p with
  | .nan => ({ x.1 with nan := true }, x.2 ||| fNV)
  | .inf false => ({ x.1 with pinf := true }, x.2)
  | .inf true => ({ x.1 with ninf := true }, x.2)
  | v =>
    let (t, ix) := truncAt (anchor - 96) v
    ({ x.1 with g := x.1.g + BitVec.ofInt 160 t }, x.2 ||| (if ix then fTR else 0))

def stepElem (tl : Tile) (e : Elem) (ps : List Val) : Elem × Flg :=
  if tl.exact_ then ps.foldl (stepExact1 tl.anchor) (e, 0) else stepFp32 e ps

/-- TMMA on a whole tile: acc[i][n] += sum over j of a[i][j] × b[j][n], with the flags. -/
def tmmaTile (tl : Tile) (as bs : List (List Val)) : Tile × Flg :=
  let step (x : Tbl Elem × Flg) (key : Nat) (ar bc : List Val) : Tbl Elem × Flg :=
    let (e, f) := stepElem tl (tget {} x.1 key) (ar.zipWith mulVal bc)
    (tset {} x.1 key e, x.2 ||| f)
  let (es, f) := ((List.range 64).zip as).foldl (fun x ia =>
    ((List.range 64).zip bs).foldl (fun x nb => step x (64 * ia.1 + nb.1) ia.2 nb.2) x) (tl.elems, 0)
  ({ tl with elems := es }, f)

/-! ### Readout (R70, R72-R76) -/

/-- The exact value of an element and whether it lies outside the window (R66, R70, R75). -/
def elemVal (tl : Tile) (e : Elem) : Val × Flg :=
  if !tl.exact_ then (dec32 (e.g.toNat % 2 ^ 32), 0)
  else if e.nan || (e.pinf && e.ninf) then (.nan, 0)
  else if e.pinf then (.inf false, 0)
  else if e.ninf then (.inf true, 0)
  else
    let i := e.g.toInt
    if i < -(2 ^ 127 : Nat) ∨ ((2 ^ 127 : Nat) : Int) ≤ i then (.inf (decide (i < 0)), fAR)
    else (decInt i (tl.anchor - 96), 0)

/-- AR goes with OF at a readout (R75). -/
def withAR (f : Flg) : Flg := if f &&& fOF = 0 then f else f ||| fAR

/-- Elements of row i of a tile. -/
def tileRow (tl : Tile) (i : Nat) : List Elem := (List.range 64).map fun n => tget {} tl.elems (64 * i + n)

/-- One output row: packed bytes, scale bytes, flags (R73-R76). -/
def readRow (tl : Tile) (o : TrdOpt) (seed base stride : Word) (i : Nat) : List Byte × List Byte × Flg :=
  let es := tileRow tl i
  if o.fmt = 0x3E then
    (es.flatMap fun e => leBytes 16 (e.g.toNat % 2 ^ 128), [],
      if es.any fun e => e.nan || e.pinf || e.ninf then fNV else 0)
  else
    let vs := es.map fun e => (elemVal tl e).1
    let f0 : Flg := es.foldl (fun f e => f ||| (elemVal tl e).2) 0
    let b := base + BitVec.ofNat 64 i * stride
    if (mxElem o.fmt).isSome then
      let (c0, e0, g0) := quantMx o.fmt o.rm seed b (vs.take 32)
      let (c1, e1, g1) := quantMx o.fmt o.rm seed (b + 32) (vs.drop 32)
      (leBytes (64 * fmtBits o.fmt / 8) (packBits (fmtBits o.fmt) (e0 ++ e1)),
        [BitVec.ofNat 8 c0, BitVec.ofNat 8 c1], f0 ||| withAR (g0 ||| g1))
    else
      let (xs, g) := encodeList o.fmt o.rm o.sat seed b vs
      (leBytes (64 * fmtBits o.fmt / 8) (packBits (fmtBits o.fmt) xs), [], f0 ||| withAR g)

/-- Targets a tile's mode permits (R73). -/
def trdTarget (exact_ : Bool) (f : Nat) : Bool :=
  [0x01, 0x02, 0x03, 0x04, 0x05, 0x06, 0x07, 0x08, 0x10, 0x11, 0x12, 0x18, 0x19, 0x1A, 0x1B, 0x1C, 0x1D].contains f ||
  (exact_ && f = 0x3E)

/-- Bytes of a packed row of 64 elements (R74). -/
def rowBytes (f : Nat) : Nat := 64 * fmtBits f / 8

/-! ### Save images (R78) -/

/-- The 98,368-byte image of a tile. -/
def tileImage (tl : Tile) : List Byte :=
  leBytes 64 (1 + b2n tl.exact_ * 2 ^ 8 + (tl.anchor % 1024).toNat * 2 ^ 16 +
    (match tl.owner with | some t => t + 16 | none => 0) * 2 ^ 32) ++
  (List.range 4096).flatMap fun k =>
    let e := tget {} tl.elems k
    leBytes 20 e.g.toNat ++ leBytes 4 (b2n e.nan + 2 * b2n e.pinf + 4 * b2n e.ninf)

/-- Whether an image is well formed: version 1 and every reserved field zero (R10, R78). DEDUCED, log entry 157: the bytes of
`G` that FP32 mode holds at zero count as reserved. -/
def imageOk (bs : List Byte) : Bool :=
  let h := leNat (bs.take 64)
  h % 16 == 1 && bits h 7 4 == 0 && bits h 15 9 == 0 && bits h 31 26 == 0 && bits h 39 37 == 0 &&
  h / 2 ^ 40 == 0 &&
  (List.range 4096).all fun k =>
    let x := leNat ((bs.drop (64 + 24 * k)).take 24)
    x / 2 ^ 163 == 0 && (bit h 8 || (x % 2 ^ 160) / 2 ^ 32 == 0)

/-- The tile an image restores, exactly. -/
def imageTile (bs : List Byte) : Tile :=
  let h := leNat (bs.take 64)
  { exact_ := bit h 8
    anchor := sext 10 (h / 2 ^ 16)
    owner := if bit h 36 then some (bits h 35 32) else none
    elems := (List.range 4096).foldl (fun tb k =>
      let x := leNat ((bs.drop (64 + 24 * k)).take 24)
      tset {} tb k ⟨BitVec.ofNat 160 x, bit x 160, bit x 161, bit x 162, false⟩) []
    releasing := none }

/-! ### Queues and ownership (R56-R58) -/

/-- The thread owns the tile in its own program order. -/
def owns (c : Core) (tl t : Nat) : Bool := (c.tile tl).owner = some t && (c.tile tl).releasing.isNone

/-- Enter a queue of the tensor unit, or stall for want of an entry or a slot (R58, R91). -/
def queueOp (n t k : Nat) (readout : Bool) (kind : AKind) (s : State) : Res :=
  let c := s.core n
  let full := if readout then c.rq.length ≥ 2 else c.tq.length ≥ 4
  if full ∨ opsOf c t ≥ 16 ∨ opsAll c ≥ 128 then
    .stay (s.modThr n t fun th => { th with st := .stalled })
  else
    let id := c.nextId
    let o : AOp := ⟨id, t, (c.thread t).pc.toNat, k, kind, 0, 0, [], []⟩
    let c := { c with aops := c.aops ++ [o], nextId := id + 1 }
    .done (s.setCore n (if readout then { c with rq := c.rq ++ [id] } else { c with tq := c.tq ++ [id] }))

/-! ### Instructions (R97) -/

/-- Low 18 bits of a register: a local-store address (R97). -/
def ls18 (w : Word) : Nat := w.toNat % 2 ^ 18

/-- TMMA (R59, R60, R62-R64, R97). -/
def execTmma (n t pr tile fa fb a b sc c : Nat) (s : State) : Out :=
  coreStep n t pr false
    (fun s =>
      let th := s.thr n t
      let la := ls18 (th.rs a)
      let lb := ls18 (th.rs b)
      let sa := ls18 (th.rs sc)
      let sb := ls18 (th.rs sc >>> 32)
      let za := 64 * scaleBytes fa
      let zb := 64 * scaleBytes fb
      let fmtBad := !isT fa || !isT fb || tclass fa != tclass fb
      [(inMon t la (64 * pitchOf fa), cPRIV, la), (inMon t lb (64 * pitchOf fb), cPRIV, lb), (inMon t sa za, cPRIV, sa),
       (inMon t sb zb, cPRIV, sb),
       (!owns (s.core n) tile t, cTILE, 0),
       (fmtBad, cFORMAT, 0),
       (la % 256 != 0 || decide (lsTop < la + 64 * pitchOf fa), cALIGN, la),
       (lb % 256 != 0 || decide (lsTop < lb + 64 * pitchOf fb), cALIGN, lb),
       (za != 0 && (sa % 64 != 0 || decide (lsTop < sa + za)), cALIGN, sa),
       (zb != 0 && (sb % 64 != 0 || decide (lsTop < sb + zb)), cALIGN, sb)])
    (fun s =>
      let th := s.thr n t
      queueOp n t c false (.tmma tile fa fb (ls18 (th.rs a)) (ls18 (th.rs b)) (ls18 (th.rs sc))
        (ls18 (th.rs sc >>> 32))) s) s

/-- TZERO (R56): it waits for earlier instructions on the tile, then claims and clears it. DESIGN CHOICE: log entry
120. -/
def execTzero (n t pr tile : Nat) (exact_ : Bool) (anchor : Int) (s : State) : Out :=
  coreStep n t pr false
    (fun s => [(match (s.core n).tile tile |>.owner with | some o => o != t | none => false, cTILE, 0)])
    (fun s =>
      let c := s.core n
      if tilePending c tile c.nextId then .stay (s.modThr n t fun th => { th with st := .stalled })
      else .done (s.setCore n (c.setTile tile { exact_ := exact_, anchor := if exact_ then anchor else 0,
                                                owner := some t, elems := [], releasing := none }))) s

/-- TRD (R72-R76, R97). DEDUCED, log entry 160: the X field is looked at only with RM = 4. -/
def execTrd (n t pr tile : Nat) (o : TrdOpt) (d x c : Nat) (s : State) : Out :=
  coreStep n t pr false
    (fun s =>
      let w := ((s.thr n t).rs d).toNat
      let dst := w % 2 ^ 18
      let pitch := bits w 35 20
      let sd := bits w 57 40
      let mx := (mxElem o.fmt).isSome
      let len := 63 * pitch + rowBytes o.fmt
      [(decide (o.rm = 4 ∧ 61 < x), cILLEGAL, 0),
       (rowsInMon t dst 64 pitch (rowBytes o.fmt), cPRIV, dst), (mx && inMon t sd 128, cPRIV, sd),
       (!owns (s.core n) tile t, cTILE, 0),
       (!trdTarget ((s.core n).tile tile).exact_ o.fmt || decide (4 < o.rm), cFORMAT, 0),
       (decide (pitch < rowBytes o.fmt) || pitch % 32 != 0, cALIGN, 0), (decide (lsTop < dst + len), cALIGN, dst),
       (mx && decide (lsTop < sd + 128), cALIGN, sd)])
    (fun s =>
      let th := s.thr n t
      let w := (th.rs d).toNat
      let (seed, base, stride) := if o.rm = 4 then (th.rs x, th.rs (x + 1), th.rs (x + 2)) else (0, 0, 0)
      match queueOp n t c true (.trd tile o (w % 2 ^ 18) (bits w 35 20) (bits w 57 40) seed base stride) s with
      | .done s =>
        -- REL: the tile is the owner's no more once the readout has taken effect
        .done (if o.rel then s.modCore n fun c => c.setTile tile { (c.tile tile) with releasing := some c.nextId } else s)
      | r => r) s

/-- TLDA (R77, R97). -/
def execTlda (n t pr tile fmt d c : Nat) (s : State) : Out :=
  coreStep n t pr false
    (fun s =>
      let w := ((s.thr n t).rs d).toNat
      let dst := w % 2 ^ 18
      let pitch := bits w 35 20
      let len := 63 * pitch + rowBytes fmt
      [(rowsInMon t dst 64 pitch (rowBytes fmt), cPRIV, dst),
       (!owns (s.core n) tile t, cTILE, 0),
       (fmt != (if ((s.core n).tile tile).exact_ then 0x3E else 0x01), cFORMAT, 0),
       (decide (pitch < rowBytes fmt) || pitch % 32 != 0, cALIGN, 0), (decide (lsTop < dst + len), cALIGN, dst)])
    (fun s =>
      let w := ((s.thr n t).rs d).toNat
      queueOp n t c true (.tlda tile fmt (w % 2 ^ 18) (bits w 35 20)) s) s

/-- TREL (R56): the thread does not wait. -/
def execTrel (n t pr tile : Nat) (s : State) : Out :=
  coreStep n t pr false (fun s => [(!owns (s.core n) tile t, cTILE, 0)])
    (fun s => .done (s.modCore n fun c =>
      settle (c.setTile tile { (c.tile tile) with releasing := some c.nextId }) tile)) s

/-- TSAVE (R78): monitor only. -/
def execTsave (n t pr tile a c : Nat) (s : State) : Out :=
  coreStep n t pr false
    (fun s => let v := ((s.thr n t).rs a).toNat
      [(t != 0, cPRIV, 0), (v % 64 != 0, cALIGN, v), (decide (2 ^ 56 ≤ v), cADDR, v)])
    (fun s => queueOp n t c true (.tsave tile ((s.thr n t).rs a).toNat) s) s

/-- TLOAD (R78): monitor only. -/
def execTload (n t pr tile a c : Nat) (s : State) : Out :=
  coreStep n t pr false
    (fun s => let v := ((s.thr n t).rs a).toNat
      [(t != 0, cPRIV, 0), (v % 64 != 0, cALIGN, v), (decide (2 ^ 56 ≤ v), cADDR, v)])
    (fun s => queueOp n t c true (.tload tile ((s.thr n t).rs a).toNat) s) s

/-! ### The engines -/

/-- Set an operation's stage and buffer. -/
def stageOp (c : Core) (id st : Nat) (buf : List Byte) : Core :=
  { c with aops := c.aops.map fun o => if o.id = id then { o with stage := st, buf := buf } else o }

/-- An operation leaves its queue having taken effect; only its count remains. -/
def tookEffect (s : State) (n : Nat) (o : AOp) (f : Flg) : State :=
  s.modCore n fun c =>
    let c := stageOp { c with tq := c.tq.filter (· ≠ o.id), rq := c.rq.filter (· ≠ o.id) } o.id 3 []
    let c := c.setThread o.t ((c.thread o.t).orFlg f)
    unstall (match tileOf o.kind with | some tl => settle c tl | none => c)

/-- An uncorrectable operand or element: the operation fails, and queued TMMA of its thread behind a failed
TMMA are discarded (chapter 03, failures). -/
def tensorFail (s : State) (n : Nat) (o : AOp) (addr : Nat) : State :=
  let s := logLocal s n addr
  let s := match o.kind with
    | .tmma _ _ _ _ _ _ _ => s.modCore n fun c =>
        let gone := (c.aops.filter fun p => p.t = o.t && c.tq.contains p.id && decide (o.id < p.id)).map (·.id)
        gone.foldl dropOp c
    -- a readout that fails releases nothing (R72)
    | .trd tile opt _ _ _ _ _ _ => s.modCore n fun c =>
        if opt.rel then c.setTile tile { (c.tile tile) with releasing := none } else c
    | _ => s
  failOp s n o cLOCAL 0 addr

/-- Write output rows and scales in row order; the address of a word that fails (R74, R434). -/
def writeRows (tl : Tile) (o : TrdOpt) (dst pitch sdst : Nat) (seed base stride : Word) :
    List Nat → Core → Flg → Core × Flg × Option Nat
  | [], c, f => (c, f, none)
  | i :: is, c, f =>
    let (bs, sc, g) := readRow tl o seed base stride i
    match lsWrite c (dst + i * pitch) bs with
    | (c, some e) => (c, f, some e)
    | (c, none) =>
      match lsWrite c (sdst + 2 * i) sc with
      | (c, some e) => (c, f, some e)
      | (c, none) => writeRows tl o dst pitch sdst seed base stride is c (f ||| g)

/-- The effect of a tensor operation when its engine takes it (R61-R78). DESIGN CHOICE: log entry 119. -/
def runTensor (s : State) (n : Nat) (o : AOp) : State :=
  let c := s.core n
  match o.kind with
  | .tmma tile fa fb a b sa sb =>
    let tl := c.tile tile
    match operandTile c fa a sa, operandTile c fb b sb with
    | .error e, _ => tensorFail s n o e
    | _, .error e => tensorFail s n o e
    | .ok as, .ok bs =>
      if tl.elems.any fun e => e.2.bad then tensorFail s n o (0x40000 + tile)
      else
        let (tl, f) := tmmaTile tl as bs
        tookEffect (s.setCore n (c.setTile tile tl)) n o f
  | .trd tile opt dst pitch sdst seed base stride =>
    let tl := c.tile tile
    if tl.elems.any fun e => e.2.bad then tensorFail s n o (0x40000 + tile)
    else
      match writeRows tl opt dst pitch sdst seed base stride (List.range 64) c 0 with
      | (c, _, some e) => tensorFail (s.setCore n c) n o e
      | (c, f, none) =>
        let c := if opt.clr then c.setTile tile { (c.tile tile) with elems := [] } else c
        tookEffect (s.setCore n c) n o f
  | .tlda tile fmt dst pitch =>
    let w := fmtBits fmt / 8
    match (List.range 64).findSome? fun i => badWord c.lsBad (dst + i * pitch) (rowBytes fmt) with
    | some b => tensorFail s n o (8 * b)
    | none =>
      let es := (List.range 4096).foldl (fun tb k =>
        let x := Memory.readLe c.ls (dst + k / 64 * pitch + w * (k % 64)) w
        tset {} tb k { g := if fmt = 0x3E then BitVec.ofInt 160 (sext 128 x) else BitVec.ofNat 160 x }) []
      tookEffect (s.setCore n (c.setTile tile { (c.tile tile) with elems := es })) n o 0
  | .tsave tile _ =>
    let tl := c.tile tile
    if tl.elems.any fun e => e.2.bad then tensorFail s n o (0x40000 + tile)
    else s.modCore n fun c => unstall (stageOp { c with rq := c.rq.filter (· ≠ o.id) } o.id 0 (tileImage tl))
  | .tload _ _ => s.modCore n fun c => unstall { c with rq := c.rq.filter (· ≠ o.id) }
  | _ => s

/-- TENSOR_QUEUE_DISPATCH (R57, R58): the MAC array or the readout engine takes the next entry of its
queue in issue order; an entry waits for earlier instructions on its tile. -/
def execTensorQueueDispatch (n : Nat) (readout : Bool) (s : State) : Out :=
  let c := s.core n
  match (if readout then c.rq else c.tq) with
  | [] => .next s -- the queue is empty
  | id :: _ =>
    match c.aops.find? fun o => o.id = id with
    | none => .next s -- the queue is empty
    | some o =>
      if (match tileOf o.kind with | some tl => tilePending c tl id | none => false) then
        .next s -- an earlier instruction on the tile has not finished
      else .next (runTensor s n o)

end Sys2Proof.Machine
end

