-- ==== Sys2Proof/Machine/Mill.lean ====
section
/-! DEFINITION. Reduction groups: trees (R185, R186), staging (R187), combining (R190-R193), delivery
(R194-R198) and the fabric stage at ROOT (R320-R325).  Up and down chunks that wait for credits move as soon as
the credit is there; chunks and Bells on the mesh stand in `mil.flight` until they are received. -/

namespace Sys2Proof.Machine

/-! ### Trees (R185, R186) -/

/-- Router number (R19): 16 × y + x. -/
def rtr (x y : Nat) : Nat := 16 * y + x
def rx (r : Nat) : Nat := r % 16
def ry (r : Nat) : Nat := r / 16

/-- The FB of a router: quadrants of 8 by 8 (R19). -/
def routerFb (r : Nat) : Nat := rx r / 8 + 2 * (ry r / 8)
/-- Local index of a router in its FB (R19). -/
def routerLocal (r : Nat) : Nat := rx r % 8 + 8 * (ry r % 8)

/-- Leaf router, vertical port and slot of a member (R185). -/
def leafOf (n : Nat) : Nat :=
  let k := n % 256 / 4
  let q := n / 1024
  let j := n / 256 % 4
  rtr (8 * (q % 2) + 4 * (j % 2) + k / 4 % 4) (8 * (q / 2) + 4 * (j / 2) + k / 16)
def slotOf (n : Nat) : Nat := 4 * (n % 256 / 4 % 4) + n % 4

/-- The next router on the XY path, and the input port of it that faces back: N 0, E 1, S 2, W 3 (R160). -/
def nextHop (u root : Nat) : Nat × Nat :=
  if rx u < rx root then (rtr (rx u + 1) (ry u), 3)
  else if rx root < rx u then (rtr (rx u - 1) (ry u), 1)
  else if ry u < ry root then (rtr (rx u) (ry u + 1), 0)
  else (rtr (rx u) (ry u - 1), 2)

/-- Hops from `u` to the root: the router reached and the input port entered, in order. -/
def pathTo (root : Nat) : Nat → Nat → List (Nat × Nat)
  | 0, _ => []
  | fuel + 1, u => if u = root then [] else
      let h := nextHop u root
      h :: pathTo root fuel h.1

def pathOf (root u : Nat) : List (Nat × Nat) := pathTo root 32 u

/-- No repeats. -/
def dedup {α : Type} [DecidableEq α] : List α → List α
  | [] => []
  | x :: xs => if xs.contains x then dedup xs else x :: dedup xs

/-- Routers with slots. -/
def leaves (d : GroupDesc) : List Nat := dedup (d.members.map leafOf)

/-- Child links of the tree: a router and the input port a subtree enters it by. -/
def childLinks (d : GroupDesc) : List (Nat × Nat) := dedup ((leaves d).flatMap (pathOf d.root))

/-- Child ports of a router, in order N, E, S, W. -/
def childPorts (d : GroupDesc) (r : Nat) : List Nat :=
  (List.range 4).filter fun p => (childLinks d).contains (r, p)

/-- Slots of a router in port and slot order. -/
def slotsAt (d : GroupDesc) (r : Nat) : List Nat :=
  (List.range 16).filter fun k => d.members.any fun n => leafOf n = r && slotOf n = k

/-- The member at a slot. -/
def memberAt (d : GroupDesc) (r k : Nat) : Option Nat := d.members.find? fun n => leafOf n = r && slotOf n = k

/-- Combining routers: the root, routers with slots, and routers with two or more child ports. -/
def combines (d : GroupDesc) (r : Nat) : Bool :=
  r = d.root || (leaves d).contains r || decide (2 ≤ (childPorts d r).length)

/-- Every combining router. -/
def combining (d : GroupDesc) : List Nat :=
  dedup (d.root :: (leaves d ++ ((childLinks d).map (·.1)).filter (combines d)))

/-- The combining router a router sends up to, and its input there. -/
def parentOf (d : GroupDesc) (u : Nat) : Option (Nat × Nat) :=
  ((pathOf d.root u).find? fun h => combines d h.1).map fun h => (h.1, 16 + h.2)

/-- Inputs of a combining router in combining order (R190): slots, then child ports. -/
def inputsOf (d : GroupDesc) (r : Nat) : List Nat := slotsAt d r ++ (childPorts d r).map (16 + ·)

/-- Combining routers right below. -/
def childrenOf (d : GroupDesc) (r : Nat) : List Nat :=
  (combining d).filter fun u => u != d.root && (parentOf d u).map (·.1) = some r

/-! ### The parameter flit (R189) -/

/-- The flit TYPE of what a Mill sends. -/
def MKind.flitType : MKind → Nat
  | .partial_ _ _ => 0x10
  | .result _ => 0x11
  | .bell _ _ => 0x12
  | .release _ => 0x13
  | .notice _ => 0x14

/-- MEMBER: the contributing core where a partial or a Bell enters its leaf. -/
def MKind.member (d : GroupDesc) : MKind → Nat
  | .partial_ r i | .bell r i => if i < 16 then (memberAt d r i).getD 0 else 0
  | _ => 0

/-- The 128 bytes of the parameter flit that opens a packet whose first chunk is `m`. -/
def MFlight.flit (d : GroupDesc) (f : MFlight) : List Byte :=
  leBytes 1 (f.m.version % 16) ++ leBytes 1 f.m.group ++ leBytes 2 (f.kind.member d % 4096) ++ leBytes 4 f.m.seq.toNat ++
  leBytes 4 (f.m.chunk % 2 ^ 20) ++ leBytes 1 f.m.flags.toNat ++ leBytes 115 0

/-! ### Sizes -/

def esz (f : Nat) : Nat := fmtBits f / 8
def exactMode (d : GroupDesc) : Bool := d.kind = 0 && d.mode = 1

/-- Bytes of a sequence's result (R183). -/
def outLen (d : GroupDesc) : Nat :=
  if d.kind = 1 then d.length else if d.kind = 2 then 0 else d.length / esz d.elem * esz d.outFmt

/-- Partial chunks of a sequence as they travel above the leaves: 256 bytes of partials each (R192). -/
def upChunks (d : GroupDesc) : Nat :=
  if exactMode d && d.elem = 0x01 then d.length / 64 else d.length / 256

/-- Result chunks of a sequence, and the result bytes of one. -/
def outChunks (d : GroupDesc) : Nat := upChunks d
def outChunkLen (d : GroupDesc) : Nat := outLen d / upChunks d

/-- A group has a local down phase (R187). -/
def localDown (g : Group) (d : GroupDesc) : Bool :=
  (d.kind = 0 && d.result = 0) || d.kind = 1 ||
  (d.kind = 0 && d.result = 2 && !((g.tree.map (·.deliver)).getD false))

/-- Staging bytes a group reserves at a router (R187, R320). -/
def reserved (g : Group) (d : GroupDesc) (r : Nat) : Nat :=
  if d.kind = 2 || !combines d r then 0
  else
    256 * d.depth * ((childPorts d r).length + (slotsAt d r).length + b2n (localDown g d)) +
    (match g.tree with
     | some t => if r = d.root then 256 * d.depth * (t.children.length + b2n t.parent.isSome) else 0
     | none => 0)

/-- Staging bytes reserved at a router by every group. -/
def reservedAt (s : State) (r : Nat) : Nat :=
  s.mil.groups.foldl (fun a e => match e.2.desc with | some d => a + reserved e.2 d r | none => a) 0

/-! ### Combining (R190-R193) -/

/-- 32-bit words of a chunk. -/
def words32 (bs : List Byte) : List Nat := (List.range (bs.length / 4)).map fun i => leNat ((bs.drop (4 * i)).take 4)
def words128 (bs : List Byte) : List Nat := (List.range (bs.length / 16)).map fun i => leNat ((bs.drop (16 * i)).take 16)

/-- One ORDERED operation on an element (R191). DEDUCED: log entry 124. -/
def redOp (elem op a b : Nat) : Nat × Flg :=
  if elem = 0x01 then
    match op with
    | 0 => fAdd a b
    | 1 => fMaxMin false a b
    | _ => fMaxMin true a b
  else
    let x := BitVec.ofNat 32 a
    let y := BitVec.ofNat 32 b
    (match op with
     | 0 => (x + y).toNat
     | 1 => if x.toInt < y.toInt then b else a
     | 2 => if y.toInt < x.toInt then b else a
     | 3 => (x &&& y).toNat
     | _ => (x ||| y).toNat, 0)

/-- Combine two partial chunks (R191, R192). -/
def combine2 (d : GroupDesc) (a b : MillChunk) : MillChunk :=
  if exactMode d then
    { a with
      flags := a.flags ||| b.flags
      data := ((words128 a.data).zip (words128 b.data)).flatMap fun e => leBytes 16 ((e.1 + e.2) % 2 ^ 128) }
  else
    let rs := ((words32 a.data).zip (words32 b.data)).map fun e => redOp d.elem d.op e.1 e.2
    { a with
      flags := rs.foldl (fun f r => f ||| r.2) (a.flags ||| b.flags)
      data := rs.flatMap fun r => leBytes 4 r.1 }

/-- A 16-byte partial of an FP32 element (R192). -/
def leafPartial (anchor : Int) (x : Nat) : Nat × Flg :=
  match dec32 x with
  | .fin s m e =>
    let (i, ix) := truncAt (anchor - 96) (.fin s m e)
    ((i % (2 ^ 128 : Nat)).toNat, if ix then fTR else 0)
  | _ => (0, fNV)

/-- What a member's chunk becomes at its leaf: in EXACT mode an FP32 chunk becomes four of partials (R192). -/
def leafChunks (d : GroupDesc) (m : MillChunk) : List MillChunk :=
  if exactMode d && d.elem = 0x01 then
    (List.range 4).map fun i =>
      let ps := (words32 ((m.data.drop (64 * i)).take 64)).map (leafPartial d.anchor)
      { m with
        chunk := 4 * m.chunk + i
        flags := ps.foldl (fun f p => f ||| p.2) m.flags
        data := ps.flatMap fun p => leBytes 16 p.1 }
  else [m]

/-- The root's conversion to OUT_FMT (R193). -/
def convertChunk (d : GroupDesc) (m : MillChunk) : MillChunk :=
  if d.kind != 0 then m
  else if exactMode d then
    if d.outFmt = 0x3E then m
    else
      let rs := (words128 m.data).map fun x =>
        encode d.outFmt d.rm d.sat 0 0 (decInt (sext 128 x) (d.anchor - 96))
      { m with
        flags := rs.foldl (fun f r => f ||| withAR r.2) m.flags
        data := leBytes (rs.length * esz d.outFmt) (packBits (8 * esz d.outFmt) (rs.map (·.1))) }
  else if d.elem = 0x12 then m
  else
    let rs := (words32 m.data).map fun x => encode d.outFmt d.rm d.sat 0 0 (dec32 x)
    { m with
      flags := rs.foldl (fun f r => f ||| withAR r.2) m.flags
      data := leBytes (rs.length * esz d.outFmt) (packBits (8 * esz d.outFmt) (rs.map (·.1))) }

/-! ### Heads of inputs -/

/-- The oldest staged chunk of a router's input. -/
def headOf (g : Group) (r inp : Nat) : Option MillChunk :=
  (g.up.find? fun e => e.1 = r && e.2.1 = inp).map (·.2.2)

/-- Inputs that bring SOURCE's data in a MULTICAST. -/
def bearsSource (d : GroupDesc) (r inp : Nat) : Bool :=
  if inp < 16 then memberAt d r inp = some d.source
  else leafOf d.source != r && (pathOf d.root (leafOf d.source)).any fun h => h.1 = r && 16 + h.2 = inp

/-- Inputs that must deliver before a chunk is combined: all, but for chunks of SOURCE's data after the first
(R196: a ready token is one chunk). -/
def needed (d : GroupDesc) (r : Nat) (chunk : Nat) : List Nat :=
  if d.kind = 1 && decide (0 < chunk) then (inputsOf d r).filter (bearsSource d r) else inputsOf d r

/-- The chunk a router would combine next: that of its first input, or SOURCE's. -/
def leadHead (g : Group) (d : GroupDesc) (r : Nat) : Option MillChunk :=
  let lead := if d.kind = 1 then ((inputsOf d r).filter (bearsSource d r) ++ inputsOf d r) else inputsOf d r
  lead.head?.bind fun i => headOf g r i

/-- All needed heads, in order, once every one is there. -/
def allHeads (g : Group) (d : GroupDesc) (r : Nat) : Option (List (Nat × MillChunk)) :=
  match leadHead g d r with
  | none => none
  | some m =>
    let hs := (needed d r m.chunk).filterMap fun i => (headOf g r i).map fun h => (i, h)
    if hs.length = (needed d r m.chunk).length then some hs else none

/-- Whether heads agree on SEQ and CHUNK. -/
def agree : List (Nat × MillChunk) → Bool
  | [] => true
  | (_, m) :: r => r.all fun e => e.2.seq = m.seq && e.2.chunk = m.chunk

/-- Take the heads out of staging. -/
def popHeads (g : Group) (r : Nat) (inps : List Nat) : Group :=
  inps.foldl (fun g i =>
    match g.up.find? fun e => e.1 = r && e.2.1 = i with
    | some e => { g with up := removeOne e g.up }
    | none => g) g

/-- Fold the inputs left to right; a MULTICAST passes SOURCE's chunk, or a token. -/
def foldHeads (d : GroupDesc) (r : Nat) : List (Nat × MillChunk) → Option MillChunk
  | [] => none
  | (i, m) :: rest =>
    if d.kind = 1 then
      some (match ((i, m) :: rest).find? fun e => bearsSource d r e.1 with | some e => e.2 | none => m)
    else some (rest.foldl (fun a e => combine2 d a e.2) m)

/-- Chunks of a group in flight to, or staged at, an input: its credits in use (an expanded leaf chunk counts
once). -/
def inUse (s : State) (g : Group) (d : GroupDesc) (gi r inp : Nat) : Nat :=
  let st := (g.up.filter fun e => e.1 = r && e.2.1 = inp).length
  let st := if inp < 16 && exactMode d && d.elem = 0x01 then ceilDiv st 4 else st
  st + (s.mil.flight.filter fun f => f.m.group = gi && f.kind = .partial_ r inp).length

def downUse (s : State) (g : Group) (gi r : Nat) : Nat :=
  (g.down.filter fun e => e.1 = r).length +
  (s.mil.flight.filter fun f => f.m.group = gi && f.kind = .result (.router r)).length

def fly (s : State) (k : MKind) (m : MillChunk) : State :=
  { s with mil := { s.mil with flight := s.mil.flight ++ [⟨k, m⟩] } }

/-! ### Failure (R190, R200 and its cases, R323) -/

/-- Operations of a group that still wait in their cores, and threads that wait on a count (R200). -/
def groupThreads (s : State) (gi : Nat) : List (Nat × AOp) :=
  s.cores.flatMap fun c => c.2.aops.filterMap fun o =>
    match o.kind with
    | .mred _ _ g _ | .bell g _ => if g = gi then some (c.1, o) else none
    | _ => none

/-- Waiting threads take a deferred fault, and their counts are never made. -/
def failWaits (s : State) (gi cause status : Nat) : State :=
  let s := (groupThreads s gi).foldl (fun s e => failOp s e.1 e.2 cause status 0) s
  let g := s.group gi
  let s := g.waits.foldl (fun s w =>
    let s := s.modThr w.member w.thread fun th => noteDeferred th w.op cause status w.pc 0
    if endedByFault (s.thr w.member w.thread) then takeDeferred s w.member w.thread else s) s
  s.setGroup gi { s.group gi with waits := [] }

/-- A group goes FAULTED: its staging is emptied, GROUP_FAULTED is logged, and the threads that wait take a
deferred fault, through the NOTICE of R200 where a die was lost. -/
def faultGroup (s : State) (gi status : Nat) (missing : Nat) : State :=
  let g := s.group gi
  if g.state ≠ 1 then s
  else
    let root := (g.desc.map (·.root)).getD 0
    let s := s.setGroup gi { g with
      state := 3, status := status, up := [], bells := [], down := [], dep := [], depWait := none,
      depLinks := [], depZlr := [], own := [], fin := [], fbells := [], fout := [] }
    let s := { s with mil := { s.mil with flight := s.mil.flight.filter fun f => f.m.group ≠ gi } }
    bellCheck (logEvent s 0x0410 (routerFb root) 0x0B (routerLocal root) g.ctx (BitVec.ofNat 64 gi)
      (BitVec.ofNat 64 (status + 2 ^ 32 * missing))) gi

/-- CAUSE of a group's status for the threads that wait. -/
def groupCause (status : Nat) : Nat :=
  if status = 0x0301 then cGRN else if status = 0x0401 ∨ status = 0x0402 ∨ status = 0x0403 then cREMOTE
  else if status = 0x0200 then cABORTED else if status = 0x0201 then cRIGHTS else if status = 0x0300 then cMEM
  else cILLEGAL

/-- Fault a group and its waiting threads at once. -/
def breakGroup (s : State) (gi status missing : Nat) : State :=
  let s := faultGroup s gi status missing
  failWaits s gi (groupCause status) (if groupCause status = cILLEGAL then 0 else status)

/-! ### Delivery (R194, R195) -/

/-- NEXT_SEQ goes on past sequences that every member has. -/
def advanceSeq : Nat → Group → GroupDesc → Group
  | 0, g, _ => g
  | fuel + 1, g, d =>
    if (d.members.all fun n => g.done.contains (n, g.nextSeq)) && !d.members.isEmpty then
      advanceSeq fuel { g with
        nextSeq := g.nextSeq + 1
        done := g.done.filter fun e => e.2 ≠ g.nextSeq } d
    else g

def advanceBell : Nat → Group → GroupDesc → Group
  | 0, g, _ => g
  | fuel + 1, g, d =>
    if (d.members.all fun n => g.released.contains (n, g.nextBell)) && !d.members.isEmpty then
      advanceBell fuel { g with
        nextBell := g.nextBell + 1
        released := g.released.filter fun e => e.2 ≠ g.nextBell } d
    else g

/-- One count on a member thread's counter, flags first (R194). -/
def countWait (s : State) (w : MWait) (f : Flg) : State :=
  wake (s.modThr w.member w.thread fun th =>
    let th := th.orFlg f
    th.wc w.ctr (th.rc w.ctr + 1)) w.member

/-- A result chunk reaches a member's core: it is written to its buffer; with the last, the thread that issued
the MRED gets the flags and one count. -/
def deliver (s : State) (gi n : Nat) (d : GroupDesc) (m : MillChunk) : State :=
  let b := m.seq.toNat % d.nbuf
  let a := d.resultLs + b * outLen d + m.chunk * outChunkLen d
  let s := s.modCore n fun c => (lsWrite c a m.data).1
  let g := s.group gi
  let (k, f) := match g.got.find? fun e => e.1 = n && e.2.1 = m.seq with
    | some e => (e.2.2.1, e.2.2.2)
    | none => (0, 0)
  let rest := g.got.filter fun e => !(e.1 = n && e.2.1 = m.seq)
  if k + 1 < outChunks d then
    s.setGroup gi { g with got := rest ++ [(n, m.seq, k + 1, f ||| m.flags)] }
  else
    let ws := g.waits.filter fun w => w.member = n && w.seq = m.seq && !w.bell
    let g := { g with
      got := rest
      waits := g.waits.filter fun w => !(w.member = n && w.seq = m.seq && !w.bell)
      done := g.done ++ [(n, m.seq)] }
    let s := s.setGroup gi (advanceSeq 16 g d)
    ws.foldl (fun s w => countWait s w (f ||| m.flags)) s

/-- A RELEASE reaches a member's core (R198): one count at every thread that issued a BELL for the sequence. -/
def release (s : State) (gi n : Nat) (d : GroupDesc) (q : W32) : State :=
  let g := s.group gi
  let ws := g.waits.filter fun w => w.member = n && w.seq = q && w.bell
  let g := { g with
    waits := g.waits.filter fun w => !(w.member = n && w.seq = q && w.bell)
    released := g.released ++ [(n, q)] }
  let s := s.setGroup gi (advanceBell 16 g d)
  bellCheck (ws.foldl (fun s w =>
    let s := s.modCore n fun c => dropOp c w.op
    countWait s w 0) s) gi

/-- The requester of a group's deposits: its root's port. -/
def millReq (s : State) (gi : Nat) (d : GroupDesc) : Req :=
  ⟨routerFb d.root, 320 + routerLocal d.root, (s.group gi).ctx, .mill gi⟩

/-- Why a deposit does not go on breaks its group, unless it waits. -/
def millStop (s : State) (gi : Nat) : XStop → State
  | .wait => s
  | .rights _ => breakGroup s gi 0x0201 0
  | .hostLost _ => breakGroup s gi 0x0400 0
  | .aborted _ => breakGroup s gi 0x0200 0

/-- At GLOBAL, a sequence whose deposit is complete asks for a zero-length read on each link it wrote (R195, R276); a
link that is lost by then has failed it. -/
def depositZlr (s : State) (gi : Nat) (d : GroupDesc) (q : W32) : State :=
  let ls := ((s.group gi).depLinks.filter fun e => e.1 = q).map (·.2)
  if d.vis ≠ 2 || ls.isEmpty then s
  else if zlrLinks s ls ≠ ls then breakGroup s gi 0x0400 0
  else
    let g := s.group gi
    issueZlr (s.setGroup gi { g with depZlr := g.depZlr ++ ls.map fun l => (q, l) }) (.mill gi q) ls

/-- Deposit a result chunk from the root (R195): it waits on a translation, or fails the group. -/
def depositChunk (s : State) (gi : Nat) (d : GroupDesc) (m : MillChunk) : State :=
  let a := d.resultDva + m.seq.toNat % d.nbuf * outLen d + m.chunk * outChunkLen d
  match accessWrite true s (millReq s gi d) a m.data with
  | .waits s => s.setGroup gi { s.group gi with depWait := some m }
  | .stops s e => millStop s gi e
  | .fails s f => breakGroup s gi f.status 0
  | .done s _ ls =>
    let g := s.group gi
    let (k, fl) := match g.dep.find? fun e => e.1 = m.seq with
      | some e => (e.2.1, e.2.2)
      | none => (0, 0)
    let s := s.setGroup gi { g with
      depWait := none
      dep := (g.dep.filter fun e => e.1 ≠ m.seq) ++ [(m.seq, k + 1, fl ||| m.flags)]
      depLinks := ls.foldl (fun xs l => if xs.contains (m.seq, l) then xs else xs ++ [(m.seq, l)]) g.depLinks }
    if outChunks d ≤ k + 1 then depositZlr s gi d m.seq else s

/-- A result chunk can leave the root into the module: a down staging chunk is free, or the deposit's buffer is
(R195, R197). DEDUCED: log entry 52. -/
def canEmit (s : State) (gi : Nat) (d : GroupDesc) (q : W32) : Bool :=
  let g := s.group gi
  if localDown g d then decide ((g.down.filter fun e => e.1 = d.root).length < d.depth)
  else g.depWait.isNone && decide ((q - g.nextSeq).toNat < d.nbuf)

/-- A converted chunk leaves the root into the module. -/
def emit (s : State) (gi : Nat) (d : GroupDesc) (m : MillChunk) : State :=
  let g := s.group gi
  if localDown g d then s.setGroup gi { g with down := g.down ++ [(d.root, m)] }
  else depositChunk s gi d m

/-! ### The fabric stage (R320-R325) -/

/-- A collective packet. -/
def collPkt (s : State) (type dst gi prio : Nat) (m : MillChunk) : FPkt :=
  { hops := 0, vn := 0, type := type, src := s.fab.id, dst := dst, tag := 0, prio := prio, op := 0, vis := 0,
    group := gi, seq := m.seq, addr := 0, len := m.data.length, chunk := m.chunk, status := 0,
    flags := m.flags, data := m.data }

/-- Queue a chunk for another module. -/
def fabOut (s : State) (gi dst kind : Nat) (m : MillChunk) : State :=
  let g := s.group gi
  s.setGroup gi { g with fout := g.fout ++ [{ dst := dst, kind := kind, m := m }] }

def fabKind (k : Nat) : Nat := if k = 1 then 0x11 else 0x10

/-- Send queued chunks while a receiver has fewer than DEPTH unacknowledged (R322). -/
def pumpOut : Nat → State → Nat → GroupDesc → State
  | 0, s, _, _ => s
  | fuel + 1, s, gi, d =>
    let g := s.group gi
    match g.fout.find? fun o => !o.sent &&
        decide ((g.fout.filter fun x => x.sent && x.dst = o.dst).length < d.depth) with
    | none => s
    | some o =>
      let s := s.setGroup gi { g with fout := replaceFirst (fun x => x = o) (fun x => { x with sent := true }) g.fout }
      pumpOut fuel (send s (collPkt s (fabKind o.kind) o.dst gi (if d.prio = 1 then 1 else 2) o.m)) gi d

/-- A child's chunk that goes with the own chunk `m`. -/
def childChunk (g : Group) (m : MillChunk) (i : Nat) : Option (Nat × MillChunk) :=
  g.fin.find? fun e => e.1 = i && e.2.seq = m.seq && e.2.chunk = m.chunk

/-- The oldest own chunk and every child's for it, in the order of the child list, at ROOT (R321). -/
def fabHeads (g : Group) (t : FTree) : Option (List MillChunk) :=
  match g.own with
  | [] => none
  | m :: _ =>
    let hs := (List.range t.children.length).filterMap fun i => (childChunk g m i).map (·.2)
    if hs.length = t.children.length then some (m :: hs) else none

/-- They are combined: the stage goes on to the next chunk, or the next sequence. -/
def popFab (g : Group) (d : GroupDesc) (t : FTree) : Group :=
  match g.own with
  | [] => g
  | m :: own =>
    let last := d.kind = 1 || decide (upChunks d ≤ m.chunk + 1)
    (List.range t.children.length).foldl (fun x i =>
      match childChunk g m i with
      | some e => { x with fin := removeOne e x.fin }
      | none => x)
      { g with own := own, fseq := if last then m.seq + 1 else m.seq, fchunk := if last then 0 else m.chunk + 1 }

/-- Send a result to every child module and into the module. -/
def fabDown (s : State) (gi : Nat) (d : GroupDesc) (t : FTree) (m : MillChunk) : State :=
  let s := t.children.foldl (fun s c => fabOut s gi c 1 m) s
  emit s gi d m

/-- SOURCE's whole sequence has reached the root of a MULTICAST (R196, R324). -/
def sourceIn (g : Group) (d : GroupDesc) (q : W32) : Bool :=
  (g.own.filter fun m => m.seq = q).length = upChunks d

/-- One move of the fabric stage. -/
def fabStep (s : State) (gi : Nat) (d : GroupDesc) (t : FTree) : Option State :=
  let g := s.group gi
  if d.kind = 1 && t.parent.isSome && (match g.own with | m :: _ => m.chunk != 0 | [] => false) then
    -- SOURCE's data of a module that is not the fabric root are not used (R324)
    some (s.setGroup gi { g with own := g.own.drop 1 })
  else
  match fabHeads g t with
  | none => none
  | some [] => none
  | some (m :: hs) =>
    if d.kind = 1 then
      -- own chunks wait at ROOT; a module with a parent sends a ready notice, the fabric root its data
      match t.parent with
      | some p => some (fabOut (s.setGroup gi { popFab g d t with own := g.own.filter fun x => x.seq ≠ m.seq })
          gi p 2 { m with data := [], chunk := 0 })
      | none =>
        if sourceIn g d m.seq && decide ((g.down.filter fun e => e.1 = d.root).length = 0) then
          let ms := g.own.filter fun x => x.seq = m.seq
          let s := s.setGroup gi { popFab g d t with own := g.own.filter fun x => x.seq ≠ m.seq }
          some (ms.foldl (fun s x => fabDown s gi d t x) s)
        else none
    else
      let c := hs.foldl (fun a b => combine2 d a b) m
      match t.parent with
      | some p => some (fabOut (s.setGroup gi (popFab g d t)) gi p 0 c)
      | none =>
        if canEmit s gi d m.seq then some (fabDown (s.setGroup gi (popFab g d t)) gi d t (convertChunk d c))
        else none

/-! ### Movement inside the module -/

/-- Whether a combined chunk can leave a router: upward against a credit, or out of the root (R187, R195-R197). A
MULTICAST's root gathers a whole sequence before its down phase (DEDUCED, log entry 43). -/
def canLeave (s : State) (gi : Nat) (d : GroupDesc) (r : Nat) (m : MillChunk) : Bool :=
  let g := s.group gi
  if r = d.root then
    if g.tree.isSome || d.kind = 1 then decide ((g.own.filter fun x => x.seq = m.seq).length < upChunks d + d.depth)
    else canEmit s gi d m.seq
  else match parentOf d r with
    | some (p, i) => decide (inUse s g d gi p i < d.depth)
    | none => false

/-- A combined chunk leaves a router. -/
def leaveRouter (s : State) (gi : Nat) (d : GroupDesc) (r : Nat) (m : MillChunk) : State :=
  let g := s.group gi
  if r = d.root then
    if g.tree.isSome || d.kind = 1 then s.setGroup gi { g with own := g.own ++ [m] }
    else emit s gi d (convertChunk d m)
  else match parentOf d r with
    | some (p, i) => fly s (.partial_ p i) m
    | none => s

/-- One combining router makes one move up: the heads agree and combine, or the group faults. -/
def upStep (s : State) (gi : Nat) (d : GroupDesc) (r : Nat) : Option State :=
  let g := s.group gi
  match allHeads g d r with
  | none => none
  | some hs =>
    if !agree hs then some (breakGroup s gi 0x0102 0)
    else
      match foldHeads d r hs with
      | none => none
      | some m =>
        if canLeave s gi d r m then
          some (leaveRouter (s.setGroup gi (popHeads g r (hs.map (·.1)))) gi d r m)
        else none

/-- A MULTICAST without a fabric tree begins its down phase once the sequence has reached the root. -/
def castStep (s : State) (gi : Nat) (d : GroupDesc) : Option State :=
  let g := s.group gi
  match g.own with
  | m :: _ =>
    if d.kind = 1 && g.tree.isNone && (sourceIn g d m.seq || m.chunk != 0) && canEmit s gi d m.seq then
      some (emit (s.setGroup gi { g with own := g.own.drop 1 }) gi d m)
    else none
  | [] => none

/-- One router copies its oldest down chunk to every output, holding a credit on each (R197). -/
def downStep (s : State) (gi : Nat) (d : GroupDesc) (r : Nat) : Option State :=
  let g := s.group gi
  match g.down.find? fun e => e.1 = r with
  | none => none
  | some e =>
    if (childrenOf d r).all fun u => decide (downUse s g gi u < d.depth) then
      let s := s.setGroup gi { g with down := removeOne e g.down }
      let s := (slotsAt d r).foldl (fun s k =>
        match memberAt d r k with
        | some n => fly s (.result (.member n)) e.2
        | none => s) s
      some ((childrenOf d r).foldl (fun s u => fly s (.result (.router u)) e.2) s)
    else none

/-- Whatever of a group can move, moves. -/
def pumpGroup : Nat → State → Nat → State
  | 0, s, _ => s
  | fuel + 1, s, gi =>
    let g := s.group gi
    match g.desc with
    | none => s
    | some d =>
      if g.state ≠ 1 then s
      else
        let rs := combining d
        match (rs.findSome? (downStep s gi d)).orElse fun _ => (castStep s gi d).orElse fun _ =>
            (g.tree.bind (fabStep s gi d)).orElse fun _ => rs.findSome? (upStep s gi d) with
        | some s => pumpGroup fuel s gi
        | none => pumpOut (g.fout.length + 1) s gi d

def pump (s : State) (gi : Nat) : State := pumpGroup 4096 s gi

/-! ### Bells (R198, R325) -/

/-- A Bell sequence's RELEASE starts down the local tree. -/
def startRelease (s : State) (gi : Nat) (d : GroupDesc) (q : W32) : State :=
  let m : MillChunk := ⟨gi, q, 0, 0, [], 1⟩
  let s := (slotsAt d d.root).foldl (fun s k =>
    match memberAt d d.root k with
    | some n => fly s (.release (.member n)) m
    | none => s) s
  (childrenOf d d.root).foldl (fun s u => fly s (.release (.router u)) m) s

/-- A control packet of a barrier between modules. -/
def bellPkt (s : State) (type dst gi : Nat) (q : W32) : FPkt :=
  { collPkt s type dst gi 0 ⟨gi, q, 0, 0, [], 1⟩ with prio := 0 }

/-- The local Bells of a sequence are in at ROOT, and every child module's: on to the parent, or the release. -/
def rootBell (s : State) (gi : Nat) (d : GroupDesc) (q : W32) : State :=
  let g := s.group gi
  match g.tree with
  | none => startRelease s gi d q
  | some t =>
    -- key 4096 marks the module's own Bells
    let g := if g.fbells.contains (4096, q) then g else { g with fbells := g.fbells ++ [(4096, q)] }
    let s := s.setGroup gi g
    if (List.range t.children.length).all fun i => g.fbells.contains (i, q) then
      let s := s.setGroup gi { g with fbells := g.fbells.filter fun e => e.2 ≠ q }
      match t.parent with
      | some p => send s (bellPkt s 0x12 p gi q)
      | none =>
        let s := t.children.foldl (fun s c => send s (bellPkt s 0x13 c gi q)) s
        startRelease s gi d q
    else s

/-- A Bell reaches an input of a combining router. -/
def takeBell (s : State) (gi : Nat) (d : GroupDesc) (r inp : Nat) (q : W32) : State :=
  let g := s.group gi
  let bs := g.bells ++ [(r, inp, q)]
  if (inputsOf d r).all fun i => bs.contains (r, i, q) then
    let s := s.setGroup gi { g with bells := bs.filter fun e => !(e.1 = r && e.2.2 = q) }
    if r = d.root then rootBell s gi d q
    else match parentOf d r with
      | some (p, i) => fly s (.bell p i) ⟨gi, q, 0, 0, [], 1⟩
      | none => s
  else s.setGroup gi { g with bells := bs }

/-! ### Members' contributions (R188, R198) -/

/-- d of R188: the sequence number less the next one, signed. -/
def seqDist (q next : W32) : Int := (q - next).toInt

/-- An operation of a member leaves its core: its next sequence number goes on, and an operation that waited for
the next one leaves too. -/
def leaveCore : Nat → State → Nat → Nat → Bool → State
  | 0, s, _, _, _ => s
  | fuel + 1, s, gi, n, bell =>
    let g := s.group gi
    let next := tget 0 (if bell then g.bseq else g.mseq) n
    let mine (o : AOp) : Bool := match o.kind with
      | .mred _ _ h q => !bell && h = gi && q = next && o.stage = 1
      | .bell h q => bell && h = gi && q = next && o.stage = 1
      | _ => false
    match (s.core n).aops.find? mine with
    | none => s
    | some o =>
      let s := s.modCore n fun c =>
        { c with aops := c.aops.map fun x => if x.id = o.id then { x with stage := if bell then 2 else 0 } else x }
      if bell then
        let s := s.setGroup gi { g with bseq := tset 0 g.bseq n (next + 1) }
        leaveCore fuel (fly s (.bell (leafOf n) (slotOf n)) ⟨gi, next, 0, 0, [], 1⟩) gi n bell
      else leaveCore fuel (s.setGroup gi { g with mseq := tset 0 g.mseq n (next + 1) }) gi n bell

end Sys2Proof.Machine
end

