-- ==== Sys2Proof/Machine/MillRows.lean ====
section
/-! DEFINITION. Events of the Mill (R190, R194, R195, R198, R200) and the core instructions MRED and BELL (R188,
R198).  A chunk, Bell, release or notice is received only if it was sent: it stands in `mil.flight`. -/

namespace Sys2Proof.Machine

/-- Take a flight out, if it is there; a packet of another version is refused whole (R10). -/
def land (s : State) (k : MKind) (m : MillChunk) : Option State :=
  if m.version = 1 && s.mil.flight.contains ⟨k, m⟩ then
    some { s with mil := { s.mil with flight := removeOne ⟨k, m⟩ s.mil.flight } }
  else none

/-- An active group and its description. -/
def activeDesc (s : State) (gi : Nat) : Option GroupDesc :=
  if (s.group gi).state = 1 then (s.group gi).desc else none

/-- MILL_PARTIAL_RECEIVE (R190): a chunk is staged; what has all its inputs combines. `ecc` is what the staging
buffer's code says of it. -/
def execMillPartialReceive (router inp : Nat) (m : MillChunk) (ecc : Ecc) (s : State) : Out :=
  match land s (.partial_ router inp) m with
  | none => .next s -- no such partial was sent
  | some s =>
    match activeDesc s m.group with
    | none => .next s
    | some d =>
      let s := if ecc = .corrected then
          { s with mil := { s.mil with
              stageCe := tset 0 s.mil.stageCe (routerFb router)
                (satInc 65535 (tget 0 s.mil.stageCe (routerFb router))) } }
        else s
      if ecc = .uncorrectable then .next (breakGroup s m.group 0x0301 0)
      else
        let g := s.group m.group
        let ms := if inp < 16 then leafChunks d m else [m]
        .next (pump (s.setGroup m.group { g with up := g.up ++ ms.map fun x => (router, inp, x) }) m.group)

/-- MILL_RESULT_RECEIVE (R194, R197): a router stages and copies it down; a member's core writes its buffer. -/
def execMillResultReceive (node : MillNode) (m : MillChunk) (s : State) : Out :=
  match land s (.result node) m with
  | none => .next s -- no such result was sent
  | some s =>
    match activeDesc s m.group with
    | none => .next s
    | some d =>
      match node with
      | .router r =>
        let g := s.group m.group
        .next (pump (s.setGroup m.group { g with down := g.down ++ [(r, m)] }) m.group)
      | .member n => .next (pump (deliver s m.group n d m) m.group)

/-- MILL_DEPOSIT_FLAG (R195): the data of the next sequence have reached their visibility point; its flag word is
written, and the next sequence may use its buffer. -/
def execMillDepositFlag (group : Nat) (s : State) : Out :=
  match activeDesc s group with
  | none => .next s -- the group is not ACTIVE
  | some d =>
    let g := s.group group
    match g.dep.find? fun e => e.1 = g.nextSeq with
    | none => .next s -- no deposit is complete
    | some e =>
      if e.2.1 < outChunks d || g.depWait.isSome || g.depZlr.any fun x => x.1 = e.1 then
        .next s -- the deposit has not reached its visibility point
      else
        let w := leBytes 8 (e.1.toNat + 2 ^ 32 * e.2.2.toNat + 2 ^ 63)
        match accessWrite false s (millReq s group d) d.flagDva w with
        | .waits s => .next s
        | .stops s e => .next (millStop s group e)
        | .fails s f => .next (breakGroup s group f.status 0)
        | .done s _ _ =>
          let g := s.group group
          .next (pump (s.setGroup group { g with
            dep := g.dep.filter fun x => x.1 ≠ e.1
            depLinks := g.depLinks.filter fun x => x.1 ≠ e.1
            nextSeq := g.nextSeq + 1 }) group)

/-- BELL_FLIT_RECEIVE (R198). -/
def execBellFlitReceive (router inp group : Nat) (seq : W32) (s : State) : Out :=
  match land s (.bell router inp) ⟨group, seq, 0, 0, [], 1⟩ with
  | none => .next s -- no such Bell was sent
  | some s =>
    match activeDesc s group with
    | none => .next s
    | some d => .next (takeBell s group d router inp seq)

/-- RELEASE_RECEIVE (R198). -/
def execReleaseReceive (node : MillNode) (group : Nat) (seq : W32) (s : State) : Out :=
  match land s (.release node) ⟨group, seq, 0, 0, [], 1⟩ with
  | none => .next s -- no such release was sent
  | some s =>
    match activeDesc s group with
    | none => .next s
    | some d =>
      match node with
      | .member n => .next (release s group n d seq)
      | .router r =>
        let m : MillChunk := ⟨group, seq, 0, 0, [], 1⟩
        let s := (slotsAt d r).foldl (fun s k =>
          match memberAt d r k with
          | some n => fly s (.release (.member n)) m
          | none => s) s
        .next ((childrenOf d r).foldl (fun s u => fly s (.release (.router u)) m) s)

/-- NOTICE_RECEIVE (R200): a surviving member's waiting threads take their deferred fault. -/
def execNoticeReceive (group member : Nat) (s : State) : Out :=
  match land s (.notice member) ⟨group, 0, 0, 0, [], 1⟩ with
  | none => .next s -- no such notice was sent
  | some s =>
    let g := s.group group
    let c := groupCause g.status
    let ops := (groupThreads s group).filter fun e => e.1 = member
    let s := ops.foldl (fun s e => failOp s e.1 e.2 c g.status 0) s
    let mine := (s.group group).waits.filter fun w => w.member = member
    let s := mine.foldl (fun s w =>
      let s := s.modThr w.member w.thread fun th => noteDeferred th w.op c g.status w.pc 0
      if endedByFault (s.thr w.member w.thread) then takeDeferred s w.member w.thread else s) s
    .next (s.setGroup group { s.group group with
      waits := (s.group group).waits.filter fun w => w.member ≠ member })

/-! ### MRED and BELL -/

/-- What the group of an MRED or BELL answers at issue (R182, R188, R198, R200): 0 it may go on, 1 ILLEGAL, 2 a
deferred fault of a FAULTED group. DEDUCED: log entry 123. -/
def groupCheck (s : State) (n t gi : Nat) (bell : Bool) (q : W32) (len : Nat) : Nat :=
  let g := s.group gi
  if gi > 255 || g.ctx != (if t = 0 then 0 else (s.core n).ctx) then 1
  else if g.state = 3 then 2
  else if g.state ≠ 1 then 1
  else match g.desc with
    | none => 1
    | some d =>
      let dist := seqDist q (tget 0 (if bell then g.bseq else g.mseq) n)
      let want := if d.kind = 1 && d.source != n then 32 else d.length
      if !d.members.contains n || dist < 0 || 15 < dist then 1
      else if !bell && (d.kind = 2 || len != want) then 1
      else 0

/-- An MRED or BELL on a FAULTED group: it is issued, and its thread takes the deferred fault of the group. -/
def faultedOp (s : State) (n t k gi : Nat) (kind : AKind) : Res :=
  match startOp n t k kind s with
  | .done s =>
    let g := s.group gi
    let c := groupCause g.status
    match (s.core n).aops.getLast? with
    | some o => .done (failOp s n o c (if c = cILLEGAL then 0 else g.status) 0)
    | none => .done s
  | r => r

/-- MRED (R103, R188): the source is read, and the contribution leaves, when the operation completes. -/
def execMred (n t pr a b c k : Nat) (s : State) : Out :=
  coreStep n t pr false
    (fun s => let th := s.thr n t
      let la := (th.rs a).toNat
      let len := (th.rs c).toNat
      let gi := bits (th.rs b).toNat 7 0
      let q : W32 := BitVec.ofNat 32 ((th.rs b).toNat / 2 ^ 16)
      let top := if t = 0 then lsTop else monLs
      [(groupCheck s n t gi false q len == 1, cILLEGAL, 0),
       (inMon t la len, cPRIV, la),
       (la % 32 != 0 || decide (top < la + len), cALIGN, la),
       (len % 32 != 0 || decide (len < 32) || decide (253952 < len), cALIGN, 0)])
    (fun s => let th := s.thr n t
      let la := (th.rs a).toNat
      let len := (th.rs c).toNat
      let gi := bits (th.rs b).toNat 7 0
      let q : W32 := BitVec.ofNat 32 ((th.rs b).toNat / 2 ^ 16)
      if groupCheck s n t gi false q len = 2 then faultedOp s n t k gi (.mred la len gi q)
      else
        match startOp n t k (.mred la len gi q) s with
        | .done s =>
          let id := (s.core n).nextId - 1
          let s := s.modCore n fun c =>
            { c with aops := c.aops.map fun x => if x.id = id then { x with stage := 1 } else x }
          let g := s.group gi
          let counts := match g.desc with | some d => localDown g d | none => false
          let w : MWait := ⟨n, t, id, (s.thr n t).pc.toNat, q, (g.desc.map (·.resCtr)).getD 0, false⟩
          let s := if counts then s.setGroup gi { g with waits := g.waits ++ [w] } else s
          .done (leaveCore 16 s gi n false)
        | r => r) s

/-- BELL (R102, R198): it joins the barrier; its count is made when the release has reached the core. -/
def execBell (n t pr a b k : Nat) (s : State) : Out :=
  coreStep n t pr false
    (fun s => let th := s.thr n t
      let gi := (th.rs a).toNat
      [(decide (255 < gi) || groupCheck s n t gi true (BitVec.ofNat 32 (th.rs b).toNat) 0 == 1, cILLEGAL, 0)])
    (fun s => let th := s.thr n t
      let gi := (th.rs a).toNat
      let q : W32 := BitVec.ofNat 32 (th.rs b).toNat
      if groupCheck s n t gi true q 0 = 2 then faultedOp s n t k gi (.bell gi q)
      else
        match startOp n t k (.bell gi q) s with
        | .done s =>
          let id := (s.core n).nextId - 1
          let g := s.group gi
          -- a Bell of a sequence that another thread of the core has sent is counted with it
          let s := s.modCore n fun c =>
            { c with aops := c.aops.map fun x => if x.id = id then { x with stage := 1 } else x }
          let w : MWait := ⟨n, t, id, (s.thr n t).pc.toNat, q, k, true⟩
          .done (leaveCore 16 (s.setGroup gi { g with waits := g.waits ++ [w] }) gi n true)
        | r => r) s

/-- Chunks of a contribution that may go now: one for each free credit of the leaf router's slot (R187). -/
def sendChunks (n gi : Nat) (d : GroupDesc) (q : W32) (bs : List Byte) : Nat → Nat → State → State × Nat
  | 0, h, s => (s, h)
  | k + 1, h, s =>
    if inUse s (s.group gi) d gi (leafOf n) (slotOf n) < d.depth then
      sendChunks n gi d q bs k (h + 1)
        (fly s (.partial_ (leafOf n) (slotOf n)) ⟨gi, q, h, 0, (bs.drop (256 * h)).take 256, 1⟩)
    else (s, h)

/-- A contribution of the core to an earlier sequence of the group has not left it whole. -/
def earlierOut (s : State) (n gi : Nat) (q : W32) : Bool :=
  (s.core n).aops.any fun o => match o.kind with
    | .mred _ _ h p => h = gi && decide (0 < seqDist q p)
    | _ => false

/-- An MRED whose contribution leaves its core, after those to earlier sequences: its source is read and sent to its leaf
router chunk by chunk, and it is counted once all of it has been read (R89, R188). -/
def sendContribution (s : State) (n : Nat) (o : AOp) (ls len gi : Nat) (q : W32) : State :=
  if earlierOut s n gi q then s
  else
  match activeDesc s gi, lsRead (s.core n) ls len with
  | none, _ => s
  | _, .error e => failOp (logLocal s n e) n o cLOCAL 0 e
  | some d, .ok bs =>
    let total := ceilDiv len 256
    let (s, h) := sendChunks n gi d q bs (total - o.prog) o.prog s
    if h = total then countOp s n o 0
    else s.modCore n fun c =>
      { c with aops := c.aops.map fun x => if x.id = o.id then { x with prog := h } else x }

end Sys2Proof.Machine
end

