-- ==== Sys2Proof/Machine/Sync.lean ====
section
/-! DEFINITION. Synchronisation group (GRP 0x4) but for BELL: R85, R90, R101, R102, R283. -/

namespace Sys2Proof.Machine

/-- Wait until a counter reaches a value (R90). -/
def waitCounter (n t c : Nat) (v : W32) (s : State) : Res :=
  if reached ((s.thr n t).rc c) v then .done s else .stay (block s n t (.twait c v) none)

/-- TWAIT (R90): the target is IMM modulo 2^32. -/
def execTwait (n t pr c : Nat) (imm : Int) (s : State) : Out :=
  coreStep n t pr false (fun _ => []) (waitCounter n t c (BitVec.ofInt 32 imm)) s

/-- TWAITR (R90). -/
def execTwaitr (n t pr c a : Nat) (s : State) : Out :=
  coreStep n t pr false (fun _ => []) (fun s => waitCounter n t c (((s.thr n t).rs a).setWidth 32) s) s

/-- TSET (R90). -/
def execTset (n t pr c a : Nat) (s : State) : Out :=
  coreStep n t pr false (fun _ => []) (pure_ n t fun th => th.wc c ((th.rs a).setWidth 32)) s

/-- TGET (R90). -/
def execTget (n t pr d c : Nat) (s : State) : Out :=
  coreStep n t pr false (fun _ => []) (pure_ n t fun th => th.ws d ((th.rc c).setWidth 64)) s

/-- A thread that waits in the barrier, held or not, has its BAR retire; one that has still to issue it again after a hold
will pass (R101, R104). -/
def freeBar (mask : BitVec 16) (c : Core) (t : Nat) : Core :=
  let th := c.thread t
  if th.st = .waiting then c.setThread t (retire th)
  else if th.st = .held then
    c.setThread t { th with prev := .ready, prevWait := .nothing, pc := th.pc + 8 }
  else { c with passed := c.passed ++ [(t, mask)] }

/-- Whether every thread a mask names has arrived with that mask. -/
def barFull (l : List (Nat × BitVec 16)) (mask : BitVec 16) : Bool :=
  (List.range 16).all fun i => !mask.getLsbD i || l.contains (i, mask)

/-- BAR (R101). -/
def execBar (n t pr : Nat) (mask : BitVec 16) (s : State) : Out :=
  coreStep n t pr false
    (fun _ => [(mask.getLsbD 0 || !mask.getLsbD t, cILLEGAL, 0)])
    (fun s =>
      let c := s.core n
      if c.passed.contains (t, mask) then .done (s.setCore n { c with passed := removeOne (t, mask) c.passed })
      else
      let l := if c.arrived.contains (t, mask) then c.arrived else c.arrived ++ [(t, mask)]
      if barFull l mask then
        let others := (List.range 16).filter fun i => mask.getLsbD i && i != t
        .done (s.setCore n (others.foldl (freeBar mask) { c with arrived := l.filter fun e => e.2 ≠ mask }))
      else .stay (block (s.setCore n { c with arrived := l }) n t (.bar mask) none)) s

/-- Ask for a zero-length read on each link the thread's host writes used (R276, R283). -/
def askZlr (s : State) (n t : Nat) : State :=
  (s.thr n t).hostLinks.foldl (fun s l =>
    let k := s.link l
    if k.zlr.contains (.thread n t) then s else s.setLink l { k with zlr := k.zlr ++ [.thread n t] }) s

/-- FENCE (R283). -/
def execFence (n t pr vis : Nat) (s : State) : Out :=
  coreStep n t pr false (fun _ => [(decide (2 < vis), cILLEGAL, 0)])
    (fun s =>
      if writesPending s n t vis then
        .stay (block (if vis = 2 then askZlr s n t else s) n t (.fence vis) none)
      else .done s) s

/-- The comparison of WAITG and WAIT: EQ, NE, GE unsigned, LT unsigned. -/
def pollHolds (cmp : Nat) (x b : Word) : Bool :=
  match cmp with
  | 0 => decide (x = b)
  | 1 => decide (x ≠ b)
  | 2 => decide (b.toNat ≤ x.toNat)
  | _ => decide (x.toNat < b.toNat)

/-- A thread waits in WAITG with its instruction. -/
def waitgStay (s : State) (n t : Nat) (i : Blk) : Res := .stay (block s n t .waitg (some i))

/-- One poll of WAITG's word (R285). -/
def pollWaitg (n t pr a b cmp : Nat) (hostVal : HostVal) (s : State) : Res :=
  let th := s.thr n t
  let v := (th.rs a).toNat
  let i : Blk := .waitg pr a b cmp
  match pollRead s (coreReq s n t (.thread n t)) v hostVal with
  | .waits s => waitgStay s n t i
  | .stops s e => stopAccess s n t i e
  | .fails s f => .fault s f.cause f.cstatus v
  | .done s bs _ => if pollHolds cmp (BitVec.ofNat 64 (leNat bs)) (th.rs b) then .done s else waitgStay s n t i

/-- The frame of WAITG, with a host answer or without. -/
def waitgStep (n t pr a b cmp : Nat) (hostVal : HostVal) (s : State) : Out :=
  coreStep n t pr false (fun s => dvaChecks ((s.thr n t).rs a).toNat 8) (pollWaitg n t pr a b cmp hostVal) s

/-- WAITG (R102, R285). -/
def execWaitg (n t pr a b cmp : Nat) (s : State) : Out := waitgStep n t pr a b cmp .none s

/-- WAITG_POLL_READ (R285): the core reads the word again; `hostVal` is the word's value if it lies in host
memory, none where the read is answered Unsupported Request or Completer Abort (R230). -/
def execWaitgPollRead (n t : Nat) (hostVal : Option Word) (s : State) : Out :=
  let th := s.thr n t
  match th.st, th.blk with
  | .waiting, some (.waitg pr a b cmp) =>
    let d := th.dfr
    match waitgStep n t pr a b cmp (HostVal.of hostVal)
        (s.setThr n t { th with st := .ready, dfr := none }) with
    | .next s => .next (s.modThr n t fun x => { x with dfr := if x.dfr.isSome then x.dfr else d })
    | o => o
  | _, _ => .next s -- the thread does not wait in WAITG

/-- YIELD (R86). -/
def execYield (n t pr : Nat) (s : State) : Out :=
  coreStep n t pr false (fun _ => []) (pure_ n t fun th => { th with skip := true }) s

/-- EXIT (R85): to OFF once the thread's asynchronous operations are counted. DEDUCED: log entry 32. -/
def execExit (n t pr : Nat) (s : State) : Out :=
  coreStep n t pr false (fun _ => [])
    (fun s => .leave (wake (s.modThr n t fun th => { th with st := .waiting, wait := .exiting }) n)) s

/-- ECALL (R109): a kernel's goes to the monitor, whose shipped image answers it as a fault with CAUSE ILLEGAL (DESIGN CHOICE, log entry 33); thread 0 waits with its code. -/
def execEcall (n t pr code : Nat) (s : State) : Out :=
  coreStep n t pr false (fun _ => [])
    (fun s =>
      if t = 0 then .leave (s.modThr n t fun th => { th with st := .waiting, wait := .ecall code })
      else .fault s cILLEGAL 0 0) s

end Sys2Proof.Machine
end

