-- ==== Sys2Proof/Machine/FabricGroup.lean ====
section
/-! DEFINITION. Fabric group (GRP 0x5) but for MRED: R29, R103, R316, R317. -/

namespace Sys2Proof.Machine

/-- Checks of a global address (R29, R103): its reserved bits, and the reach table. -/
def gaChecks (s : State) (n t ga len : Nat) : List Check :=
  let m := bits ga 55 42
  let ctx := if t = 0 then 0 else (s.core n).ctx
  [(bits ga 41 40 != 0 || bits ga 63 56 != 0 || decide (2 ^ 40 < ga % 2 ^ 40 + len), cADDR, ga),
   (m != s.fab.id && !(s.ctx ctx).reach.contains m, cREACH, ga)]

/-- Alignment and length of R99 for a remote copy. -/
def remoteChecks (t la ga len vis : Nat) : List Check :=
  let top := if t = 0 then lsTop else monLs
  [(decide (2 < vis), cILLEGAL, 0), (inMon t la len, cPRIV, la),
   (la % 32 != 0 || decide (top < la + len), cALIGN, la), (ga % 32 != 0, cALIGN, ga),
   (len % 32 != 0 || decide (len < 32) || decide (253952 < len), cALIGN, 0)]

/-- RPUT (R103). -/
def execRput (n t pr a b c k vis : Nat) (s : State) : Out :=
  coreStep n t pr false
    (fun s => let th := s.thr n t
      remoteChecks t (th.rs a).toNat (th.rs b).toNat (th.rs c).toNat vis ++
        gaChecks s n t (th.rs b).toNat (th.rs c).toNat)
    (fun s => let th := s.thr n t
      startOp n t k (.rput (th.rs a).toNat (th.rs b).toNat (th.rs c).toNat vis) s) s

/-- RGET (R103). -/
def execRget (n t pr a b c k vis : Nat) (s : State) : Out :=
  coreStep n t pr false
    (fun s => let th := s.thr n t
      remoteChecks t (th.rs a).toNat (th.rs b).toNat (th.rs c).toNat vis ++
        gaChecks s n t (th.rs b).toNat (th.rs c).toNat)
    (fun s => let th := s.thr n t
      startOp n t k (.rget (th.rs a).toNat (th.rs b).toNat (th.rs c).toNat) s) s

/-- RATOM (R103, R131): codes 0x0 to 0x9. -/
def execRatom (n t pr a b c op k vis : Nat) (s : State) : Out :=
  coreStep n t pr false
    (fun s => let th := s.thr n t
      let la := (th.rs a).toNat
      [(decide (9 < op) || decide (2 < vis), cILLEGAL, 0), (inMon t la 8, cPRIV, la),
       (la % 8 != 0 || decide (lsTop < la + 8), cALIGN, la), ((th.rs b).toNat % 8 != 0, cALIGN, (th.rs b).toNat)] ++
        gaChecks s n t (th.rs b).toNat 8)
    (fun s => let th := s.thr n t
      startOp n t k (.ratom (th.rs a).toNat (th.rs b).toNat op (th.rs c) vis) s) s

/-- Whether a thread may use a link raw (R103, R316). -/
def rawOk (s : State) (n t l : Nat) : Bool :=
  let ctx := if t = 0 then 0 else (s.core n).ctx
  decide (l < 96) && (s.ctx ctx).raw && ctx != 0 && (s.flink l).rawCtx = ctx

/-- XSEND (R316). -/
def execXsend (n t pr a b c k : Nat) (s : State) : Out :=
  coreStep n t pr false
    (fun s => let th := s.thr n t
      let la := (th.rs a).toNat
      let l := bits (th.rs b).toNat 6 0
      let len := (th.rs c).toNat
      let ctx := if t = 0 then 0 else (s.core n).ctx
      let top := if t = 0 then lsTop else monLs
      [(!rawOk s n t l, cPRIV, 0), (inMon t la len, cPRIV, la),
       (la % 32 != 0 || decide (top < la + len), cALIGN, la),
       (len % 32 != 0 || decide (len < 32) || decide (4096 < len), cALIGN, 0),
       (!(s.ctx ctx).reach.contains (s.flink l).partner, cREACH, 0)])
    (fun s => let th := s.thr n t
      startOp n t k (.xsend (th.rs a).toNat (bits (th.rs b).toNat 6 0) (th.rs c).toNat) s) s

/-- XRECV (R317): the oldest raw packet of a link, or a wait for one. -/
def execXrecv (n t pr a b c : Nat) (s : State) : Out :=
  coreStep n t pr false
    (fun s => let th := s.thr n t
      let la := (th.rs a).toNat
      let len := (th.rs c).toNat
      let top := if t = 0 then lsTop else monLs
      [(!rawOk s n t (bits (th.rs b).toNat 6 0), cPRIV, 0), (inMon t la len, cPRIV, la),
       (la % 32 != 0 || decide (top < la + len), cALIGN, la),
       (len % 32 != 0 || decide (len < 32) || decide (253952 < len), cALIGN, 0)])
    (fun s => let th := s.thr n t
      let l := bits (th.rs b).toNat 6 0
      let k := s.flink l
      match k.raw with
      | p :: ps =>
        match lsWrite (s.core n) (th.rs a).toNat (rawImage p (th.rs c).toNat) with
        | (_, some e) => .fault (logLocal s n e) cLOCAL 0 e
        | (cr, none) => .done (rxOwe ((s.setCore n cr).setFlink l { k with raw := ps }) l p)
      | [] =>
        if k.st ≠ 3 then .fault s cREMOTE 0x0402 0
        else .stay (block s n t (.xrecv l) (some (.xrecv pr a b c)))) s

end Sys2Proof.Machine
end

