-- ==== Sys2Proof/Machine/Replay.lean ====
section
/-! DEFINITION. Accesses that waited are performed again: synchronous accesses of threads (R85, R108). -/

namespace Sys2Proof.Machine

/-- The instruction a thread waits with is issued again. -/
def reissue (n t : Nat) (b : Blk) (s : State) : Out :=
  match b with
  | .ldg pr d a size => execLdg n t pr d a size s
  | .stg pr a b size vis => execStg n t pr a b size vis s
  | .atom pr d a b c op vis => execAtom n t pr d a b c op vis s
  | .waitg pr a b cmp => execWaitg n t pr a b cmp s
  | .xrecv pr a b c => execXrecv n t pr a b c s

/-- Replay a waiting thread's access: a deferred fault that is pending, and a hold that was asked for, stay for the
boundary after it. -/
def replayThread (s : State) (n t : Nat) : State :=
  let th := s.thr n t
  match th.st, th.blk with
  | .waiting, some b | .xltWait, some b =>
    match reissue n t b (s.setThr n t { th with st := .ready, dfr := none }) with
    | .next s => s.modThr n t fun x => { x with dfr := if x.dfr.isSome then x.dfr else th.dfr }
    | _ => s
  | _, _ => s

/-- Whether a thread's access is out on a host link. -/
def onLink (s : State) (n t : Nat) : Bool :=
  s.host.links.any fun e =>
    (e.2.reads.any fun r => r.who = .thread n t && r.got.isNone) || e.2.zlr.contains (.thread n t)

/-- Threads that wait with an access, in order. -/
def waitingThreads (s : State) : List (Nat × Nat) :=
  s.cores.flatMap fun c => c.2.thr.filterMap fun e =>
    if e.2.st = .waiting && e.2.blk.isSome && !onLink s c.1 e.1 then some (c.1, e.1) else none

/-- Replay every access held at a home or a link (R122, R142, R149). -/
def replayAll (s : State) : State := (waitingThreads s).foldl (fun s e => replayThread s e.1 e.2) s

/-- Threads that wait in XRECV on a link go on, or fail (R317). -/
def wakeRaw (s : State) (l : Nat) : State :=
  (s.cores.flatMap fun c => c.2.thr.filterMap fun e =>
    if e.2.st = .waiting && e.2.wait = .xrecv l then some (c.1, e.1) else none).foldl
      (fun s e => replayThread s e.1 e.2) s

end Sys2Proof.Machine
end

