-- ==== Sys2Proof/Machine/Monitor.lean ====
section
/-! DEFINITION. Monitor group (GRP 0x7): R104, R113 and the CSRs of chapter 04. -/

namespace Sys2Proof.Machine

/-- Monitor-group instructions of a kernel thread take PRIV (R104). -/
def monOnly (t : Nat) : Check := (t != 0, cPRIV, 0)

/-- Thread number in sA[3:0]. -/
def target (s : State) (n t a : Nat) : Nat := bits ((s.thr n t).rs a).toNat 3 0

def stopped (x : Thread) : Bool := x.st == .held || x.st == .off || x.st == .faulted

/-- A thread no longer counts as arrived at a barrier. -/
def leaveBar (s : State) (n u : Nat) : State :=
  s.modCore n fun c => { c with
    arrived := c.arrived.filter fun e => e.1 ≠ u, passed := c.passed.filter fun e => e.1 ≠ u }

/-- THCTL start (R104): OFF or FAULTED to READY at PC sB, s1 = sC, every other register and the fault record
zero. -/
def execThctlStart (n t pr a b c : Nat) (s : State) : Out :=
  coreStep n t pr false
    (fun s => let x := s.thr n (target s n t a)
      [monOnly t, (x.st != .off && x.st != .faulted, cILLEGAL, 0)])
    (fun s =>
      let u := target s n t a
      let th := s.thr n t
      .done ((leaveBar s n u).setThr n u
        { st := .ready, pc := (th.rs b).setWidth 16, s := tset 0 [] 1 (th.rs c) })) s

/-- THCTL hold on a thread (R104), by its state. DEDUCED, log entry 163: a wait the rule does not list (EXIT, ECALL, WAITEV) is
held at once. -/
def holdThread (x : Thread) : Thread :=
  match x.st with
  | .ready | .stalled | .xltWait => { x with st := .held, prev := x.st, prevWait := x.wait }
  | .waiting =>
    match x.wait with
    | .access => { x with holdReq := true }
    | .twait _ _ | .bar _ | .fence _ | .waitg | .xrecv _ =>
      { x with st := .held, prev := .waiting, prevWait := x.wait, blk := none }
    | _ => { x with st := .held, prev := .waiting, prevWait := x.wait }
  | _ => x

/-- THCTL hold (R104): accepted in every state. -/
def execThctlHold (n t pr a : Nat) (s : State) : Out :=
  coreStep n t pr false (fun _ => [monOnly t])
    (fun s => .done (s.modThr n (target s n t a) holdThread)) s

/-- A held thread goes on (R104): a blocking instruction is issued again from the start; a held translation wait
returns, or takes the answer that came in the meantime. -/
def resumeThread (s : State) (n u : Nat) : State :=
  let x := s.thr n u
  let y := { x with prev := .off, prevWait := .nothing, answer := none }
  match x.prev with
  | .xltWait =>
    match x.answer with
    | none => s.setThr n u { y with st := .xltWait }
    | some true => replayThread (s.setThr n u { y with st := .waiting }) n u
    | some false =>
      let va := match x.blk with
        | some (.ldg _ _ a _) | some (.stg _ a _ _ _) | some (.atom _ _ a _ _ _ _) | some (.waitg _ a _ _) => x.rs a
        | _ => 0
      takeFault (s.setThr n u y) n u cABORTED 0x0200 va
  | .waiting =>
    match x.prevWait with
    | .twait _ _ | .bar _ | .fence _ | .waitg | .xrecv _ => s.setThr n u { y with st := .ready, wait := .nothing }
    | .access =>
      let s := s.setThr n u { y with st := .waiting, wait := .access }
      if onLink s n u then s else replayThread s n u
    | w =>
      let s := s.setThr n u { y with st := .waiting, wait := w }
      -- an operation may have failed while the thread was held (R106)
      if y.dfr.isSome && endedByFault (s.thr n u) then takeDeferred s n u else wake s n
  | .stalled => s.setThr n u { y with st := .ready }
  | .off => s.setThr n u { y with st := .ready }
  | p => s.setThr n u { y with st := p }

/-- THCTL resume (R104). -/
def execThctlResume (n t pr a : Nat) (s : State) : Out :=
  coreStep n t pr false
    (fun s => [monOnly t, ((s.thr n (target s n t a)).st != .held, cILLEGAL, 0)])
    (fun s => .done (resumeThread s n (target s n t a))) s

/-- THCTL stop (R104): to OFF; an access that waits is given up. -/
def execThctlStop (n t pr a : Nat) (s : State) : Out :=
  coreStep n t pr false
    (fun s => [monOnly t, (!stopped (s.thr n (target s n t a)), cILLEGAL, 0)])
    (fun s =>
      let u := target s n t a
      .done ((leaveBar (forget s (.thread n u)) n u).modThr n u fun x =>
        { x with st := .off, wait := .nothing, prev := .off, prevWait := .nothing, blk := none, answer := none,
                 holdReq := false })) s

/-- A register selector of THRD and THWR: its kind in [7:6] and its number within the kind (R93, R94). -/
def selBad (reg : Nat) : Bool :=
  match reg / 64 with
  | 0 => false
  | 1 => decide (16 ≤ reg % 64)
  | _ => decide (8 ≤ reg % 64)

/-- THRD (R104). -/
def execThrd (n t pr d a b reg : Nat) (s : State) : Out :=
  coreStep n t pr false
    (fun s => [monOnly t, (selBad reg || !stopped (s.thr n (target s n t a)), cILLEGAL, 0)])
    (fun s =>
      let x := s.thr n (target s n t a)
      let i := reg % 64
      let v : Word := match reg / 64 with
        | 0 => x.rs i
        | 1 => BitVec.ofNat 64 (lane (x.rv i) (((s.thr n t).rs b).toNat % 64))
        | 2 => x.rp i
        | _ => (x.rc i).setWidth 64
      .done (s.modThr n t fun th => th.ws d v)) s

/-- THWR (R104): sB is written; of a vector register, its low 32 bits to lane sB[5:0] (DEDUCED, log entry 44). -/
def execThwr (n t pr a b reg : Nat) (s : State) : Out :=
  coreStep n t pr false
    (fun s => [monOnly t, (selBad reg || !stopped (s.thr n (target s n t a)), cILLEGAL, 0)])
    (fun s =>
      let w := (s.thr n t).rs b
      let i := reg % 64
      .done (s.modThr n (target s n t a) fun x =>
        match reg / 64 with
        | 0 => x.ws i w
        | 1 => x.wv i (ofLanes ((List.range 64).map fun j =>
            if j = w.toNat % 64 then w.toNat % 2 ^ 32 else lane (x.rv i) j))
        | 2 => x.wp i w
        | _ => x.wc i (w.setWidth 32))) s

/-! ### CSRs -/

/-- THR_FAULT of a thread. -/
def Thread.faultWord (x : Thread) : Word :=
  BitVec.ofNat 64 (x.fStatus * 2 ^ 48 + x.fCause * 2 ^ 40 + b2n x.fDeferred * 2 ^ 39 + x.fIssue * 2 ^ 16 + x.fStop)

/-- CORE_ID of a core: the generation of its die is 1 (R338). -/
def coreId (s : State) (n : Nat) : Word :=
  BitVec.ofNat 64 (2 ^ 32 + ((s.core n).phys.getD (n % 256)) * 2 ^ 20 + n / 256 * 2 ^ 16 + n)

/-- The CSRs that this chapter names (R94); any other number is ILLEGAL. DEDUCED, log entry 164. -/
def csrKnown (csr : Nat) : Bool :=
  csr == 0 || csr == 8 || (decide (0x100 ≤ csr) && decide (csr < 0x200) && csr % 8 == 0)

def csrRead (s : State) (n csr : Nat) : Word :=
  if csr = 0 then coreId s n
  else if csr = 8 then BitVec.ofNat 64 (s.core n).ctx
  else if csr < 0x180 then (s.thr n ((csr - 0x100) / 8)).faultWord
  else (s.thr n ((csr - 0x180) / 8)).faddr

/-- CSRR (R104). -/
def execCsrr (n t pr d csr : Nat) (s : State) : Out :=
  coreStep n t pr false (fun _ => [monOnly t, (!csrKnown csr, cILLEGAL, 0)])
    (fun s => .done (s.modThr n t fun th => th.ws d (csrRead s n csr))) s

/-- A thread is READY, STALLED, WAITING or XLT_WAIT. -/
def live (x : Thread) : Bool := x.st == .ready || x.st == .stalled || x.st == .waiting || x.st == .xltWait

/-- Whether any kernel thread of a core is. -/
def kernelsLive (s : State) (n : Nat) : Bool := (List.range 15).any fun i => live (s.thr n (i + 1))

/-- CSRW (R104): only CORE_CTX is writable; a write of 0 or of 32 to 127, or one while a kernel thread is live, is
discarded and logged. -/
def execCsrw (n t pr a csr : Nat) (s : State) : Out :=
  coreStep n t pr false (fun _ => [monOnly t, (!csrKnown csr, cILLEGAL, 0)])
    (fun s =>
      let w := (s.thr n t).rs a
      let c := w.toNat % 128
      if csr ≠ 8 then .done s
      else if c = 0 ∨ 32 ≤ c ∨ kernelsLive s n then
        .done (logEvent s 0x0001 (coreFb n) (coreBlock n) (n % 256) 0 0x100000008 w)
      else .done (s.modCore n fun x => { x with ctx := c })) s

/-- IFETCH (R104, R113, R434): only whole words of the instruction store are written. DEDUCED: log entry 50.
DEDUCED: log entry 135. -/
def execIfetch (n t pr a b c k : Nat) (s : State) : Out :=
  coreStep n t pr false
    (fun s => let th := s.thr n t
      let x := (th.rs a).toNat
      let v := (th.rs b).toNat
      let len := (th.rs c).toNat
      [monOnly t, (decide (0x4000 < x + len) && kernelsLive s n, cILLEGAL, 0),
       (x % 8 != 0 || len % 8 != 0 || len == 0 || decide (0x10000 < x + len), cALIGN, x),
       (decide (2 ^ 56 < v + len), cADDR, v)])
    (fun s => let th := s.thr n t
      startOp n t k (.ifetch (th.rs a).toNat (th.rs b).toNat (th.rs c).toNat) s) s

/-- WAITEV (R104): the cause of the oldest monitor event, or a wait for one. -/
def execWaitev (n t pr d : Nat) (s : State) : Out :=
  coreStep n t pr false (fun _ => [monOnly t])
    (fun s =>
      match (s.core n).events with
      | e :: es =>
        .done ((s.modCore n fun c => { c with events := es }).modThr n t fun th => th.ws d (Config.monitorEvent e))
      | [] => .stay (block s n t (.event d) none)) s

end Sys2Proof.Machine
end

