-- ==== Sys2Proof/Machine/Async.lean ====
section
/-! DEFINITION. The effects of asynchronous operations: R84, R89, R99, R100, R103, R106, R108, R113.  A copy moves
chunk by chunk, to the next 256-byte line of its DVA, rows in order; it stops at a chunk that waits, and goes on
from that chunk. -/

namespace Sys2Proof.Machine

def modOp (s : State) (n id : Nat) (f : AOp → AOp) : State :=
  s.modCore n fun c => { c with aops := c.aops.map fun o => if o.id = id then f o else o }

/-- What a chunk of an operation came to. -/
inductive Step1 where
  /-- moved; the links written -/
  | moved (s : State) (links : List Nat)
  /-- it waits -/
  | waits (s : State)
  /-- it failed -/
  | fails (s : State) (cause status addr : Nat)

/-- An access of an operation at a DVA: `ok` says what becomes of its bytes. -/
def accStep (dva : Nat) (ok : State → List Byte → List Nat → Step1) : Acc → Step1
  | .done s bs ls => ok s bs ls
  | .waits s | .stops s .wait | .fails s (.held _) => .waits s
  | .stops s (.rights a) => .fails s cRIGHTS 0x0201 a
  | .stops s (.hostLost a) => .fails s cHOST 0x0400 a
  | .stops s (.aborted a) => .fails s cABORTED 0x0200 a
  | .fails s f => .fails s f.cause f.cstatus dva

/-- Address and length of the chunk after `prog` bytes of a copy of rows. -/
def chunkAt (ls dva len rows pitch : Nat) (stride : Int) (prog : Nat) : Option (Nat × Nat × Nat) :=
  let r := prog / len
  let col := prog % len
  if rows ≤ r then none
  else
    let a := ((dva : Int) + r * stride).toNat + col
    some (ls + r * pitch + col, a, min (len - col) (256 - a % 256))

/-- Move chunks until the copy ends, waits or fails. -/
def runCopy (n : Nat) (o : AOp) (next : Nat → Option (Nat × Nat × Nat)) (one : State → Nat → Nat → Nat → Step1) :
    Nat → State → Nat → List Nat → State × Option (List Nat)
  | 0, s, prog, links => (modOp s n o.id fun x => { x with prog := prog, links := links }, none)
  | fuel + 1, s, prog, links =>
    match next prog with
    | none => (s, some links)
    | some (l, a, k) =>
      match one s l a k with
      | .moved s ls => runCopy n o next one fuel s (prog + k) (addLinks links ls)
      | .waits s => (modOp s n o.id fun x => { x with prog := prog, links := links }, none)
      | .fails s c st ad => (failOp s n o c st ad, none)

/-- A chunk into local store. -/
def oneIn (n : Nat) (rq : Req) (s : State) (l a k : Nat) : Step1 :=
  accStep a (fun s bs _ =>
    match lsWrite (s.core n) l bs with
    | (_, some e) => .fails (logLocal s n e) cLOCAL 0 e
    | (c, none) => .moved (s.setCore n c) []) (accessRead s rq 0 a k)

/-- A chunk out of local store. -/
def oneOut (n : Nat) (rq : Req) (s : State) (l a k : Nat) : Step1 :=
  match lsRead (s.core n) l k with
  | .error e => .fails (logLocal s n e) cLOCAL 0 e
  | .ok bs => accStep a (fun s _ ls => .moved s ls) (accessWrite true s rq a bs)

/-- A chunk into the instruction store: whole words with fresh check bits (R434). -/
def oneFetch (n : Nat) (rq : Req) (s : State) (l a k : Nat) : Step1 :=
  accStep a (fun s bs _ =>
    .moved (s.modCore n fun c =>
      { c with
        is_ := Memory.writeN c.is_ l bs
        isBad := (List.range (ceilDiv k 8)).foldl (fun b i => tset false b (l / 8 + i) false) c.isBad }) [])
    (accessRead s rq 0 a k)

/-- The links of a finished write: at GLOBAL the operation waits for a zero-length read on each (R276), and so does a
FENCE GLOBAL of its thread (R283). -/
def finishOut (s : State) (n : Nat) (o : AOp) (vis : Nat) (links : List Nat) : State :=
  let s := s.modThr n o.t fun th => { th with hostLinks := addLinks th.hostLinks links }
  let x := s.thr n o.t
  let s := if (if x.st = .held then x.prevWait else x.wait) = .fence 2 then askZlr s n o.t else s
  if vis = 2 ∧ links ≠ [] then
    wake (modOp (issueZlr s (.aop n o.id) links) n o.id fun x => { x with stage := 1, links := links }) n
  else countOp s n o 0

/-- LDQB: blocks in order into the operation's own buffer; nothing is written until all are read (R100). -/
def runLdqb (n : Nat) (o : AOp) (rq : Req) (ls dva stride sc : Nat) : Nat → State → Nat → List Byte → State
  | 0, s, _, buf =>
    let blk (v : Nat) : List Byte := (buf.drop (144 * v)).take 144
    let ops := (List.range 4).flatMap fun p => (List.range 64).flatMap fun v => ((blk v).drop (32 * p)).take 32
    let scs := (List.range 4).flatMap fun p => (List.range 64).flatMap fun v =>
      ((blk v).drop 136).take 1 ++ ((blk v).drop (128 + 2 * p)).take 2 ++ [0]
    let s := s.modCore n fun c => (lsWrite (lsWrite c ls ops).1 sc scs).1
    countOp s n o 0
  | fuel + 1, s, v, buf =>
    let a := ((dva : Int) + v * sext 64 stride).toNat
    match accessRead s rq 0 a 144 with
    | .done s bs _ => runLdqb n o rq ls dva stride sc fuel s (v + 1) (buf ++ bs)
    | r =>
      match accStep a (fun s _ _ => .waits s) r with
      | .moved s _ => s
      | .waits s => modOp s n o.id fun x => { x with prog := v, buf := buf }
      | .fails s c st ad => failOp s n o c st ad

/-- A remote operation at this module's own memory (R29). -/
def ownRemote (s : State) (n : Nat) (o : AOp) (r : State × Except Fail (List Byte)) (ga ls : Nat) : State :=
  match r with
  | (s, .error (.held _)) => s
  | (s, .error f) => failOp s n o f.cause f.cstatus ga
  | (s', .ok bs) =>
    match lsWrite (s'.core n) ls bs with
    | (_, some e) => failOp (logLocal s n e) n o cLOCAL 0 e
    | (c, none) => countOp (s'.setCore n c) n o 0

/-- TSAVE's image, TLOAD's image: 98,368 bytes at a context-0 DVA (R78). -/
def imageLen : Nat := 98368

/-- A copy of rows of local or instruction store ends, waits or fails. -/
def copyOp (s : State) (n : Nat) (o : AOp) (ls dva len rows pitch : Nat) (stride : Int)
    (one : State → Nat → Nat → Nat → Step1) (fin : State → List Nat → State) : State :=
  match runCopy n o (chunkAt ls dva len rows pitch stride) one (rows * (len / 256 + 2)) s o.prog o.links with
  | (s, some links) => fin s links
  | (s, none) => s

/-- Run an operation as far as it goes; none if nothing of it is left to do here. DEDUCED, log entry 158: the fault of a TLOAD
whose image is rejected is recorded as precise, at the TLOAD. -/
def runOp (s : State) (n : Nat) (o : AOp) : Option State :=
  let rq := coreReq s n o.t (.aop n o.id)
  let s := modOp s n o.id fun x => if x.stage = 2 then { x with stage := 0 } else x
  match o.kind with
  | .cpin ls dva len rows pitch stride =>
    some (copyOp s n o ls dva len rows pitch stride (oneIn n rq) fun s _ => countOp s n o 0)
  | .cpout ls dva len rows pitch stride vis =>
    if o.stage = 1 then none
    else some (copyOp s n o ls dva len rows pitch stride (oneOut n rq) fun s links => finishOut s n o vis links)
  | .ldqb ls dva stride sc => some (runLdqb n o rq ls dva stride sc (64 - o.prog) s o.prog o.buf)
  | .ifetch x dva len =>
    some (copyOp s n o x dva len 1 0 0 (oneFetch n { rq with ctx := 0 }) fun s _ => countOp s n o 0)
  | .rput ls ga len vis =>
    if o.stage = 1 then none
    else match lsRead (s.core n) ls len with
      | .error e => some (failOp (logLocal s n e) n o cLOCAL 0 e)
      | .ok bs =>
        if ga / 2 ^ 42 = s.fab.id then
          match memWrite s (ga % 2 ^ 40) bs with
          | (s, some (.held _)) => some s
          | (s, some f) => some (failOp s n o f.cause f.cstatus ga)
          | (s, none) => some (countOp s n o 0)
        else some (sendRemote s n o 0x01 ls ga vis bs len)
  | .rget ls ga len =>
    if o.stage = 1 then none
    else if ga / 2 ^ 42 = s.fab.id then some (ownRemote s n o (memRead s (ga % 2 ^ 40) len) ga ls)
    else some (sendRemote s n o 0x02 ls ga 0 [] len)
  | .ratom ls ga op c vis =>
    if o.stage = 1 then none
    else if ga / 2 ^ 42 = s.fab.id then
      let (s, i) := s.draw
      let r := match memAtom s (ga % 2 ^ 40) op c (Config.ratomSecond i) with
        | (s, .error f) => (s, Except.error f)
        | (s, .ok old) => (s, .ok (leBytes 8 old.toNat))
      some (ownRemote s n o r ga ls)
    else some (sendAtomic s n o ls ga op c vis)
  | .mred ls len g q => if o.stage = 0 then some (sendContribution s n o ls len g q) else none
  | .bell _ _ => none
  | .xsend ls l len =>
    if o.stage = 1 then none
    else match lsRead (s.core n) ls len with
      | .error e => some (failOp (logLocal s n e) n o cLOCAL 0 e)
      | .ok bs => some (sendRaw s n o l bs)
  | .tmma _ _ _ _ _ _ _ | .trd _ _ _ _ _ _ _ _ | .tlda _ _ _ _ =>
    if o.stage = 3 then some (countOp s n o 0) else none
  | .tsave _ dva =>
    if (s.core n).rq.contains o.id then none
    else
      let one (s : State) (l a k : Nat) : Step1 :=
        accStep a (fun s _ ls => .moved s ls) (accessWrite true s { rq with ctx := 0 } a ((o.buf.drop l).take k))
      some (copyOp s n o 0 dva imageLen 1 0 0 one fun s _ => countOp s n o 0)
  | .tload tile dva =>
    if (s.core n).rq.contains o.id then none
    else
      some (match accStep dva (fun s bs _ =>
          .moved (if imageOk bs then
            countOp (s.modCore n fun c => c.setTile tile (imageTile bs)) n o 0
          else
            -- the image is rejected: a precise fault, the tile unchanged (R78)
            enterFault (s.modCore n fun c => dropOp c o.id) n o.t cTLOAD 0 o.pc o.pc false (BitVec.ofNat 64 dva)) [])
          (accessRead s { rq with ctx := 0 } 0 dva imageLen) with
        | .moved s _ | .waits s => s
        | .fails s c st ad => failOp s n o c st ad)
  | .pref v => some (prefetch (s.modCore n fun c => dropOp c o.id) n o.t v false)

/-- ASYNC_OPERATION_COMPLETE (R89): the operation has its effects, as far as nothing makes it wait, and is counted
once it has had all of them. `data` is what its reads of host memory that are out return now. -/
def execAsyncOperationComplete (n id : Nat) (data : List Byte) (s : State) : Out :=
  match (s.core n).aops.find? fun o => o.id = id with
  | none => .next s -- no such operation is in flight
  | some o =>
    if (s.core n).tq.contains id then .next s -- the operation is in its queue
    else match runOp (answerReads s (.aop n id) data) n o with
      | some s => .next s
      | none => .next s -- the operation waits for something else

end Sys2Proof.Machine
end

