-- ==== Sys2Proof/Machine/FabricRows.lean ====
section
/-! DEFINITION. Events of the fabric (chapter 13): link frames, training, failures, packets that arrive, collectives
and Meridian exchanges. -/

namespace Sys2Proof.Machine

/-- BAR0 offset of a register (R30). -/
def regOff (fb block reg : Nat) : Nat := fb * 2 ^ 24 + block * 2 ^ 19 + reg

/-- Log on a link's source (R410). -/
def linkLog (s : State) (l code d0 d1 : Nat) : State := ev s code (l / 24) 0x10 (l % 24) d0 d1

/-- The parent link in use: PARENT_LINK while ACTIVE, else ALT_PARENT_LINK while ACTIVE. -/
def parentLink (s : State) : Option Nat :=
  let up (l : Nat) : Bool := decide (l < 96) && (s.flink l).st == 3
  if up s.fab.parent then some s.fab.parent else if up s.fab.altParent then some s.fab.altParent else none

/-- A FOLLOWER keeps to its parent link, or its alternative; it runs free where neither is ACTIVE (R319). -/
def followParent (s : State) : State :=
  if s.fab.role ≠ 2 then { s with fab := { s.fab with synced := false, activeParent := 0x7F, exchange := false } }
  else match parentLink s with
    | some l => if s.fab.activeParent = l then s
      else { s with fab := { s.fab with activeParent := l, exchange := false } }
    | none =>
      if s.fab.activeParent = 0x7F && !s.fab.synced then s
      else ev { s with fab := { s.fab with synced := false, activeParent := 0x7F, exchange := false } } 0x0605 0 0x10 0
        s.fab.parent 0

/-- LINK_STATE of a link (R301 to R303); `why` is the cause of a training that ended in DOWN, or 0. -/
def linkEventOf (s : State) (l why : Nat) : State :=
  let k := s.flink l
  linkLog s l 0x0600 l (k.st + 16 * k.width + 256 * k.good.toNat + 65536 * why)

/-- Change a link and log its state. -/
def setLinkState (s : State) (l : Nat) (k : FLink) : State := linkEventOf (s.setFlink l k) l 0

/-- A link leaves traffic for good (R315): packets not framed look up their routes again, those in unacknowledged
frames are lost. Raw packets wait for the link (R316), and what stands in its receive buffer stays (R317). DEDUCED:
log entry 171. -/
def linkDownWhy (s : State) (l st why : Nat) : State :=
  let k := s.flink l
  let s := linkEventOf (s.setFlink l { k with
    st := st, width := 0, used := [], txq := k.txq.filter fun p => p.type = 0x20, frames := [], nakRun := 0
    nakOwed := false, rounds := 0, owed := []
    rxUsed := heldCredits (k.raw ++ (s.fab.fwd.filter fun e => e.1 = l).map (·.2)) }) l why
  let s := (k.frames.map (·.2)).foldl (fun s p => netFail (dropCount s) p 0x0402) s
  let s := (k.txq.filter fun p => p.type ≠ 0x20 && p.type ≠ 0x30).foldl send s
  wakeRaw (pumpAll (pumpFwds (followParent s))) l

def linkDown (s : State) (l st : Nat) : State := linkDownWhy s l st 0

/-- RETRAIN (R303): from ACTIVE. -/
def toRetrain (s : State) (l : Nat) : State :=
  let k := s.flink l
  if k.st ≠ 3 then s
  else followParent (setLinkState s l
    { k with st := 4, width := 0, retrains := satInc (2 ^ 24 - 1) k.retrains, rounds := 0, nakRun := 0 })

/-- What a link has queued goes, and what waits for its buffer. -/
def pumpOne (s : State) (l : Nat) : State := pumpFwds (pumpLink ((s.flink l).txq.length + 1) s l)

/-- Number of good wavelengths. -/
def popcount8 (m : BitVec 8) : Nat := ((List.range 8).filter m.getLsbD).length

/-- The width of R302 for a mask and limits, or 0. -/
def widthOf (m : BitVec 8) (limit : Nat) : Nat :=
  ([8, 6, 4, 2].find? fun w => decide (w ≤ popcount8 m) && decide (w ≤ limit)).getD 0

/-- The `w` lowest-numbered good wavelengths. -/
def lowGood (m : BitVec 8) (w : Nat) : BitVec 8 :=
  BitVec.ofNat 8 ((((List.range 8).filter m.getLsbD).take w).foldl (fun a i => a + 2 ^ i) 0)

/-- MAX_WIDTH as it applies: at most 4 while the Lantern is throttled (R303, R404). -/
def maxWidth (s : State) (l : Nat) : Nat :=
  if tget false s.thm.throttle (8 * (l / 24) + 7) then min 4 (s.flink l).maxW else (s.flink l).maxW

/-- The hardware gate of the ELSFP on an input of a Lantern, A 0 and B 1 (R296): open while a link it feeds trains, carries
traffic, retrains or emits detect pulses. A Lantern that is not admitted has every link OFF (R295). -/
def laserGate (s : State) (q input : Nat) : Bool :=
  (s.lantern q).admitted && (List.range 12).any fun i => [1, 2, 3, 4].contains (s.flink (24 * q + 12 * input + i)).st

/-- The pin LASER_EN<n>, of input n % 2 of Lantern n / 2 (R296, R422, R429). -/
def laserEn (s : State) (n : Nat) : Bool := s.powered && !pinsStarting s && laserGate s (n / 2) (n % 2)

/-- Bytes that a frame's trailer acknowledges: the packets of its frames are delivered, and a frame that is acknowledged is
closed. -/
def FLink.acked (k : FLink) (ack : Nat) : FLink :=
  let done := (ack + 1 + 4096 - k.txAck) % 4096
  if framesOut k < done then k
  else { k with
    txAck := (ack + 1) % 4096
    txFill := if done = framesOut k then 1024 else k.txFill
    nakRun := if done = 0 then k.nakRun else 0
    frames := k.frames.filter fun e => decide (done ≤ (e.1 + 4096 - k.txAck) % 4096) }

/-- FABRIC_FRAME_RECEIVE (R299, R303): a frame is taken in order, or NAKed; its trailer acknowledges frames of this
end, or asks for them again. -/
def execFabricFrameReceive (l fseq ack : Nat) (nak fecOk crcOk : Bool) (s : State) : Out :=
  let k := s.flink l
  if k.st ≠ 3 then .next s -- the link is not ACTIVE
  else
    let (s, m) := readMer s 0
    let win := m.toNat / 1000000
    let uncorr := (if k.uncorrWin = win then k.uncorr else 0) + b2n !fecOk
    let good := fecOk && crcOk
    let k := { k with uncorr := min 65535 uncorr, uncorrWin := win }
    let k := if good && fseq = k.rxSeq then { k with rxSeq := (k.rxSeq + 1) % 4096, nakOwed := false }
      else { k with naks := satInc (2 ^ 24 - 1) k.naks, nakOwed := true }
    -- the trailer of a discarded frame is not read
    let k := if !good then k
      else
        let k := k.acked ack
        -- the sender goes back to the first frame not acknowledged
        if nak && decide (0 < framesOut k) then
          { k with nakRun := if k.nakSeq = k.txAck then k.nakRun + 1 else 1, nakSeq := k.txAck }
        else k
    let s := s.setFlink l k
    if 16 < uncorr ∨ 8 ≤ k.nakRun then .next (toRetrain s l)
    else .next (pumpOne s l)

/-- LINK_CONTROL_PACKET (R300): credits of this end come back, and what it owes returns to the partner. DESIGN CHOICE: log
entry 154. -/
def execLinkControlPacket (l cls credits : Nat) (s : State) : Out :=
  let k := s.flink l
  if k.st ≠ 3 then .next s -- the link is not ACTIVE
  else .next (pumpOne (s.setFlink l { k with
    used := tset 0 k.used cls (tget 0 k.used cls - credits)
    rxUsed := k.owed.foldl (fun u e => tset 0 u e.1 (tget 0 u e.1 - e.2)) k.rxUsed
    owed := [] }) l)

/-- A link of an admitted Lantern leaves OFF: to DETECT, or to DOWN where its UCIe module failed (R293, R301). -/
def leaveOff (s : State) (l : Nat) : State :=
  let k := s.flink l
  setLinkState s l { k with st := if (s.lantern (l / 24)).ucieBad.getLsbD (l % 24 / 2) then 5 else 1 }

/-- ENABLE = 1 (R301). -/
def enableLink (s : State) (l : Nat) : State :=
  let k := s.flink l
  let s := s.setFlink l { k with enable := true }
  if k.st = 0 && (s.lantern (l / 24)).admitted then leaveOff s l else s

/-- ENABLE = 0: to OFF. -/
def disableLink (s : State) (l : Nat) : State :=
  let k := s.flink l
  let s := s.setFlink l { k with enable := false }
  if k.st = 0 then s
  else if k.st = 3 ∨ k.st = 4 then linkDown s l 0
  else setLinkState s l { k with enable := false, st := 0, width := 0 }

/-- LINK_ENABLE (R301); the block of an isolated FB discards writes (R31). -/
def execLinkEnable (l : Nat) (s : State) : Out :=
  .next (if s.iso (l / 24) then s else enableLink s l)

/-- LINK_DISABLE (R301). -/
def execLinkDisable (l : Nat) (s : State) : Out :=
  .next (if s.iso (l / 24) then s else disableLink s l)

/-- A write of MAX_WIDTH: other values than 8, 6, 4 and 2 are discarded and logged; an ACTIVE link retrains. -/
def writeMaxWidth (s : State) (l w : Nat) (v : Word) : State :=
  if [8, 6, 4, 2].contains w then toRetrain (s.setFlink l { s.flink l with maxW := w }) l
  else regDiscard s (regOff (l / 24) 0x10 (0x100 + 0x20 * (l % 24))) (l % 24) v

/-- MAX_WIDTH_WRITE (R303). -/
def execMaxWidthWrite (l w : Nat) (s : State) : Out :=
  .next (if s.iso (l / 24) then s else writeMaxWidth s l w (BitVec.ofNat 64 (w * 256)))

/-- DETECT_PULSE (R297): light alone; no state of the module changes. -/
def execDetectPulse (_l : Nat) (s : State) : Out := .next s

/-- PARTNER_PULSES_SEEN (R297, R301): to TRAIN. -/
def execPartnerPulsesSeen (l : Nat) (s : State) : Out :=
  let k := s.flink l
  if k.st = 1 then .next (setLinkState s l { k with st := 2, rounds := 0 })
  else .next s -- the link is not in DETECT

/-- TRAINING_EXCHANGE (R302): the widths agree and the identities are good, or another round, or DOWN. DESIGN
CHOICE: log entry 153. -/
def execTrainingExchange (l : Nat) (x : TrainEx) (s : State) : Out :=
  let k := s.flink l
  if k.st ≠ 2 ∧ k.st ≠ 4 then .next s -- the link is not training
  else
    let m := x.good &&& x.peerGood
    let w := widthOf m (min (maxWidth s l) x.peerMax)
    let down (why : Nat) : Out :=
      .next (linkDownWhy (s.setFlink l { k with good := m, partner := x.peerId, partnerLink := x.peerLink }) l 5 why)
    let cause (i : Nat) : Nat := (Config.trainCause i).toNat
    if w = 0 then down 0
    else if x.peerWidth ≠ w then
      if k.rounds + 1 < 3 then .next (s.setFlink l { k with rounds := k.rounds + 1 }) else down 0
    else if !s.fab.idValid then down (cause 0)
    else if !x.peerValid then down (cause 1)
    else if x.peerId = s.fab.id then down (cause 2)
    else
      let k := { k with
        width := w, good := lowGood m w, partner := x.peerId, partnerLink := x.peerLink, rounds := 0 }
      -- a RETRAIN resends what is not acknowledged (R303); a first training numbers its frames anew
      let k := if k.st = 4 then k else { k with txSeq := 0, txAck := 0, txFill := 1024, rxSeq := 0 }
      let s := followParent (setLinkState s l { k with st := 3 })
      .next (pumpAll (pumpOne (retryRoutes s) l))

/-- LIGHT_LOSS (R297). -/
def execLightLoss (l : Nat) (s : State) : Out :=
  let st := (s.flink l).st
  if st = 2 ∨ st = 3 ∨ st = 4 then .next (linkDown s l 5)
  else .next s -- the link is not in TRAIN, ACTIVE or RETRAIN

/-- RETRAIN_TIMEOUT (R303). -/
def execRetrainTimeout (l : Nat) (s : State) : Out :=
  if (s.flink l).st = 4 then .next (linkDown s l 5) else .next s -- the link is not in RETRAIN

/-- DOWN_BACKOFF_END (R301): to DETECT. -/
def execDownBackoffEnd (l : Nat) (s : State) : Out :=
  let k := s.flink l
  if k.st = 5 then .next (setLinkState s l { k with st := 1 })
  else .next s -- the link is not DOWN

/-- Put links DOWN that are not OFF. -/
def linksDown (s : State) (ls : List Nat) : State :=
  ls.foldl (fun s l => if (s.flink l).st = 0 ∨ (s.flink l).st = 5 then s else linkDown s l 5) s

/-- LASER_INPUT_LOSS (R296). -/
def execLaserInputLoss (q input : Nat) (s : State) : Out :=
  let x := s.lantern q
  let s := s.setLantern q (if input = 0 then { x with lightA := false } else { x with lightB := false })
  let s := linksDown s ((List.range 12).map fun i => 24 * q + 12 * input + i)
  .next (ev s 0x0602 q 0x28 (0x80 + input) q input)

/-- LASER_INPUT_HAS_LIGHT (R296). -/
def execLaserInputHasLight (q input : Nat) (s : State) : Out :=
  let x := s.lantern q
  .next (s.setLantern q (if input = 0 then { x with lightA := true } else { x with lightB := true }))

/-- UCIE_MODULE_DOWN (R293). -/
def execUcieModuleDown (q m : Nat) (s : State) : Out :=
  let x := s.lantern q
  let s := s.setLantern q { x with
    ucieUp := x.ucieUp &&& ~~~(BitVec.twoPow 12 m), ucieBad := x.ucieBad ||| BitVec.twoPow 12 m }
  let s := linksDown s [24 * q + 2 * m, 24 * q + 2 * m + 1]
  .next (ev s 0x0603 q 0x28 m m 0)

/-- The byte offset of the first field of a capability record that fails R295; the combination of the running Almanac is
the one that its start chose (R362). -/
def lanternReject (s : State) (record : List Byte) : Option Nat :=
  let le (o n : Nat) : Nat := leNat ((record.drop o).take n)
  let fw := le 12 6
  let tested := match s.boot.alm.combos[s.boot.combo]? with
    | some c => c.lanterns.contains (le 2 2, le 4 2, fw)
    | none => false
  ([(0, le 0 1 % 16 == 1), (1, le 1 1 % 16 == 1), (2, tested), (6, le 6 1 == 24), (7, le 7 1 == 8),
    (8, le 8 1 == 1), (9, le 9 1 == 2), (10, decide (100 ≤ le 10 2))].find? fun e => !e.2).map (·.1)

/-- LANTERN_CAPABILITY_RECORD (R295): the Lantern is admitted, and its enabled links begin to detect; or it is
refused and its links stay OFF. Until step 6 ends the record of an admitted Lantern is measured (R376). DEDUCED: log
entry 48. -/
def execLanternCapabilityRecord (q : Nat) (record : List Byte) (s : State) : Out :=
  let x := s.lantern q
  match lanternReject s record with
  | some off =>
    let s := (List.range 24).foldl (fun s i =>
      if (s.flink (24 * q + i)).st = 0 then s else linkDown s (24 * q + i) 0) s
    let s := s.setLantern q { x with reject := off, admitted := false }
    .next (ev { s with lnReady := s.lnReady &&& ~~~(BitVec.twoPow 4 q) } 0x0601 q 0x28 0 q off)
  | none =>
    let s := s.setLantern q { x with reject := 0, admitted := true, ucieUp := ~~~x.ucieBad }
    let s := if s.boot.phase ≤ 6 then extend s 4 record else s
    let s := { s with lnReady := s.lnReady ||| BitVec.twoPow 4 q }
    .next ((List.range 24).foldl (fun s i =>
      let l := 24 * q + i
      let k := s.flink l
      if k.enable && k.st = 0 then leaveOff s l else s) s)

/-! ### Packets from other modules -/

/-- A packet that a link brings: the link is ACTIVE, the packet's header is of version 1 (R10, R305), and the receive
buffer has the credits that the partner sent it against (R300). -/
def takesPkt (s : State) (l : Nat) (p : FPkt) : Bool :=
  (s.flink l).st == 3 && p.version == 1 && takesLength (s.flink l).rxUsed p

/-- A response or error back to a request's sender (R313). -/
def answer (s : State) (p : FPkt) (type status : Nat) (data : List Byte) : State :=
  sendQuiet s { errorPkt s p.src p.tag status with type := type, len := data.length, data := data, prio := p.prio }

/-- The bytes that a held write of another module, or through BAR2, is to write. -/
def Parked.range : Parked → Nat × Nat
  | .fabric _ _ p => (p.addr % 2 ^ 40, if p.type = 0x03 then 8 else p.data.length)
  | .bar2w _ _ _ _ _ a bs => (a, bs.length)
  | _ => (0, 0)

/-- Two ranges of bytes share a 256-byte line. -/
def shareLine (a b : Nat × Nat) : Bool :=
  decide (a.1 / 256 ≤ (b.1 + b.2 - 1) / 256) && decide (b.1 / 256 ≤ (a.1 + a.2 - 1) / 256)

/-- Whether `q`, held since before write `p` arrived, is an earlier write of its stream that `p` waits for (R280): of a
class that orders the stream, any write, or with ID-Based Ordering any of the same Requester ID; else one of its
lines. -/
def Parked.before (p q : Parked) : Bool :=
  match p, q with
  | .fabric l vis x, .fabric k _ y =>
    k = l && y.src = x.src && (y.type = 0x01 || y.type = 0x03) && (vis ≠ 0 || shareLine p.range q.range)
  | .bar2w l vis ro ido rid _ _, .bar2w k _ _ _ r _ _ =>
    k = l && ((vis ≠ 0 && !ro && (!ido || r = rid)) || shareLine p.range q.range)
  | _, _ => false

/-- Perform a request of another module at its home, and answer it (R313); one that is held waits at its home, as does a
write behind an earlier one of its stream. -/
def serveAt (s : State) (l vis : Nat) (p : FPkt) : State :=
  let a := p.addr % 2 ^ 40
  let n := if p.type = 0x02 then p.len else if p.type = 0x03 then 8 else p.data.length
  let q : Parked := .fabric l vis p
  let status (f : Fail) : Nat := match f with | .addr _ => 0x0102 | f => f.status
  let hold (s : State) : State := { s with dram := { s.dram with parked := s.dram.parked ++ [q] } }
  if p.type ≠ 0x02 && s.dram.parked.any q.before then hold s
  else if p.type = 0x02 then
    match memRead s a n with
    | (s, .error (.held _)) => hold s
    | (s, .error f) => answer s p 0x0C (status f) []
    | (s, .ok bs) => answer s p 0x08 0 bs
  else if p.type = 0x01 then
    match memWrite s a p.data with
    | (s, some (.held _)) => hold s
    | (s, some f) => answer s p 0x0C (status f) []
    | (s, none) => answer s p 0x09 0 []
  else
    let (s, i) := s.draw
    let c : Word := if 16 ≤ p.data.length then BitVec.ofNat 64 (leNat ((p.data.drop 8).take 8)) else Config.ratomSecond i
    match memAtom s a p.op (BitVec.ofNat 64 (leNat (p.data.take 8))) c with
    | (s, .error (.held _)) => hold s
    | (s, .error f) => answer s p 0x0C (status f) []
    | (s, .ok old) => answer s p 0x0A 0 (leBytes 8 old.toNat)

/-- A request of another module enters the mesh: its address's attributes are looked up (R121). It is ordered by the
stronger of its own class (R313) and that of its address (R280). DEDUCED: log entry 152. -/
def serveRequest (s : State) (l : Nat) (p : FPkt) : State :=
  let a := p.addr % 2 ^ 40
  let n := if p.type = 0x02 then p.len else if p.type = 0x03 then 8 else p.data.length
  if (p.type = 0x01 || p.type = 0x03) && !(ratOf s a).peerWr then
    let s := linkLog s l 0x0006 a p.src
    answer s p 0x0C 0x0201 []
  else if !dpaOk s a || !dpaOk s (a + n - 1) then answer s p 0x0C 0x0102 []
  else serveAt s l (max p.vis (ratOf s a).vis) p

/-- FABRIC_REQUEST_ARRIVAL (R308, R313). -/
def execFabricRequestArrival (l : Nat) (p : FPkt) (s : State) : Out :=
  if !takesPkt s l p then .next s -- the link is not ACTIVE, or the packet is of another version
  else if p.dst ≠ s.fab.id then .next s -- the packet is for another module
  else if p.type = 0x01 ∨ p.type = 0x02 ∨ (p.type = 0x03 ∧ p.op < 10 ∧ p.addr % 8 = 0) then
    .next (serveRequest (rxPass s l p) l p)
  else .next (rxPass s l p)

/-- FABRIC_RESPONSE_ARRIVAL (R311, R313): the tag is free; data go to local store; a response whose tag has failed
is discarded. -/
def execFabricResponseArrival (l : Nat) (p : FPkt) (s : State) : Out :=
  if !takesPkt s l p then .next s -- the link is not ACTIVE, or the packet is of another version
  else if p.dst ≠ s.fab.id then .next s -- the packet is for another module
  else
    let s := rxPass s l p
    match reqOf s p.tag with
    | none => .next s
    | some r =>
      if r.pkt.dst ≠ p.src then .next s
      else
        let w := !r.dead && (p.type = 0x08 || p.type = 0x0A)
        let s := if w then s.modCore r.n fun c => (lsWrite c r.ls (p.data.take (if p.type = 0x0A then 8 else r.pkt.len))).1
          else s
        .next (answered s r)

/-- FABRIC_ERROR_PACKET (R313, R315). -/
def execFabricErrorPacket (l : Nat) (p : FPkt) (s : State) : Out :=
  if !takesPkt s l p then .next s -- the link is not ACTIVE, or the packet is of another version
  else if p.dst ≠ s.fab.id then .next s -- the packet is for another module
  else
    let s := rxPass s l p
    match reqOf s p.tag with
    | none => .next s
    | some r => .next (pumpAll (reqFail s r (causeOfStatus p.status) (statusOfError p.status)))

/-- FABRIC_FORWARD (R306, R307, R310): the packet waits in its link's buffer until an egress port takes its whole length; raw
packets are never forwarded (R316). -/
def execFabricForward (l : Nat) (p : FPkt) (s : State) : Out :=
  if !takesPkt s l p then .next s -- the link is not ACTIVE, or the packet is of another version
  else if p.dst = s.fab.id then .next s -- the packet is for this module
  else if p.type = 0x20 then .next (rxPass s l p)
  else
    let s := rxTake s l p
    .next (pumpFwds { s with fab := { s.fab with fwd := s.fab.fwd ++ [(l, p)] } })

/-- ROUTE_WAIT_TIMEOUT (R310). -/
def execRouteWaitTimeout (id : Nat) (s : State) : Out :=
  match s.fab.waits.find? fun w => w.1 = id with
  | none => .next s -- no such packet waits
  | some w =>
    let s := { s with fab := { s.fab with waits := s.fab.waits.filter fun x => x.1 ≠ id } }
    .next (pumpAll (netFail s w.2 0x0402))

/-- E2E_TIMEOUT (R313): `port` is 512 × FB + injection port. -/
def execE2eTimeout (port tag : Nat) (s : State) : Out :=
  match s.fab.reqs.find? fun r => r.port = port && r.tag = some tag with
  | none => .next s -- no such request is outstanding
  | some r => .next (pumpAll (reqFail s r cREMOTE 0x0403))

/-- RAW_PACKET_ARRIVAL (R317). -/
def execRawPacketArrival (l : Nat) (p : FPkt) (s : State) : Out :=
  let k := s.flink l
  if !takesPkt s l p then .next s -- the link is not ACTIVE, or the packet is of another version
  else .next (wakeRaw (rxTake (s.setFlink l { k with raw := k.raw ++ [p] }) l p) l)

/-! ### Collectives (R320-R325) -/

/-- The tree of an ACTIVE fabric-wide group. -/
def activeTree (s : State) (gi : Nat) : Option (GroupDesc × FTree) :=
  let g := s.group gi
  if g.state = 1 then
    match g.desc, g.tree with
    | some d, some t => some (d, t)
    | _, _ => none
  else none

/-- Acknowledge a chunk, or refuse it (R322). -/
def chunkAnswer (s : State) (p : FPkt) (type : Nat) : State :=
  sendQuiet s { errorPkt s p.src p.tag 0 with type := type, group := p.group, seq := p.seq, chunk := p.chunk }

/-- Index of a child module. -/
def childIdx (t : FTree) (m : Nat) : Option Nat := (List.range t.children.length).find? fun i => t.children[i]? = some m

/-- ROOT can stage a child's chunk: it is among the DEPTH that the fabric stage combines next (R320, R322). -/
def stages (g : Group) (d : GroupDesc) (q : W32) (chunk : Nat) : Bool :=
  let per := if d.kind = 1 then 1 else upChunks d
  let at_ := (q - g.fseq).toNat * per + chunk
  decide (g.fchunk ≤ at_) && decide (at_ < g.fchunk + d.depth)

/-- COLLECTIVE_CHUNK_ARRIVAL (R321, R322, R324). -/
def execCollectiveChunkArrival (l : Nat) (p : FPkt) (s : State) : Out :=
  if !takesPkt s l p then .next s -- the link is not ACTIVE, or the packet is of another version
  else
    let s := rxPass s l p
    let m : MillChunk := ⟨p.group, p.seq, p.chunk, p.flags, p.data, 1⟩
    match activeTree s p.group with
    | none => .next (chunkAnswer s p 0x0B)
    | some (d, t) =>
      let g := s.group p.group
      let key := (p.src, p.type, p.seq, p.chunk)
      if g.seen.contains key then .next (chunkAnswer s p 0x14)
      else if p.type = 0x11 then
        if t.parent = some p.src && canEmit s p.group d p.seq then
          let s := s.setGroup p.group { g with seen := key :: g.seen }
          .next (pump (chunkAnswer (fabDown s p.group d t m) p 0x14) p.group)
        else .next (chunkAnswer s p 0x0B)
      else match childIdx t p.src with
        | none => .next (chunkAnswer s p 0x0B)
        | some i =>
          if stages g d p.seq p.chunk then
            let s := s.setGroup p.group { g with seen := key :: g.seen, fin := g.fin ++ [(i, m)] }
            .next (pump (chunkAnswer s p 0x14) p.group)
          else .next (chunkAnswer s p 0x0B)

/-- An unacknowledged chunk that was sent to a module. -/
def outMatch (dst : Nat) (q : W32) (chunk : Nat) (o : FOut) : Bool :=
  o.sent && o.dst = dst && o.m.seq = q && o.m.chunk = chunk

/-- COLLECTIVE_CHUNK_ACK (R322). -/
def execCollectiveChunkAck (l : Nat) (p : FPkt) (s : State) : Out :=
  if !takesPkt s l p then .next s -- the link is not ACTIVE, or the packet is of another version
  else
    let s := rxPass s l p
    let g := s.group p.group
    match g.fout.find? (outMatch p.src p.seq p.chunk) with
    | none => .next s
    | some o => .next (pump (s.setGroup p.group { g with fout := removeOne o g.fout }) p.group)

/-- The next backoff of R322: 1 µs, doubling to at most 64 µs. -/
def nextBackoff (b : Nat) : Nat := if b = 0 then 1 else min 64 (2 * b)

/-- COLLECTIVE_CHUNK_NACK (R322): the chunk waits for its backoff. -/
def execCollectiveChunkNack (l : Nat) (p : FPkt) (s : State) : Out :=
  if !takesPkt s l p then .next s -- the link is not ACTIVE, or the packet is of another version
  else
    let s := rxPass s l p
    let g := s.group p.group
    .next (s.setGroup p.group { g with
      fout := replaceFirst (outMatch p.src p.seq p.chunk) (fun o => { o with backoff := nextBackoff o.backoff }) g.fout })

/-- CHUNK_RESEND_TIMER (R322): the chunk is sent again and its route looked up again. -/
def execChunkResendTimer (group : Nat) (seq : W32) (chunk dst : Nat) (s : State) : Out :=
  let g := s.group group
  match g.fout.find? (outMatch dst seq chunk), g.desc with
  | some o, some d =>
    let s := s.setGroup group { g with
      fout := replaceFirst (fun x => x = o) (fun x => if x.backoff = 0 then { x with backoff := 1 } else x) g.fout }
    .next (send s (collPkt s (fabKind o.kind) dst group (if d.prio = 1 then 1 else 2) o.m))
  | _, _ => .next s -- no such chunk is unacknowledged

/-- COLLECTIVE_TIMEOUT (R323). -/
def execCollectiveTimeout (group : Nat) (s : State) : Out :=
  let g := s.group group
  match activeTree s group, g.fout.find? (·.sent) with
  | some (_, t), some o =>
    if t.timeout = 0 then .next s -- no timeout applies
    else
      let late := g.fout.filter fun x => x.m.seq = o.m.seq
      let bits := (List.range t.children.length).filter fun i => late.any fun x => t.children[i]? = some x.dst
      let miss := bits.foldl (fun a i => a + 2 ^ i) 0 +
        (if late.any fun x => t.parent = some x.dst then 2 ^ 12 else 0)
      let s := { s with fab := { s.fab with
        collSts := tset (0, 0, 0) s.fab.collSts group (0x0403, BitVec.ofNat 13 miss, o.m.seq) } }
      .next (breakGroup s group 0x0403 miss)
  | _, _ => .next s -- no sequence is outstanding

/-- FABRIC_BELL_ARRIVAL (R325). -/
def execFabricBellArrival (l : Nat) (p : FPkt) (s : State) : Out :=
  if !takesPkt s l p then .next s -- the link is not ACTIVE, or the packet is of another version
  else
    let s := rxPass s l p
    match activeTree s p.group with
    | none => .next s
    | some (d, t) =>
      match childIdx t p.src with
      | none => .next s
      | some i =>
        let g := s.group p.group
        let s := if g.fbells.contains (i, p.seq) then s else s.setGroup p.group { g with fbells := g.fbells ++ [(i, p.seq)] }
        .next (if g.fbells.contains (4096, p.seq) then rootBell s p.group d p.seq else s)

/-- FABRIC_RELEASE_ARRIVAL (R325). -/
def execFabricReleaseArrival (l : Nat) (p : FPkt) (s : State) : Out :=
  if !takesPkt s l p then .next s -- the link is not ACTIVE, or the packet is of another version
  else
    let s := rxPass s l p
    match activeTree s p.group with
    | none => .next s
    | some (d, t) =>
      if t.parent ≠ some p.src then .next s
      else
        let s := t.children.foldl (fun s c => send s (bellPkt s 0x13 c p.group p.seq)) s
        .next (startRelease s p.group d p.seq)

/-! ### Meridian synchronisation (R318, R319) -/

/-- MERIDIAN_EXCHANGE_SEND (R318, R319). -/
def execMeridianExchangeSend (s : State) : Out :=
  if s.fab.role ≠ 2 then .next s -- the module is no FOLLOWER
  else match parentLink s with
    | some l =>
      let s := followParent s
      let s := { s with fab := { s.fab with exchange := true } }
      .next (enqueue s l { errorPkt s (s.flink l).partner 0 0 with type := 0x30, vn := 0, prio := 0 })
    | none => .next (followParent s)

/-- MERIDIAN_EXCHANGE_RECEIVE (R318, R319): stamps in 1/16 ns; the follower slews, or steps forward when it is more
than 1 µs behind. -/
def execMeridianExchangeReceive (t1 t2 t3 t4 : Int) (s : State) : Out :=
  if !s.fab.exchange || s.fab.role ≠ 2 then .next s -- no exchange is on its way
  else
    let off := ((t2 - t1) - (t4 - t3)) / 2
    let s := { s with fab := { s.fab with
      exchange := false, offset := sext 32 (off % 2 ^ 32).toNat,
      synced := decide (-64 ≤ off ∧ off ≤ 64) } }
    if off < -16000 then
      let ns := ((-off) / 16).toNat
      .next (ev { s with mer := { s.mer with stepNs := ns, slew := 0 } } 0x0604 0 0x10 0 ns 0)
    else .next { s with mer := { s.mer with slew := -off * 2 ^ 28 } }

/-! ### Registers of the fabric with a row of their own -/

/-- FAB_ID_WRITE (R308). -/
def execFabIdWrite (v : Word) (s : State) : Out :=
  if (linksUp s).isEmpty then
    .next { s with fab := { s.fab with id := bits v.toNat 13 0, idValid := v.getLsbD 16 } }
  else .next (regDiscard s (regOff 0 0x10 0) 0 v)

/-- A write that leaves FAB_ROUTE[m] at `v`, or that is discarded and reported as it came. -/
def routeSet (s : State) (m : Nat) (v : Word) (at_ : Nat) (raw : Word) : State :=
  let w := v.toNat
  let nalt := bits w 34 32
  let bad := bit w 63 && (nalt == 0 || decide (4 < nalt) || (routeAlts w).any fun l => decide (95 < l))
  if bad then regDiscard s at_ 0 raw
  else { s with fab := { s.fab with route := tset 0 s.fab.route m (v &&& 0x800000077F7F7F7F) } }

/-- FAB_ROUTE_WRITE (R309). DEDUCED: log entry 47. -/
def execFabRouteWrite (m : Nat) (v : Word) (s : State) : Out :=
  .next (routeSet s m v (regOff 0 0x10 (0x40000 + 8 * m)) v)

/-- A write that leaves word `w` of FAB_COLL[g] at `v`, or that is discarded and reported as it came. -/
def collSet (s : State) (g w : Nat) (v : Word) (at_ : Nat) (raw : Word) : State :=
  if (s.group g).state ≠ 0 then regDiscard s at_ 0 raw
  else
    let mask : Word := if w = 0 then 0xEFFFFFFF00003FFF else 0x3FFF3FFF3FFF3FFF
    { s with fab := { s.fab with coll := tset 0 s.fab.coll (4 * g + w) (v &&& mask) } }

/-- FAB_COLL_WRITE (R320). -/
def execFabCollWrite (g w : Nat) (v : Word) (s : State) : Out :=
  .next (collSet s g w v (regOff 0 0x10 (0x10000 + 0x20 * g + 8 * w)) v)

end Sys2Proof.Machine
end

