-- ==== Sys2Proof/Machine/Events.lean ====
section
/-! DEFINITION. The event queue, the event ring and the sideband queue (chapter 18: R409-R418, R433, R436). -/

namespace Sys2Proof.Machine

/-- The 32 bytes of a record (R409). -/
def Ev.bytes (r : Ev) : List Byte :=
  leBytes 1 (1 + 16 * r.sev + 64 * b2n r.loss) ++ leBytes 1 r.count ++ leBytes 2 r.code ++ leBytes 2 r.source ++
  leBytes 2 (r.ctx % 128) ++ leBytes 8 r.mer.toNat ++ leBytes 8 r.d0.toNat ++ leBytes 8 r.d1.toNat

/-- Whether a link carries a write of `n` bytes at host bus address `a` now (R233, R436). -/
def linkTakes (k : Link) (a n : Nat) : Bool := k.up && !k.retraining && k.busMaster && winCovers k a n

/-- Whether an FB is up: not isolated, and ready (FB0 always, R341). -/
def fbUp (s : State) (fb : Nat) : Bool := !s.iso fb && (fb = 0 || s.fbReady.getLsbD fb)

/-- EVENT_RAISE (R413). -/
def execEventRaise (e : EvReport) (s : State) : Out :=
  .next (logEvent s e.code (e.source / 2 ^ 14) (e.source / 2 ^ 8 % 2 ^ 6) (e.source % 2 ^ 8) e.ctx e.d0 e.d1)

/-- STAMP_REPORT (R412): an FB will send nothing stamped earlier. -/
def execStampReport (fb : Nat) (stamp : Word) (s : State) : Out :=
  let old : Word := tget 0 s.evt.stamps fb
  if s.iso fb then .next s -- the FB is isolated
  else .next { s with evt := { s.evt with stamps := tset 0 s.evt.stamps fb (if old < stamp then stamp else old) } }

/-- A copy for the sideband (R417): at 256 entries the oldest INFO or WARNING copy is dropped; with none, the new
copy is (DEDUCED, log entry 53). -/
def Evt.copy (e : Evt) (r : Ev) : Evt :=
  if r.sev < e.minSev then e
  else if e.sb.length < 256 then { e with sb := e.sb ++ [r] }
  else
    let e := { e with sbDropped := satInc 65535 e.sbDropped, sbCount := e.sbCount + 1 }
    match e.sb.find? fun x => x.sev < 2 with
    | some x => { e with sb := removeOne x e.sb ++ [r] }
    | none => e

/-- Release a record (R412, R417, R433): with LOSS and EVT_LOSS where they are due. -/
def Evt.release (e : Evt) (r : Ev) : Evt :=
  let due := e.loss || decide (0 < e.sbCount)
  let r := { r with loss := e.loss }
  let e := ({ e with out := e.out ++ [r], loss := false }).copy r
  if due then
    let x : Ev := ⟨1, false, 1, 0x0900, srcNo 0 0x12 0, 0, r.mer, BitVec.ofNat 64 e.qCount, BitVec.ofNat 64 e.sbCount⟩
    { (({ e with out := e.out ++ [x] }).copy x) with qCount := 0, sbCount := 0 }
  else e

/-- EVENT_QUEUE_RELEASE (R412): the first record, once every FB that is up has reported a stamp as late. DEDUCED:
log entry 25. -/
def execEventQueueRelease (s : State) : Out :=
  match s.evt.queue with
  | [] => .next s -- the event queue is empty
  | r :: rest =>
    if (List.range 4).all fun fb => !fbUp s fb || decide (r.mer ≤ tget (0 : Word) s.evt.stamps fb) then
      .next { s with evt := ({ s.evt with queue := rest }).release r }
    else .next s -- a stamp report is missing

/-! ### Rings in host memory (R223, R416, R436) -/

/-- A ring is full; `extra` is 7 for the event ring and 6 for the fault ring. -/
def RingRegs.full (r : RingRegs) (extra : Nat) : Bool := (r.tail - r.head).toNat = 2 ^ (r.log2 + extra)

/-- Where the next record goes. -/
def RingRegs.addr (r : RingRegs) (extra size : Nat) : Nat := r.base + r.tail.toNat % 2 ^ (r.log2 + extra) * size

/-- Records held at their sources enter the queue as it has room (R413). -/
def Evt.fill : Nat → Evt → Evt
  | 0, e => e
  | fuel + 1, e =>
    match e.held with
    | [] => e
    | r :: rest => if e.used < 1024 then Evt.fill fuel (({ e with held := rest }).add r) else e

/-- Write the first released record, or note that its write is refused. -/
def eventWrite (s : State) : State :=
  let g := s.evt.ring
  match s.evt.out with
  | [] => s
  | r :: rest =>
    let a := g.addr 7 32
    if linkTakes (s.link g.link) a 32 then
      let e := { s.evt with out := rest, ring := { g with tail := g.tail + 1, refused := false } }
      let s := hostWrite { s with evt := e.fill e.held.length } g.link false a r.bytes
      if g.irqSev ≤ r.sev then raiseMsix s g.link g.vector else s
    else if g.refused then s
    else ev { s with evt := { s.evt with ring := { g with refused := true } } } 0x0007 0 0x12 0 a 0

/-- EVENT_RING_WRITE (R416, R436). -/
def execEventRingWrite (s : State) : Out :=
  if s.evt.ring.enable && !s.evt.ring.full 7 && !s.evt.out.isEmpty then .next (eventWrite s)
  else .next s -- no record can go to the ring

/-- A write of a ring's configuration register with ENABLE = 1 (R223, R416): the new registers, or none where it is
discarded.  `sev` says that the register has IRQ_SEV. -/
def RingRegs.enableWrite (s : State) (r : RingRegs) (sev : Bool) (w : Nat) : Option RingRegs :=
  let r' := { r with vector := bits w 14 9, irqSev := if sev then bits w 16 15 else r.irqSev }
  if r.enable then
    if bits w 6 5 = r.link ∧ bits w 4 1 = r.log2 then some r' else none
  else if 10 < bits w 4 1 ∨ !(s.link (bits w 6 5)).up then none
  else some { r' with link := bits w 6 5, log2 := bits w 4 1, enable := true, head := 0, tail := 0, refused := false }

/-- A write of HEAD: the new head, or none where it is discarded. -/
def RingRegs.headOk (r : RingRegs) (extra : Nat) (h : W32) : Bool :=
  decide ((r.tail - h).toNat ≤ 2 ^ (r.log2 + extra))

/-- EVENT_RING_ENABLE (R416). -/
def execEventRingEnable (v : Word) (s : State) : Out :=
  match s.evt.ring.enableWrite s true v.toNat with
  | some r => .next { s with evt := { s.evt with ring := r } }
  | none => .next (regDiscard s (regOff 0 0x12 0x18) 0 v)

/-- EVENT_RING_DISABLE (R416). -/
def execEventRingDisable (s : State) : Out :=
  .next { s with evt := { s.evt with ring := { s.evt.ring with enable := false } } }

/-- EVENT_RING_HEAD_WRITE (R416). -/
def execEventRingHeadWrite (v : Word) (s : State) : Out :=
  if s.evt.ring.headOk 7 (v.setWidth 32) then
    .next { s with evt := { s.evt with ring := { s.evt.ring with head := v.setWidth 32 } } }
  else .next (regDiscard s (regOff 0 0x12 0x20) 0 v)

/-- Release every queued record, in order. -/
def Evt.releaseAll (e : Evt) : Evt := e.queue.foldl Evt.release { e with queue := [] }

/-- Write released records to the ring while it takes them. -/
def writeEvents : Nat → State → State
  | 0, s => s
  | fuel + 1, s =>
    if s.evt.ring.full 7 || s.evt.out.isEmpty || !linkTakes (s.link s.evt.ring.link) (s.evt.ring.addr 7 32) 32 then s
    else writeEvents fuel (eventWrite s)

/-- The event queue at a warm start (R416): into the ring if it is enabled; what is left is discarded and counted in DROPPED
of the start that begins. DEDUCED: log entry 83. -/
def drainEvents (s : State) : State :=
  let s := if s.evt.ring.enable then
      let s := { s with evt := s.evt.releaseAll }
      writeEvents (s.evt.out.length + s.evt.held.length) s
    else s
  { s with evt := { s.evt with
      queue := [], out := [], held := [], dropped := min (2 ^ 24 - 1) (s.evt.queue.length + s.evt.out.length + s.evt.held.length) } }

/-- POLL_FOR_PLATFORM_EVENT_MESSAGE (R417): the oldest copy is collected, where MCTP is served (R429). -/
def execPollForPlatformEventMessage (s : State) : Out :=
  if mctpServed s then .next { s with evt := { s.evt with polled := s.evt.sb.head?, sb := s.evt.sb.tail } }
  else .next s

end Sys2Proof.Machine
end

