-- ==== Sys2Proof/Machine/Command.lean ====
section
/-! DEFINITION. Commands in flight and their completion (R13, R241, R252-R254), and the reads and writes that the
command processor makes itself (R249-R251, R276, R279). -/

namespace Sys2Proof.Machine

/-! ### Opcodes (R246) -/

/-- Executed by Reeve firmware. -/
def isFw (op : Nat) : Bool := (decide (0x40 ≤ op) && op != 0x42 && op != 0x43)

/-- Commands that serialise their ring (R241). -/
def isSerial (op : Nat) : Bool := isFw op || [0x30, 0x31, 0x32, 0x33].contains op

/-- Accepted only on rings with PRIV = 1. -/
def isPriv (op : Nat) : Bool := [0x40, 0x41, 0x60, 0x61, 0x71, 0x72, 0x81, 0x82, 0x90, 0x91].contains op

/-! ### Doorbells and command windows (R239, R240) -/

/-- LENGTH of the packet at the start of a ring's command window. -/
def windowLen (s : State) (ring : Nat) : Nat := Memory.readLe s.host.windows (65536 * ring + 4) 2

/-- Whether a doorbell is taken. -/
def bellOk (s : State) (ring : Nat) (v : Word) : Bool :=
  let r := s.ring ring
  let t : W32 := v.setWidth 32
  r.enable && v.toNat / 2 ^ 33 == 0 && decide ((t - r.head).toNat ≤ 2 ^ (r.log2 + 6)) &&
  decide ((r.tail - r.head).toNat ≤ (t - r.head).toNat) &&
  (!v.getLsbD 32 || t == r.tail + BitVec.ofNat 32 (windowLen s ring))

/-- A doorbell takes effect, or is discarded and logged. -/
def ringBell (s : State) (ring : Nat) (v : Word) : State :=
  let r := s.ring ring
  if bellOk s ring v then
    let r' := { r with tail := v.setWidth 32 }
    s.setRing ring (if v.getLsbD 32 then { r' with window := true, winAt := r.tail } else r')
  else logEvent s 0x0004 (ring / 16) 0x0E ring 0 (BitVec.ofNat 64 ring) v

/-- A write to a command window: its first 4 KiB are stored, the rest is reserved (R231). -/
def windowWrite (s : State) (ring off : Nat) (data : List Byte) : State :=
  let n := min data.length (4096 - off)
  { s with host := { s.host with windows := Memory.writeN s.host.windows (65536 * ring + off) (data.take n) } }

/-! ### In flight -/

/-- Commands of a ring, and of the command processor of an FB, in flight. -/
def ringFlight (s : State) (ring : Nat) : List Cmd := s.host.inflight.filter fun c => c.ring = ring
/-- DEDUCED: log entry 94. -/
def fbFlight (s : State) (fb : Nat) : Nat := (s.host.inflight.filter fun c => c.ring / 16 = fb).length

/-- Records an FB holds (R254). -/
def fbHeld (s : State) (fb : Nat) : Nat :=
  (s.host.held.filter fun e => e.1 / 16 = fb).foldl (fun a e => a + e.2.length) 0

/-- Room for one more command of a ring (R241, R254). -/
def cmdRoom (s : State) (ring : Nat) : Bool :=
  decide ((ringFlight s ring).length < 8) && decide (fbFlight s (ring / 16) + fbHeld s (ring / 16) < 32)

/-- A command's entry as its header gives it. -/
def cmdOf (h : Hdr) (op : Nat) : Cmd :=
  { ring := h.ring, op := op, seq := h.seq, ctx := h.ctx, vis := h.vis, compl := h.compl, tag := h.tag,
    timeout := h.timeout, running := true, stop := 0, cmp := 0, addr := 0, value := 0, links := [] }

/-- No command or thread of a context starts: it is SUSPENDED, or its link has been lost (R256). -/
def ctxHeld (s : State) (ctx : Nat) : Bool :=
  let c := s.ctx ctx
  c.state == 2 || (c.state != 0 && decide (2 ≤ (s.link c.link).loss))

/-- A number in a packet's bytes. -/
def fieldOf (bs : List Byte) (off n : Nat) : Nat := leNat ((bs.drop off).take n)

/-- Start a command (R241): COMMAND_PACKET_ARRIVAL has taken its packet, whose header and parameter fields `fs` (byte
offset, bytes, value) the command's operands are; earlier commands of its ring have started, and have completed where
it or one of them serialises the ring.  None: it may not start. -/
def beginCmd (s : State) (h : Hdr) (op : Nat) (fs : List (Nat × Nat × Nat)) : Option State :=
  let mine := ringFlight s h.ring
  let before := mine.takeWhile fun c => !(c.seq = h.seq)
  let ok := before.all (fun c => c.running && !isSerial c.op) && (!isSerial op || before.isEmpty)
  if s.iso (h.ring / 16) || ctxHeld s h.ctx then none
  else
    match s.cmd? h.ring h.seq with
    | some c =>
      if c = { cmdOf h op with running := false, par := c.par } && (fs.all fun f => fieldOf c.par f.1 f.2.1 == f.2.2) && ok then
        some (s.modCmd h.ring h.seq fun _ => cmdOf h op)
      else none
    | none => none

/-- The Reeve of an FB runs no firmware: its restart or its halt holds FW-executed commands (R386), and so does its
stopped clock until it wakes (R399). -/
def reeveDown (s : State) (fb : Nat) : Bool :=
  let w : Wdog := tget {} s.sec.wdog fb
  w.down || w.halted || tget false s.clk.reeveStop fb

/-- The frame of a command of a ring: it starts; a command of a STOPPED context completes DIE_LOST, unless it is
privileged (R202, R343); a parameter that is out of range completes BAD_PARAM with no effect (R13, R247). DEDUCED:
log entry 55. -/
def command (op : Nat) (h : Hdr) (fs : List (Nat × Nat × Nat)) (bad : State → Bool) (run : State → State) (s : State) :
    Out :=
  match (if isFw op && reeveDown s (h.ring / 16) then none else beginCmd s h op fs) with
  | none => .next s -- the command may not start yet
  | some s =>
    if (s.ctx h.ctx).state = 3 && !isPriv op then .next (finishSt s h.ring h.seq stDIELOST 0)
    else if bad s then .next (finishSt s h.ring h.seq stBADPARAM 0)
    else .next (run s)

/-! ### Memory accesses of the command processor (R250, R276) -/

def XStop.cmdStatus : XStop → Nat × Nat
  | .wait => (stDONE, 0)
  | .rights a => (stRIGHTS, a)
  | .hostLost a => (stHOSTLOST, a)
  | .aborted a => (stABORTED, a)

/-- Complete, wait or fail after an access; a command that fails keeps nothing at a home. -/
def afterAccess (c : Cmd) (j : CmdJob) (ok : State → List Byte → List Nat → State) : Acc → State
  | .done s bs ls => ok s bs ls
  | .waits s => park s c j
  | .stops s e => finishSt s c.ring c.seq e.cmdStatus.1 e.cmdStatus.2
  | .fails s f => finishSt s c.ring c.seq f.status f.dpa

end Sys2Proof.Machine
end

