-- ==== Sys2Proof/Machine/Carter.lean ====
section
/-! DEFINITION. Carters (chapter 11): COPY, COPY_ND and FILL, their chunks, delivery, flags and completion. -/

namespace Sys2Proof.Machine

/-! ### Logical bytes, chunks and groups (R262-R265, R269) -/

def CarJob.chunks (j : CarJob) : Nat := ceilDiv j.t 256
def CarJob.groups (j : CarJob) : Nat := ceilDiv j.chunks (2 ^ j.fl.shift)

/-- Offset of the dimensions above the first, for the row number `q` (R264). -/
def rowOffset : List Dim → Nat → Int
  | [], _ => 0
  | d :: ds, q => ((q % d.count : Nat) : Int) * d.stride + rowOffset ds (q / d.count)

/-- The contiguous runs of bytes that logical bytes `[b, b + n)` have on a side. -/
def CarJob.runs (j : CarJob) (strided : Bool) (base : Nat) : Nat → Nat → Nat → List (Nat × Nat)
  | 0, _, _ => []
  | fuel + 1, b, n =>
    if n = 0 then []
    else if strided then
      let k := min n (j.count0 - b % j.count0)
      (((base : Int) + ((b % j.count0 : Nat) : Int) + rowOffset j.dims (b / j.count0)).toNat, k) ::
        j.runs strided base fuel (b + k) (n - k)
    else [(base + b, n)]

/-- Runs of chunk `k` at the source (none for FILL) and at the destination. -/
def CarJob.srcRuns (j : CarJob) (k : Nat) : List (Nat × Nat) :=
  if j.op = 0x12 then [] else j.runs (j.side != 1) j.src 256 (256 * k) (min 256 (j.t - 256 * k))
def CarJob.dstRuns (j : CarJob) (k : Nat) : List (Nat × Nat) :=
  j.runs (decide (1 ≤ j.side)) j.dst 256 (256 * k) (min 256 (j.t - 256 * k))

/-- FILL's bytes of chunk `k` (R265): P divides 256, so that every chunk begins the pattern afresh. -/
def CarJob.fillBytes (j : CarJob) (k : Nat) : List Byte :=
  (List.range (min 256 (j.t - 256 * k))).map fun i => j.fill.getD (i % j.fill.length) 0

/-- The delivered prefix D (R268). -/
def CarSlot.delivered (c : CarSlot) (j : CarJob) : Nat :=
  if j.fl.on then min j.chunks (c.groups * 2 ^ j.fl.shift) else c.vis

/-- Groups whose every chunk has reached its visibility point. -/
def CarSlot.groupsDue (c : CarSlot) (j : CarJob) : Nat :=
  if c.vis = j.chunks then j.groups else c.vis / 2 ^ j.fl.shift

/-! ### Parameters (R266) -/

/-- Lowest address and the address after the highest of a side. -/
def spanOf (base count0 : Nat) (dims : List Dim) : Int × Int :=
  dims.foldl (fun x d =>
    let e : Int := ((d.count : Int) - 1) * d.stride
    if e < 0 then (x.1 + e, x.2) else (x.1, x.2 + e)) ((base : Int), (base : Int) + count0)

def overlap (a b : Int × Int) : Bool := decide (a.1 < b.2) && decide (b.1 < a.2)
def inDva (a : Int × Int) : Bool := decide (0 ≤ a.1) && decide (a.2 ≤ (2 ^ 56 : Nat))

/-- Whether a Carter command completes BAD_PARAM at its start. -/
def CarJob.bad (j : CarJob) : Bool :=
  let src := if j.side = 1 then ((j.src : Int), (j.src : Int) + j.t) else spanOf j.src j.count0 j.dims
  let dst := if j.side = 0 then ((j.dst : Int), (j.dst : Int) + j.t) else spanOf j.dst j.count0 j.dims
  let flag := ((j.fl.dva : Int), (j.fl.dva : Int) + 8 * ceilDiv j.groups 64)
  let fill := j.op = 0x12
  j.t == 0 || decide (2 ^ 40 ≤ j.t) || decide (4 < j.dims.length) || decide (2 < j.side) ||
  (j.dims.any fun d => d.count == 0 || decide (65535 < d.count)) || decide (2 ^ 32 ≤ j.count0 && j.op == 0x11) ||
  decide (15 < j.fl.shift) || (fill && decide (32 < j.fill.length)) ||
  (if j.fl.on then j.fl.dva % 8 != 0 else j.fl.dva != 0) ||
  !inDva dst || (!fill && !inDva src) || (j.fl.on && !inDva flag) || (!fill && overlap src dst) ||
  (j.fl.on && (overlap dst flag || (!fill && overlap src flag)))

/-! ### Starting (R259, R260) -/

/-- Whether the byte at a DVA lies in a HOST segment. -/
def inHost (s : State) (ctx dva : Nat) : Bool :=
  match findSeg s ctx dva with
  | some (_, d) => d.kind = 1
  | none => false

def poolOf (s : State) (j : CarJob) : Nat :=
  if j.op ≠ 0x12 ∧ inHost s j.ctx j.src then 0 else if inHost s j.ctx j.dst then 1 else 2

/-- A Carter command starts: it joins its pool's queue. -/
def carStart (j : CarJob) (s : State) : State :=
  { s with car := { s.car with queue := s.car.queue ++ [(j.ring / 16, poolOf s j, j)] } }

/-- Byte 1 of a Carter command's parameters. -/
def flagByte (fl : FlagOpt) : Nat := b2n fl.on + 16 * fl.shift

/-- A 48-bit signed stride with its count (R264). -/
def dimWord (d : Dim) : Nat := d.count + (BitVec.ofInt 48 d.stride).toNat * 65536

def jobOf (h : Hdr) (op : Nat) (fl : FlagOpt) (t src dst side count0 : Nat) (dims : List Dim) (fill : List Byte) :
    CarJob :=
  ⟨h.ring, h.seq, op, h.ctx, h.vis, fl, t, src, dst, side, count0, dims, fill⟩

/-- COPY (R263). -/
def execCopy (h : Hdr) (fl : FlagOpt) (src dst bytes : Nat) (s : State) : Out :=
  let j := jobOf h 0x10 fl bytes src dst 0 bytes [] []
  command 0x10 h [(1, 1, flagByte fl), (8, 8, src), (16, 8, dst), (24, 8, bytes), (32, 8, fl.dva)] (fun _ => j.bad) (carStart j) s

/-- COPY_ND (R264). -/
def execCopyNd (h : Hdr) (fl : FlagOpt) (side count0 src dst : Nat) (dims : List Dim) (s : State) : Out :=
  let j := jobOf h 0x11 fl (dims.foldl (fun a d => a * d.count) count0) src dst side count0 dims []
  command 0x11 h
    ([(1, 1, flagByte fl), (2, 1, dims.length + 1), (3, 1, side), (4, 4, count0), (8, 8, src), (16, 8, dst), (24, 8, fl.dva)] ++
      (List.range dims.length).map fun i => (32 + 8 * i, 8, dimWord (dims.getD i ⟨0, 0⟩)))
    (fun _ => j.bad) (carStart j) s

/-- FILL (R265). -/
def execFill (h : Hdr) (fl : FlagOpt) (plen dst bytes : Nat) (pattern : List Byte) (s : State) : Out :=
  let p := (pattern ++ List.replicate 32 0).take (2 ^ min plen 5)
  let j := jobOf h 0x12 fl bytes 0 dst 0 bytes [] p
  command 0x12 h
    [(1, 1, flagByte fl), (2, 1, plen), (8, 8, dst), (16, 8, bytes), (24, 8, fl.dva), (32, p.length, leNat p)]
    (fun _ => j.bad || decide (5 < plen)) (carStart j) s

/-- Occupied slots of a Carter. -/
def occupied (s : State) (fb car : Nat) : Nat := ((List.range 4).filter fun i => (s.slot fb car i).state ≠ 0).length

/-- The Carter of a pool that takes the next command (R260): enabled, with a free slot, the fewest occupied. -/
def pickCarter (s : State) (fb pool : Nat) : Option Nat :=
  let dis : BitVec 12 := tget 0 s.car.disable fb
  ((List.range 4).map (4 * pool + ·)).foldl (fun b c =>
    if dis.getLsbD c || decide (4 ≤ occupied s fb c) then b
    else match b with
      | none => some c
      | some x => if occupied s fb c < occupied s fb x then some c else b) none

/-! ### Failing (R271-R273) -/

/-- A command stops at a chunk: the failure at the lowest chunk, then the lower code, is kept. From the failing chunk on
nothing issues, and an issued write that its home has not performed is not performed; a flag failure leaves the chunks
that have issued. -/
def CarSlot.failAt (c : CarSlot) (f : CarFail) : CarSlot :=
  let cut := if f.flag then c.next else f.k
  { c with
    fail := some (match c.fail with
      | some g => if g.k < f.k ∨ (g.k = f.k ∧ g.status ≤ f.status) then g else f
      | none => f)
    state := 3, noFlags := c.noFlags || f.flag
    reads := c.reads.filter fun r => decide (r.k < cut)
    pend := c.pend.filter fun p => decide (p.k < cut) || p.done
    beyond := c.beyond.filter fun k => decide (k < cut) }

/-- Agents of a descriptor: its chunks from `cut` on, and, where `flags`, its flag writes. -/
def carAgent (fb car sl cut : Nat) (flags : Bool) : Agent → Bool
  | .chunk f c i k => f = fb && c = car && i = sl && decide (cut ≤ k)
  | .carFlag f c i => flags && f = fb && c = car && i = sl
  | _ => false

def carFail (s : State) (fb car sl : Nat) (f : CarFail) : State :=
  let c := s.slot fb car sl
  forgetIf (s.setSlot fb car sl (c.failAt f)) (carAgent fb car sl (if f.flag then c.next else f.k) (c.noFlags || f.flag))

/-- A translation that does not go on. DEDUCED: log entry 59. -/
def carStop (s : State) (fb car sl k : Nat) (dst flag : Bool) : XStop → State
  | .wait => s
  | .rights a => carFail s fb car sl ⟨k, stRIGHTS, a, dst, flag⟩
  | .hostLost a => carFail s fb car sl ⟨k, stHOSTLOST, a, dst, flag⟩
  | .aborted a => carFail s fb car sl ⟨k, stABORTED, a, dst, flag⟩

def carReq (fb car ctx : Nat) (a : Agent) : Req := ⟨fb, 256 + car, ctx, a⟩

/-- An agent's fault is unanswered. -/
def faultOut (s : State) (a : Agent) : Bool :=
  (s.xlt.faults.any fun f => f.joined.any fun w => w.agent = a) ||
  (s.xlt.offered.any fun f => f.joined.any fun w => w.agent = a)

/-- A descriptor none of whose faults is queued any longer runs on. -/
def carResume (s : State) (fb car sl : Nat) : State :=
  let c := s.slot fb car sl
  if c.state = 2 && !(s.xlt.faults.any fun f => f.joined.any fun w => carAgent fb car sl 0 true w.agent) then
    s.setSlot fb car sl { c with state := 1 }
  else s

/-! ### The order of a Carter's accesses (R275, R281) -/

/-- The homes of translated pieces, none longer than a line: lines of device memory and scratch, host links. -/
def homesOf (ts : List (Tgt × Nat)) : List (Nat × Nat) :=
  ts.flatMap fun p => match p.1 with
    | .dev a => [(0, a / 256), (0, (a + p.2 - 1) / 256)]
    | .host l _ => [(l + 1, 0)]

def meets (a b : List (Tgt × Nat)) : Bool := (homesOf a).any fun h => (homesOf b).contains h

/-- No access that the Carter's port issued before stamp `at_` and that its home has not performed meets these pieces. -/
def portFree (s : State) (fb car at_ : Nat) (ts : List (Tgt × Nat)) : Bool :=
  (List.range 4).all fun i =>
    let c := s.slot fb car i
    (c.pend.all fun p => p.done || decide (at_ ≤ p.at_) || !meets p.dst ts) &&
    (c.reads.all fun r => r.data.isSome || decide (at_ ≤ r.at_) || !meets r.src ts)

/-! ### Delivery and flags (R268-R270) -/

/-- Note the links that a command's writes have used (R276, R284). -/
def noteLinks (s : State) (ring : Nat) (ls : List Nat) : State :=
  let r := s.ring ring
  s.setRing ring { r with hostLinks := addLinks r.hostLinks ls }

/-- A flag word has been written: its groups are flagged, and at GLOBAL a zero-length read follows on its link. -/
def flagDone (s : State) (fb car sl : Nat) (j : CarJob) (upTo : Nat) (ls : List Nat) : State :=
  let zs := if j.vis = 2 then zlrLinks s (addLinks [] ls) else []
  let s := noteLinks s j.ring ls
  let c := s.slot fb car sl
  issueZlr (s.setSlot fb car sl { c with groups := upTo, flagLinks := c.flagLinks ++ zs }) (.flag fb car sl) zs

/-- Write the flag words that are due, one after another. DEDUCED: log entry 131. -/
def writeFlags : Nat → State → Nat → Nat → Nat → CarJob → State
  | 0, s, _, _, _, _ => s
  | fuel + 1, s, fb, car, sl, j =>
    let c := s.slot fb car sl
    let due := c.groupsDue j
    if !j.fl.on || decide (due ≤ c.groups) || c.noFlags || agentWaits s (.carFlag fb car sl) then s
    else
      let w := c.groups / 64
      let upTo := min due (64 * (w + 1))
      let a := j.fl.dva + 8 * w
      let k := c.delivered j
      let rq := carReq fb car j.ctx (.carFlag fb car sl)
      match xlateAll s rq 1 a 8 with
      | (s, .error e) => carStop s fb car sl k true true e
      | (s, .ok ts) =>
        if !portFree s fb car s.host.issued ts then holdAt s rq 1 a 8 ts
        else match writePieces false s ts (leBytes 8 (2 ^ (upTo - 64 * w) - 1)) with
        | (s, some (.held _)) => holdAt s rq 1 a 8 ts
        | (s, some f) => carFail s fb car sl ⟨k, f.status, f.dpa, true, true⟩
        | (s, none) => writeFlags fuel (flagDone s fb car sl j upTo (hostLinks ts)) fb car sl j

/-- The Carters of an isolated FB, and those of a SUSPENDED context's descriptors that have not stopped, do nothing
(R202). -/
def carIdle (s : State) (fb : Nat) (c : CarSlot) (j : CarJob) : Bool :=
  s.iso fb || (c.state != 3 && (s.ctx j.ctx).state == 2)

/-- Flags as far as they are due. -/
def carFlags (s : State) (fb car sl : Nat) : State :=
  let c := s.slot fb car sl
  match c.job with
  | none => s
  | some j => if carIdle s fb c j then s else writeFlags ((c.groupsDue j - c.groups) / 64 + 2) s fb car sl j

/-- Extend the visible prefix over the chunks beyond it. -/
def growVis : Nat → CarSlot → CarSlot
  | 0, c => c
  | fuel + 1, c =>
    if c.beyond.contains c.vis then
      growVis fuel { c with vis := c.vis + 1, beyond := c.beyond.filter (· ≠ c.vis) }
    else c

/-- Chunk `k` has reached its visibility point. -/
def carVisible (s : State) (fb car sl k : Nat) : State :=
  let c := s.slot fb car sl
  let c := if c.vis ≤ k then { c with beyond := c.beyond ++ [k] } else c
  carFlags (s.setSlot fb car sl (growVis (c.beyond.length + 1) c)) fb car sl

/-! ### Writes at their homes (R267, R268, R273) -/

/-- Where an issued write is performed: a chunk whose bytes form one aligned line is written whole (R262). -/
def wholeLine (ts : List (Tgt × Nat)) (data : List Byte) : List (Tgt × Nat) × List Byte :=
  let line := match ts.head? with
    | some (.dev a, _) => a / 256
    | _ => 0
  -- the piece of each byte: where it starts in the line, its length, and where it starts in the data
  let ps := (ts.foldl (fun (x : List (Nat × Nat × Nat) × Nat) p => match p.1 with
    | .dev a => if a / 256 = line then (x.1 ++ [(a % 256, p.2, x.2)], x.2 + p.2) else x
    | .host _ _ => x) ([], 0)).1
  let at_ (i : Nat) : Option Byte :=
    (ps.find? fun p => decide (p.1 ≤ i) && decide (i < p.1 + p.2.1)).bind fun p => data[p.2.2 + (i - p.1)]?
  let whole := (List.range 256).filterMap at_
  if data.length = 256 && whole.length = 256 then ([(.dev (256 * line), 256)], whole) else (ts, data)

/-- The home of an issued write performs it, or holds it. -/
def carPerform (s : State) (fb car sl : Nat) (j : CarJob) (p : CarPend) : State :=
  let links := hostLinks p.dst
  if links.any fun l => !(s.link l).retraining && (!(s.link l).up || !(s.link l).busMaster) then
    carFail s fb car sl ⟨p.k, stHOSTLOST, 0, true, false⟩
  else if !portFree s fb car p.at_ p.dst then s
  else match writePieces true s p.dst p.data with
    | (_, some (.held _)) => s
    | (s, some f) => carFail s fb car sl ⟨p.k, f.status, f.dpa, true, false⟩
    | (s, none) =>
      let key := 12 * fb + car
      let c := s.slot fb car sl
      let s := noteLinks { s with car := { s.car with
        written := tset 0 s.car.written key (tget 0 s.car.written key + p.data.length) } } j.ring links
      let s := s.setSlot fb car sl { c with pend := replaceFirst (fun x => x.k = p.k) (fun x => { x with done := true }) c.pend }
      if j.vis = 0 then carVisible s fb car sl p.k else s

/-- The write that the Carter issued first, of those with stamps from `lo` to `hi` that their homes have not performed. -/
def nextUndone (s : State) (fb car lo hi : Nat) : Option (Nat × CarPend) :=
  ((List.range 4).flatMap fun i => (s.slot fb car i).pend.map fun p => (i, p)).foldl (fun b e =>
    if e.2.done || decide (e.2.at_ < lo) || decide (hi < e.2.at_) then b
    else match b with
      | none => some e
      | some x => if e.2.at_ < x.2.at_ then some e else b) none

/-- The homes perform, in the order of issue, what the Carter issued with stamps from `lo` to `hi`, each chunk after
those before it in its command. -/
def carSweep : Nat → State → Nat → Nat → Nat → Nat → State
  | 0, s, _, _, _, _ => s
  | fuel + 1, s, fb, car, lo, hi =>
    match nextUndone s fb car lo hi with
    | none => s
    | some (sl, p) =>
      let c := s.slot fb car sl
      let s := match c.job with
        | some j => if c.pend.any fun q => !q.done && decide (q.k < p.k) then s else carPerform s fb car sl j p
        | none => s
      carSweep fuel s fb car (p.at_ + 1) hi

/-- Writes of a Carter that have issued and not been acknowledged. -/
def carWrites (s : State) (fb car : Nat) : Nat := ((List.range 4).map fun i => (s.slot fb car i).pend.length).foldl (· + ·) 0
/-- Chunks of a Carter whose reads have issued and whose write has not (R261; DEDUCED, log entry 141). -/
def carReads (s : State) (fb car : Nat) : Nat := ((List.range 4).map fun i => (s.slot fb car i).reads.length).foldl (· + ·) 0

/-- Everything issued up to a stamp. -/
def carSettle (s : State) (fb car at_ : Nat) : State := carSweep (carWrites s fb car) s fb car 0 at_

/-- The outbound queue takes LOCAL writes as they come (R276). -/
def carLocal (s : State) (fb car : Nat) : State :=
  let ls := (List.range 4).flatMap fun i =>
    let c := s.slot fb car i
    if c.job.any fun j => j.vis = 0 then (c.pend.filter fun p => !p.done).map (·.at_) else []
  match ls with
  | [] => s
  | _ => carSettle s fb car (ls.foldl max 0)

/-! ### Chunks (R260, R261, R267) -/

/-- Whether a translated run may still issue: the links of its host pieces take requests, inside their windows (R233). -/
def runOpen (s : State) (ts : List (Nat × Tgt × Nat)) : Bool :=
  ts.all fun p => match p.2.1 with
    | .dev _ => true
    | .host l a => let k := s.link l; (k.up || k.retraining) && k.busMaster && winCovers k a p.2.2

/-- Translate the runs of a chunk in order, page by page, each once: `us` are runs that have translated before. Answers the
runs that have translated, and what stops the next one. DEDUCED: log entry 141. -/
def xlateRuns : State → Req → Nat → List (Nat × Nat) → List (List (Nat × Tgt × Nat)) →
    State × Option XStop × List (List (Nat × Tgt × Nat))
  | s, _, _, [], _ => (s, none, [])
  | s, rq, acc, (a, n) :: rs, us =>
    let go (s : State) (u : List (Nat × Tgt × Nat)) : State × Option XStop × List (List (Nat × Tgt × Nat)) :=
      match xlateRuns s rq acc rs (us.drop 1) with
      | (s, e, vs) => (s, e, u :: vs)
    match us.head?.filter (runOpen s) with
    | some u => go s u
    | none =>
      match xlateAll s rq acc a n with
      | (s, .error e) => (s, some e, [])
      | (s, .ok ts) => go s (withDvas a ts)

/-- Chunk `k` and those after it that form one packet: contiguous at their destination, within 4 KiB, 16 at most. -/
def packetGo (j : CarJob) : Nat → Nat → Nat
  | 0, _ => 1
  | fuel + 1, k =>
    match j.dstRuns k, j.dstRuns (k + 1) with
    | [(a, n)], [(b, m)] =>
      if k + 1 < j.chunks && b == a + n && a / 4096 == (b + m - 1) / 4096 then 1 + packetGo j fuel (k + 1) else 1
    | _, _ => 1

def CarJob.packet (j : CarJob) (k : Nat) : Nat := packetGo j 15 k

/-- Whether a descriptor may translate its next chunk and issue its reads. -/
def canAsk (s : State) (fb car sl : Nat) : Bool :=
  let c := s.slot fb car sl
  match c.job with
  | none => false
  | some j =>
    c.state == 1 && !carIdle s fb c j && decide (c.asked < j.chunks) && decide (carReads s fb car < 256) &&
    !agentWaits s (.chunk fb car sl c.asked)

/-- The next chunk: its source addresses, then its destination addresses are translated, and its reads issue; FILL reads
nothing. -/
def carAsk (s : State) (fb car sl : Nat) : State :=
  let c := s.slot fb car sl
  match c.job with
  | none => s
  | some j =>
    let k := c.asked
    let rq := carReq fb car j.ctx (.chunk fb car sl k)
    match xlateRuns s rq 0 (j.srcRuns k) c.src with
    | (s, some e, us) => carStop (s.setSlot fb car sl { s.slot fb car sl with src := us }) fb car sl k false false e
    | (s, none, us) =>
      match xlateRuns s rq 1 (j.dstRuns k) c.dst with
      | (s, some e, vs) =>
        carStop (s.setSlot fb car sl { s.slot fb car sl with src := us, dst := vs }) fb car sl k true false e
      | (s, none, vs) =>
        let (s, at_) := s.stamp
        let qs := hostReqs us.flatten
        let s := if qs.isEmpty then s else askReads s rq qs
        let c := s.slot fb car sl
        s.setSlot fb car sl { c with
          asked := k + 1
          src := []
          dst := []
          reads := c.reads ++ [⟨k, us.flatten.map (·.2), vs.flatten.map (·.2), at_,
            if j.op = 0x12 then some (j.fillBytes k) else none⟩] }

/-- Whether a descriptor's next write may issue: its bytes have been read, and it does not stall at a flag write. -/
def canIssue (s : State) (fb car sl : Nat) : Bool :=
  let c := s.slot fb car sl
  match c.job with
  | none => false
  | some j =>
    !carIdle s fb c j && !faultOut s (.carFlag fb car sl) && decide (carWrites s fb car < 64) &&
    c.reads.any fun r => r.k = c.next && r.data.isSome

/-- The write of the next chunk issues. -/
def carIssue (s : State) (fb car sl : Nat) : State :=
  let c := s.slot fb car sl
  match c.reads.find? fun r => r.k = c.next with
  | some r =>
    let (s, at_) := s.stamp
    let w := wholeLine r.dst (r.data.getD [])
    carLocal (s.setSlot fb car sl { c with
      next := c.next + 1
      reads := c.reads.filter fun x => x.k ≠ r.k
      pend := c.pend ++ [⟨r.k, w.2, w.1, at_, false⟩] }) fb car
  | none => s

/-- The slot whose turn comes after slot `t`, of those that may take one. -/
def nextTurn (can : Nat → Bool) (t : Nat) : Option Nat := ((List.range 4).map fun i => (t + 1 + i) % 4).find? can

/-- One packet of a descriptor: `n` chunks, as far as they can. -/
def turnGo (can : State → Bool) (act : State → State) : Nat → State → State
  | 0, s => s
  | n + 1, s => if can s then turnGo can act n (act s) else s

/-- Descriptors translate and read in turn, a packet each. -/
def askTurns : Nat → State → Nat → Nat → State
  | 0, s, _, _ => s
  | fuel + 1, s, fb, car =>
    let key := 12 * fb + car
    match nextTurn (canAsk s fb car) (tget 0 s.car.turn key) with
    | none => s
    | some sl =>
      let c := s.slot fb car sl
      let n := (c.job.map fun j => j.packet c.asked).getD 1
      askTurns fuel (turnGo (canAsk · fb car sl) (carAsk · fb car sl) n
        { s with car := { s.car with turn := tset 0 s.car.turn key sl } }) fb car

/-- Descriptors write in turn, a packet each. -/
def issueTurns : Nat → State → Nat → Nat → State
  | 0, s, _, _ => s
  | fuel + 1, s, fb, car =>
    let key := 12 * fb + car
    match nextTurn (canIssue s fb car) (tget 0 s.car.wturn key) with
    | none => s
    | some sl =>
      let c := s.slot fb car sl
      let n := (c.job.map fun j => j.packet c.next).getD 1
      issueTurns fuel (turnGo (canIssue · fb car sl) (carIssue · fb car sl) n
        { s with car := { s.car with wturn := tset 0 s.car.wturn key sl } }) fb car

/-- A Carter does what it can: writes that its outbound queues take, flags that are due, chunks that may issue.  A window
has 64 writes and 256 chunks, and a descriptor that stalls takes no further turn, so that the counts suffice. -/
def carPump (s : State) (fb car : Nat) : State :=
  let s := (List.range 4).foldl (fun s i => carFlags s fb car i) (carLocal s fb car)
  let s := askTurns 264 (issueTurns 64 s fb car) fb car
  askTurns 264 (issueTurns 64 s fb car) fb car

/-- Every Carter that holds a descriptor. -/
def carPumpAll (s : State) : State :=
  let ks := (tkeys s.car.slots).foldl (fun ks k => if ks.contains (k / 4) then ks else ks ++ [k / 4]) []
  ks.foldl (fun s k => carPump s (k / 12) (k % 12)) s

/-- CARTER_SLOT_TAKE (R259, R260). -/
def execCarterSlotTake (fb pool : Nat) (s : State) : Out :=
  match s.car.queue.find? fun e => e.1 = fb && e.2.1 = pool, pickCarter s fb pool with
  | some e, some c =>
    match (List.range 4).find? fun i => (s.slot fb c i).state = 0 with
    | some i =>
      if s.iso fb then .next s -- the FB is isolated
      else .next (carPump (({ s with car := { s.car with queue := removeOne e s.car.queue } }).setSlot fb c i
        { state := 1, job := some e.2.2 }) fb c)
    | none => .next s -- no slot is free
  | _, _ => .next s -- no command waits, or no slot is free

/-- The source of a chunk is read: its outbound reads have been answered, and its homes perform the rest. -/
def carTake (s : State) (fb car sl k : Nat) : State :=
  let c := s.slot fb car sl
  let a : Agent := .chunk fb car sl k
  match c.reads.find? fun r => r.k = k && r.data.isNone with
  | none => s
  | some r =>
    match answers (readsOf s a) with
    | none => s
    | some d =>
      let s := carSettle s fb car r.at_
      if !portFree s fb car r.at_ r.src then s
      else match readPieces s r.src d with
        | (_, .error (.held _)) => s
        | (s, .error f) => carPump (carFail s fb car sl ⟨k, f.status, f.dpa, false, false⟩) fb car
        | (s, .ok bs) =>
          let c := s.slot fb car sl
          let s := readsDone (s.setSlot fb car sl { c with
            reads := replaceFirst (fun x => x.k = k) (fun x => { x with data := some bs }) c.reads }) a
          carPump (pruneOld s) fb car

/-- CARTER_CHUNK_READ_DATA (R267): the data of a chunk arrive; `data` is what its reads of host memory return. -/
def execCarterChunkReadData (fb car slot chunk : Nat) (data : List Byte) (s : State) : Out :=
  .next (carTake (answerReads s (.chunk fb car slot chunk) data) fb car slot chunk)

/-- CARTER_CHUNK_WRITE_ACK (R268, R269, R273): the homes have performed the chunk's write, and all that the Carter issued
before it. -/
def execCarterChunkWriteAck (fb car slot chunk : Nat) (s : State) : Out :=
  let c := s.slot fb car slot
  match c.job, c.pend.find? fun p => p.k = chunk with
  | some j, some p =>
    let s := carSettle s fb car p.at_
    let c := s.slot fb car slot
    match c.pend.find? fun p => p.k = chunk && p.done with
    | none => .next (carPump s fb car) -- its home holds the write, or the command has failed
    | some p =>
      let s := pruneOld (s.setSlot fb car slot { c with pend := c.pend.filter fun x => x.k ≠ chunk })
      let zs := if j.vis = 2 then zlrLinks s (addLinks [] (hostLinks p.dst)) else []
      .next (carPump (if zs ≠ [] then issueZlr s (.chunk fb car slot chunk) zs
        else if j.vis = 0 then s else carVisible s fb car slot chunk) fb car)
  | _, _ => .next s -- no such chunk write is in flight

/-! ### Completion (R271) -/

/-- Whether every effect of a stopping or finished descriptor is done. -/
def CarSlot.drained (c : CarSlot) (j : CarJob) : Bool :=
  c.reads.isEmpty && c.pend.isEmpty && c.flagLinks.isEmpty &&
  (!j.fl.on || c.noFlags || decide (c.groupsDue j ≤ c.groups)) &&
  (match c.fail with
   | some f => decide (min f.k c.next ≤ c.vis)
   | none => c.delivered j == j.chunks)

/-- A descriptor's slot is freed, with whatever it still waits for. -/
def carFree (s : State) (fb car sl : Nat) : State :=
  dropZlr ((forgetIf s (carAgent fb car sl 0 true)).setSlot fb car sl {}) fun w => match w with
    | .chunk f c i _ | .flag f c i => f = fb && c = car && i = sl
    | _ => false

/-- CARTER_COMPLETE (R271, R274). -/
def execCarterComplete (fb car slot : Nat) (s : State) : Out :=
  let c := s.slot fb car slot
  match c.job with
  | none => .next s -- the slot is free
  | some j =>
    if !c.drained j then .next s -- the command has not ended
    else
      let s := carFree s fb car slot
      match c.fail with
      | none => .next (carPump (finish s j.ring j.seq stDONE 0 j.chunks 0) fb car)
      | some f =>
        let d16 := car + 16 * b2n f.dst + 32 * b2n f.flag
        let d64 := if f.status = stTIMEOUT ∨ f.status = stHOSTLOST then 0 else f.addr
        .next (carPump (finish s j.ring j.seq f.status d16 (c.delivered j) d64) fb car)

end Sys2Proof.Machine
end

