-- ==== Sys2Proof/Machine/Tithe.lean ====
section
/-! DEFINITION. The Tithe map while the module runs (R354-R357, R359-R361): what is in service, units newly bad, the
digest and the DEGRADED state. -/

namespace Sys2Proof.Machine

/-- An exposed core without a physical core (R359). -/
def noCore : Nat := 511
/-- PHYS of an ABSENT bank (R359). -/
def noBank : Nat := 127

/-- The physical core behind a logical core: exposed core k is physical core k until a start or R367 maps it
elsewhere (R358). -/
def physCore (s : State) (n : Nat) : Nat := (s.core n).phys.getD (n % 256)

/-- A logical core that took two uncorrectable reads of its descriptor or image in this start (R367). -/
def bootOut (s : State) (n : Nat) : Bool := decide (2 ≤ (s.boot.retried.filter fun m => m = n).length)

/-- A logical core is in service (R359): its SC is admitted, it has a physical core and it started (R367). -/
def inService (s : State) (n : Nat) : Bool :=
  s.scAdmitted.getLsbD (n / 256) && physCore s n != noCore && !bootOut s n

/-- Exposed cores of an SC in service. -/
def scCores (s : State) (sc : Nat) : Nat :=
  256 - ((s.cores.filter fun e => e.1 / 256 = sc && (e.2.phys = some noCore || bootOut s e.1)).length)

/-- Logical cores in service. -/
def coresUp (s : State) : Nat :=
  ((List.range 16).map fun sc => if s.scAdmitted.getLsbD sc then scCores s sc else 0).foldl (· + ·) 0

def absentBank (b : Bank) : Bool := b.phys = some noBank

/-- Ways not disabled: none in an ABSENT bank. -/
def goodWays (b : Bank) : Nat :=
  if absentBank b then 0 else ((List.range 16).filter fun w => !b.disabled.getLsbD w).length

/-- Exposed banks of an FB that are ABSENT. -/
def absentBanks (s : State) (fb : Nat) : Nat := (s.dram.banks.filter fun e => e.1 / 64 = fb && absentBank e.2).length

/-- RETIRED channels of the module. -/
def retiredChans (s : State) : Nat := (s.dram.chans.filter fun e => e.2.state = 3).length

/-- What makes the module DEGRADED (R360). -/
def degradedNow (s : State) : Bool :=
  ((List.range 16).any fun sc => !s.scAdmitted.getLsbD sc || decide (scCores s sc < 256)) ||
  ((List.range 4).any fun fb => decide (0 < absentBanks s fb) || s.iso fb) || decide (0 < retiredChans s)

/-- The DEGRADED state is entered or left (R360). -/
def updateDegraded (s : State) : State :=
  let d := degradedNow s
  if d = s.degraded then s else ev { s with degraded := d } 0x0803 0 0x29 0 (b2n d) (coresUp s)

/-! ### The soft record (R354-R357) -/

/-- Bytes 0 to 7 of an entry. -/
def SoftUnit.word (u : SoftUnit) : Nat :=
  1 + 2 ^ 4 * u.unit.kind + 2 ^ 8 * u.passes + 2 ^ 10 * b2n u.fuseOnly + 2 ^ 16 * u.unit.die + 2 ^ 32 * u.unit.loc

/-- The Tithe digest (R361): the fuse part, the soft record without KIND 9 entries and MERIDIAN fields, and the
mapping. DEDUCED: log entry 60. -/
def titheDigest (s : State) : BitVec 512 :=
  Config.shake256 (Config.fuseBytes s.boot.fuse ++
    ((s.boot.soft.filter fun u => u.unit.kind ≠ 9).flatMap fun u => leBytes 8 u.word) ++
    Config.mapBytes (s.cores.filterMap fun e => e.2.phys.map fun p => (e.1, p))
      (s.dram.banks.filterMap fun e => e.2.phys.map fun p => (e.1, p)))

def redigest (s : State) : State := { s with boot := { s.boot with digest := titheDigest s } }

/-- Log a soft entry (R355-R357). -/
def softEvent (s : State) (code : Nat) (u : SoftUnit) : State := ev s code 0 0x29 0 u.word u.mer.toNat

/-- A unit is newly bad (R355, R357): disabled in this run, recorded with PASSES = 0 if the record has room, and
reported; one that the record holds already starts its passes again (R356). -/
def newlyBad (s : State) (u : TitheUnit) : State :=
  let b := s.boot
  let (s, m) := readMer s 0
  let e : SoftUnit := ⟨u, 0, false, m⟩
  let dis := if b.disabled.contains u then b.disabled else b.disabled ++ [u]
  if b.fuse.contains u then { s with boot := { b with disabled := dis } }
  else if b.soft.any fun x => x.unit = u then
    redigest { s with boot := { b with
      disabled := dis, soft := b.soft.map fun x => if x.unit = u then { x with passes := 0 } else x } }
  else
    let n := satInc 65535 b.newBad
    if 4096 ≤ b.soft.length then
      softEvent (redigest { s with boot := { b with disabled := dis, newBad := n } }) 0x0802 e
    else
      softEvent (redigest { s with boot := { b with disabled := dis, newBad := n, soft := b.soft ++ [e] } }) 0x0800 e

/-- A repaired row is recorded (R143, KIND 9). -/
def recordRow (s : State) (u : TitheUnit) : State :=
  let (s, m) := readMer s 0
  if s.boot.soft.length < 4096 && !(s.boot.soft.any fun x => x.unit = u) then
    { s with boot := { s.boot with soft := s.boot.soft ++ [⟨u, 0, false, m⟩] } }
  else s

end Sys2Proof.Machine
end

