-- ==== Sys2Proof/Machine/Firmware.lean ====
section
/-! DEFINITION. Slots, their verification, measurements, staging and the ATTEST report (chapter 16: R373-R384), and
the choice of a slot (R362). -/

namespace Sys2Proof.Machine

def State.fw (s : State) (i : Nat) : FwSlot := tget {} s.boot.slots i
def State.setFw (s : State) (i : Nat) (x : FwSlot) : State :=
  { s with boot := { s.boot with slots := tset {} s.boot.slots i x } }

/-- An Almanac's signatures against a required owner digest, zero for none (R374). -/
def almSigned (a : Alm) (owner : BitVec 512) : Bool :=
  a.vendorOk && (owner = 0 || (!a.owner.isEmpty && Config.shake256 a.owner = owner))

/-- The first combination that qualifies (R362). -/
def almCombo (a : Alm) : Option Nat :=
  (List.range a.combos.length).find? fun i =>
    match a.combos[i]? with
    | some c => c.versionsOk && c.fb0Listed
    | none => false

/-- What R362 asks of a slot but for TRIAL_FAILED. -/
def almOk (a : Alm) (owner : BitVec 512) (rollback : Nat) : Bool :=
  almSigned a owner && decide (rollback ≤ a.rollback) && a.imagesOk && (almCombo a).isSome

def slotOk (s : State) (i : Nat) : Bool :=
  match (s.fw i).alm with
  | some a => almOk a s.sec.ownerKey s.sec.rollback && !(s.fw i).trialFailed
  | none => false

/-- SEQ of a slot's Almanac, 0 where it does not verify (R369). -/
def slotSeq (s : State) (i : Nat) : Nat :=
  match (s.fw i).alm with
  | some a => if almSigned a s.sec.ownerKey then a.seq else 0
  | none => 0

/-- The slot R362 selects: 0 A, 1 B, none for recovery. -/
def selectSlot (s : State) : Option Nat :=
  if slotOk s 0 && slotOk s 1 then some (if slotSeq s 0 < slotSeq s 1 then 1 else 0)
  else if slotOk s 0 then some 0
  else if slotOk s 1 then some 1
  else none

/-! ### Staging (R381-R384) -/

def setStage (s : State) (n : Nat) : State := { s with sec := { s.sec with stage := n } }

/-- Erase a slot: its TRIAL_FAILED goes with it (R363). -/
def eraseSlot (s : State) (i : Nat) : State := s.setFw i {}

/-- Open a session on a slot: `stage` 1 by FW_STAGE, 2 by PLDM. -/
def stageOpen (s : State) (i stage : Nat) : State :=
  let s := eraseSlot s i
  { s with sec := { s.sec with stage := stage, slot := i, written := [] } }

/-- Whether bytes of the session were written before. -/
def stageWritten (s : State) (off len : Nat) : Bool :=
  s.sec.written.any fun r => decide (r.1 < off + len) && decide (off < r.1 + r.2)

def stageWrite (s : State) (off : Nat) (bs : List Byte) : State :=
  let x := s.fw s.sec.slot
  let s := s.setFw s.sec.slot { x with cells := Memory.writeN x.cells off bs }
  { s with sec := { s.sec with written := s.sec.written ++ [(off, bs.length)] } }

/-- Verify the staged slot: COMMITTED, or erased (R382); whether it passed. A COMMIT that fails still erases the slot, as R382
says, though R13 gives class 0x01 no effect (DEDUCED, log entry 155). -/
def stageCommit (s : State) : State × Bool :=
  let i := s.sec.slot
  let x := s.fw i
  match Config.parseAlmanac x.cells with
  | some a =>
    if almOk a s.sec.almOwner s.sec.rollback then
      (setStage (extend (s.setFw i { x with alm := some a, trialFailed := false }) 6 (Config.slotPart 0 x.cells)) 3, true)
    else (setStage (eraseSlot s i) 0, false)
  | none => (setStage (eraseSlot s i) 0, false)

def stageCancel (s : State) : State := setStage (eraseSlot s s.sec.slot) 0

/-- Whether RATIFY may be set (R382). -/
def ratifyOk (s : State) : Bool :=
  s.boot.slot ≠ 2 && decide (s.sec.rollback < s.boot.alm.rollback) && decide (s.boot.alm.rollback ≤ Config.recoveryRollback)

/-- ASCII bytes. -/
def ascii (t : String) : List Byte := t.toList.map fun c => BitVec.ofNat 8 c.toNat

def idDigest : BitVec 512 := Config.shake256 Config.identityKey

/-- Whether an enrolment record may be stored (R384): 57 bytes of key, then its signature. -/
def enrollOk (s : State) (rec : List Byte) : Bool :=
  let k := rec.take 57
  !s.sec.ownerSet && Config.verify k (ascii "QSM9610-OWNER") (k ++ digestBytes idDigest) (rec.drop 57)

/-! ### ATTEST (R377-R379) -/

/-- Place fields (offset, size, value) in a page of zeros. -/
def pageBytes (size : Nat) (fs : List (Nat × Nat × Nat)) : List Byte :=
  Memory.readN (fs.foldl (fun m f => Memory.writeLe m f.1 f.2.1 f.2.2) []) 0 size

/-- Bytes 0 to 895 of the report (R379), with the Meridian read at signing. -/
def reportBody (s : State) (mer : Word) (nonce : List Byte) : List Byte :=
  pageBytes 896 ([
    (0, 1, 1),
    (1, 1, b2n s.sec.ownerSet + 2 * b2n s.sec.jtagEn + 4 * b2n (s.boot.slot = 2) + 8 * b2n s.degraded +
      16 * b2n s.boot.warm),
    (4, 4, 1024), (8, 8, mer.toNat), (16, 2, s.fab.id + 2 ^ 15 * b2n s.fab.idValid), (18, 2, 0x9610),
    (20, 1, s.sec.rollback), (21, 1, s.boot.slot), (22, 2, s.boot.combo), (24, 4, s.boot.starts),
    (32, 32, leNat (nonce.take 32)), (64, 64, s.boot.digest.toNat), (128, 64, idDigest.toNat)] ++
    (List.range 8).map fun r => (192 + 64 * r, 64, (tget (0 : BitVec 512) s.sec.meas r).toNat))

/-- The signed report (R379). -/
def report (s : State) (nonce : List Byte) : State × List Byte :=
  let (s, m) := readMer s 0
  let b := reportBody s m nonce
  (s, b ++ (Config.sign (ascii "QSM9610-ATTEST" ++ b) ++ List.replicate 128 0).take 114 ++ leBytes 14 0)

/-- PART 1 of ATTEST (R379): the certificate chain, the identity certificate first. -/
def chainBytes : List Byte :=
  let body := (List.range 3).flatMap fun i => leBytes 4 (Config.cert i).length ++ Config.cert i
  leBytes 1 1 ++ leBytes 1 3 ++ leBytes 2 0 ++ leBytes 4 (8 + body.length) ++ body

end Sys2Proof.Machine
end

