-- ==== Sys2Proof/Machine/Query.lean ====
section
/-! DEFINITION. The pages of QUERY (R251, R326, R368, R369). -/

namespace Sys2Proof.Machine

/-- Bit n is 1 where `f n` holds, for n below `k`. -/
def bitmap (k : Nat) (f : Nat → Bool) : Nat := (List.range k).foldl (fun a n => a + (if f n then 2 ^ n else 0)) 0

/-- Exposed banks of an FB in service. -/
def banksUp (s : State) (fb : Nat) : Nat := if s.iso fb || !fbUp s fb then 0 else 64 - absentBanks s fb

/-- Channels of a state, in key order: quadrant and channel index. -/
def chansIn (s : State) (st : Nat) : List (Nat × Nat) :=
  (s.dram.chans.filter fun e => e.2.state = st).map fun e => (e.1 / 64, e.1 % 64)

/-- Page 0: the module summary (R251). -/
def page0 (s : State) : List Byte :=
  pageBytes 4096 ([(0, 1, 1), (1, 1, b2n s.degraded + 2 * b2n s.host.armed), (2, 2, s.fab.id), (4, 2, coresUp s),
    (6, 2, s.scAdmitted.toNat), (12, 2, (chansIn s 3).length), (14, 2, (chansIn s 1).length),
    (16, 1, (linksUp s).length)] ++ (List.range 4).map fun q => (8 + q, 1, banksUp s q))

/-- Page 1: the compute inventory (R368). -/
def page1 (s : State) : List Byte :=
  let sc (j : Nat) : List (Nat × Nat × Nat) :=
    let d : ScDie := tget {} s.die.scs j
    let bad (l : List TitheUnit) : Nat := (l.filter fun u => u.kind = 1 && u.die = j).length
    let soft := (s.boot.soft.filter fun u => !u.fuseOnly).map (·.unit)
    [(128 + 16 * j, 1, d.st + 16 * d.gen), (130 + 16 * j, 2, if s.scAdmitted.getLsbD j then scCores s j else 0),
     (132 + 16 * j, 2, bad s.boot.fuse), (134 + 16 * j, 2, bad soft),
     (136 + 16 * j, 2, 16 - bad s.boot.disabled)]
  let fb (q : Nat) : List (Nat × Nat × Nat) :=
    let bs := (s.dram.banks.filter fun e => e.1 / 64 = q && !absentBank e.2).map (·.2)
    [(384 + 16 * q, 1, b2n (fbUp s q)), (385 + 16 * q, 1, banksUp s q), (386 + 16 * q, 1, absentBanks s q),
     (387 + 16 * q, 1, (bs.filter (·.degraded)).length),
     (388 + 16 * q, 2, (bs.map fun b => 16 - goodWays b).foldl (· + ·) 0)]
  pageBytes 4096 ([(0, 1, 1), (1, 1, b2n s.degraded), (2, 2, coresUp s), (64, 64, s.boot.digest.toNat),
    (512, 512, bitmap 4096 (inService s))] ++ (List.range 16).flatMap sc ++ (List.range 4).flatMap fb)

/-- Page 2: memory channels RETIRED or STEPPED (R251). DEDUCED: log entry 129. -/
def page2 (s : State) : List Byte :=
  let es := s.dram.chans.filter fun e => e.2.state = 1 || e.2.state = 3
  pageBytes 4096 ((0, 2, es.length) ::
    (List.range es.length).flatMap fun i =>
      match es[i]? with
      | some e => [(8 + 2 * i, 1, e.1 % 64), (9 + 2 * i, 1, e.1 / 64 + 4 * b2n (e.2.state = 3))]
      | none => [])

/-- Page 3: fabric links (R326). -/
def page3 (s : State) : List Byte :=
  pageBytes 4096 ([(0, 1, 1), (2, 2, s.fab.id + 2 ^ 15 * b2n s.fab.idValid), (4, 1, (linksUp s).length),
    (5, 1, bitmap 4 fun q => (s.lantern q).admitted)] ++
    (List.range 96).flatMap fun n =>
      let k := s.flink n
      [(64 + 8 * n, 1, k.st + 16 * (if k.st = 3 then k.width else 0)), (65 + 8 * n, 1, if k.st = 3 then k.good.toNat else 0),
       (66 + 8 * n, 2, k.partner), (68 + 8 * n, 1, k.partnerLink), (69 + 8 * n, 3, k.retrains)])

/-- Page 4: firmware and the Almanac (R369). -/
def page4 (s : State) : List Byte :=
  let im := s.boot.alm.images.take 32
  pageBytes 4096 ([(0, 1, 1), (1, 1, s.boot.slot + 4 * b2n s.boot.warm), (4, 4, slotSeq s 0), (8, 4, slotSeq s 1),
    (12, 1, b2n (slotOk s 0) + 2 * b2n (slotOk s 1) + 4 * b2n (s.fw 0).trialFailed + 8 * b2n (s.fw 1).trialFailed),
    (13, 1, s.sec.rollback), (14, 2, s.boot.combo), (16, 1, im.length)] ++
    (List.range im.length).flatMap fun i =>
      match im[i]? with
      | some e => [(64 + 16 * i, 1, e.1), (65 + 16 * i, 1, e.2.1), (68 + 16 * i, 6, e.2.2)]
      | none => [])

/-- A page of QUERY. -/
def queryPage (s : State) (p : Nat) : List Byte :=
  match p with
  | 0 => page0 s
  | 1 => page1 s
  | 2 => page2 s
  | 3 => page3 s
  | _ => page4 s

end Sys2Proof.Machine
end

