-- ==== Sys2Proof/Machine/Jobs.lean ====
section
/-! DEFINITION. What waits on a translation goes on or fails: the accesses of R220, the answers of R225, the work of
a context that ends (R203), and invalidations (R217-R219). -/

namespace Sys2Proof.Machine

/-! ### What a command still has to do (R247-R251, R378, R381) -/

/-- ATTEST's bytes (R378, R379). -/
def attestBytes (s : State) (part : Nat) (nonce : List Byte) : State × List Byte :=
  if part = 0 then report s nonce else (s, chainBytes)

/-- The command writes `bs` at `dva` and completes; `ro`: not a SIGNAL, which never carries Relaxed Ordering (R281). -/
def cmdStore (ro : Bool) (s : State) (c : Cmd) (j : CmdJob) (dva : Nat) (bs : List Byte) : State :=
  afterAccess c j (fun s _ ls => settleCmd s c ls) (accessWrite ro s (cmdReq c.ring c.seq c.ctx) dva bs)

/-- SIGNAL with OP = 1 (R249): an atomic at the word's home bank. -/
def cmdAdd (s : State) (c : Cmd) (j : CmdJob) (dva : Nat) (v : Word) : State :=
  afterAccess c j (fun s _ _ => settleCmd s c []) (accessAtom s (cmdReq c.ring c.seq c.ctx) dva 2 v 0)

/-- The command reads `n` bytes at `dva` and goes on with them. -/
def cmdLoad (s : State) (c : Cmd) (j : CmdJob) (dva n : Nat) (go : State → List Byte → State) : State :=
  afterAccess c j (fun s bs _ => go s bs) (accessRead s (cmdReq c.ring c.seq c.ctx) 0 dva n)

/-- Do what a command still has to do. -/
def runJob (s : State) (c : Cmd) (j : CmdJob) : State :=
  match j with
  | .writeInline dst data => cmdStore true s c j dst data
  | .signal op a v => if op = 0 then cmdStore false s c j a (leBytes 8 v.toNat) else cmdAdd s c j a v
  | .wait _ _ _ | .bell _ _ | .budget _ => park s c j
  | .query page dst => cmdStore true s c j dst (queryPage s page)
  | .fence => fenceGo s c
  | .attest part dst _ nonce =>
    let (s, bs) := attestBytes s part nonce
    cmdStore true (s.modCmd c.ring c.seq fun x => { x with addr := bs.length }) c j dst bs
  | .fwWrite off len src => cmdLoad s c j src len fun s bs => finishSt (stageWrite s off bs) c.ring c.seq stDONE 0
  | .release base size =>
    -- peer writes accepted under the region have still to reach their homes (R236)
    if s.dram.parked.any fun p => (match p with
        | .bar2w _ _ _ _ _ a bs => decide (a < base + size) && decide (base < a + bs.length)
        | _ => false) then park s c j
    else finishSt s c.ring c.seq stDONE 0
  | .enroll len src => cmdLoad s c j src len fun s bs =>
      if enrollOk s bs then
        finishSt (extend { s with sec := { s.sec with enroll := some bs } } 6 bs) c.ring c.seq stDONE 0
      else finishSt s c.ring c.seq stBADPARAM 0

/-- A command that waits tries again. -/
def cmdGo (s : State) (ring : Nat) (seq : W32) : State :=
  match s.cmd? ring seq, s.host.parked.find? fun e => e.1 = ring && e.2.1 = seq with
  | some c, some e => runJob s c e.2.2
  | _, _ => s

/-! ### Invalidations begin and end (R217, R218) -/

/-- FBs that are up. -/
def upFbs (s : State) : List Nat := (List.range 4).filter fun q => !s.iso q

/-- An invalidation reaches step 1, or waits for the one that runs. -/
def startInval (s : State) (i : Inval) : State :=
  match s.xlt.inval with
  | none => { s with xlt := { s.xlt with inval := some { i with fbs := upFbs s } } }
  | some _ => { s with xlt := { s.xlt with invalQ := s.xlt.invalQ ++ [i] } }

/-- The final step of a host loss is done once every context that it destroys is FREE and device memory is zero (R256). -/
def settleLoss (s : State) : State :=
  let ours (i : Inval) : Bool := i.destroy && i.who == .host
  if s.host.lossEnds && !s.dram.zeroing && !(s.xlt.inval.any ours) && !(s.xlt.invalQ.any ours) &&
      s.xlt.dying.all (fun e => e.2 != .host) then
    { s with host := { s.host with lossEnds := false, lost := true } }
  else s

/-- An invalidation that has drained ends, and the next begins. -/
def endInval (s : State) (i : Inval) : State :=
  let s := { s with xlt := { s.xlt with inval := none } }
  let s := if i.destroy && (s.ctx i.ctx).closing then s.setCtx i.ctx {} else s
  let s := match i.who with
    | .cmd r q => finishSt s r q stDONE 0
    | .host => s
  settleLoss (match s.xlt.invalQ with
  | [] => s
  | j :: js => startInval { s with xlt := { s.xlt with invalQ := js } } j)

/-! ### Launches (R248) -/

def State.launch? (s : State) (ring : Nat) (seq : W32) : Option Launch :=
  s.host.launches.find? fun l => l.ring = ring && l.seq = seq

def State.modLaunch (s : State) (ring : Nat) (seq : W32) (f : Launch → Launch) : State :=
  { s with host := { s.host with
      launches := replaceFirst (fun l => l.ring = ring && l.seq = seq) f s.host.launches } }

/-- A core's image read fails: a fault of thread 0 of that core, which starts none of its threads (R248). -/
def imageFail (s : State) (n cause status addr : Nat) : State :=
  match (s.core n).launch with
  | none => s
  | some (r, q) => s.modLaunch r q fun l => { l with
      waiting := l.waiting.filter (· ≠ n), taken := if l.taken.contains n then l.taken else l.taken ++ [n],
      faults := l.faults ++ [⟨n, 0, cause, status, 0, addr, false⟩] }

/-- The fault that a completion reports: of the lowest core and there of the lowest thread. -/
def lowestFault (fs : List LFault) : Option LFault :=
  fs.foldl (fun b f =>
    match b with
    | none => some f
    | some g => if f.core < g.core ∨ (f.core = g.core ∧ f.thread < g.thread) then some f else b) none

/-- A thread without work: OFF, its registers kept. -/
def Thread.clear (x : Thread) : Thread :=
  { x with
    st := .off, wait := .nothing, prev := .off, prevWait := .nothing, blk := none, answer := none,
    holdReq := false, dfr := none }

/-- The monitor releases every tile that kernel threads own (R58). DEDUCED: log entry 166. -/
def releaseTiles (c : Core) : Core :=
  (tkeys c.tiles).foldl (fun c k =>
    let x := c.tile k
    if x.owner.any fun t => t ≠ 0 then c.setTile k { x with owner := none, releasing := none } else c) c

/-- Kernel threads 1 to 15 of a core end, with their operations; the core runs no launch. -/
def clearCore (s : State) (n : Nat) : State :=
  let ops := (s.core n).aops.filter fun o => o.t ≠ 0
  let s := ops.foldl (fun s o => forget s (.aop n o.id)) s
  let s := (List.range 15).foldl (fun s i => forget s (.thread n (i + 1))) (forget s (.image n))
  let s := dropZlr s fun w => match w with
    | .thread m t => m = n && t != 0
    | .aop m id => m = n && ops.any fun o => o.id = id
    | _ => false
  let ring := (s.core n).launch.map (·.1)
  let s := setReqs s (s.fab.reqs.map fun r => if r.n = n && r.t != 0 then { r with dead := true, ring := ring } else r)
  s.modCore n fun c =>
    let c := releaseTiles (ops.foldl (fun c o => dropOp c o.id) c)
    { c with
      thr := (List.range 15).foldl (fun tb i => tset {} tb (i + 1) (tget {} tb (i + 1) : Thread).clear) c.thr
      arrived := [], launch := none }

/-! ### An access goes on, or ends (R220, R225) -/

/-- The requester of an agent's access. -/
def agentReq (s : State) (ctx : Nat) (a : Agent) : Req :=
  match a with
  | .thread n _ | .aop n _ | .image n => ⟨coreFb n, corePort n, ctx, a⟩
  | .chunk fb car _ _ | .carFlag fb car _ => ⟨fb, 256 + car, ctx, a⟩
  | .cmd r _ => ⟨r / 16, 300, ctx, a⟩
  | .mill g =>
    let root := ((s.group g).desc.map (·.root)).getD 0
    ⟨routerFb root, 320 + routerLocal root, ctx, a⟩

/-- An access that waited looks up its translation again. -/
def agentGo (s : State) (a : Agent) : State :=
  match a with
  | .thread n t =>
    let x := s.thr n t
    if x.st = .held then
      if x.prev = .xltWait then s.modThr n t fun x => { x with answer := some true } else s
    else replayThread s n t
  | .aop n id =>
    match (s.core n).aops.find? fun o => o.id = id with
    | none => s
    | some o =>
      match o.kind with
      | .pref v => prefetch (s.modCore n fun c => dropOp c id) n o.t v false
      | _ => modOp s n id fun x => if x.stage = 2 then { x with stage := 0 } else x
  | .chunk fb car sl _ | .carFlag fb car sl => carPump (carResume s fb car sl) fb car
  | .cmd r q => cmdGo s r q
  | .mill g =>
    let x := s.group g
    match x.desc, x.depWait with
    | some d, some m => pump (depositChunk s g d m) g
    | _, _ => s
  | .image _ => s

/-- An access ends without its effect: an ABORT, or an entry that cannot be read (R210, R225). -/
def agentEnd (s : State) (w : Waiter) (cause status addr : Nat) : State :=
  match w.agent with
  | .thread n t =>
    let x := s.thr n t
    if x.st = .held then
      if x.prev = .xltWait then s.modThr n t fun x => { x with answer := some false } else s
    else if x.st = .off ∨ x.st = .faulted then s
    else takeFault s n t cause status (BitVec.ofNat 64 addr)
  | .aop n id =>
    match (s.core n).aops.find? fun o => o.id = id with
    | none => s
    | some o =>
      match o.kind with
      | .pref _ => s.modCore n fun c => dropOp c id
      | _ => failOp s n o cause status addr
  | .chunk fb car sl k => carPump (carFail s fb car sl ⟨k, status, addr, decide (w.acc = 1), false⟩) fb car
  | .carFlag fb car sl =>
    let c := s.slot fb car sl
    match c.job with
    | none => s
    | some j => carPump (carFail s fb car sl ⟨c.delivered j, status, addr, true, true⟩) fb car
  | .cmd r q => finishSt s r q status addr
  | .mill g => breakGroup s g status 0
  | .image n => imageFail s n cause status addr

/-- Answer faults (R225): they are unanswered no longer, and every access that joined them goes on or ends. -/
def answerFaults (s : State) (p : XFault → Bool) (resume : Bool) : State :=
  let fs := s.xlt.faults.filter p
  let s := { s with xlt := { s.xlt with
    faults := s.xlt.faults.filter fun f => !p f
    fq := s.xlt.fq.filter fun i => !(fs.any fun f => f.id = i)
    rewrite := s.xlt.rewrite.filter fun i => !(fs.any fun f => f.id = i) } }
  let s := fs.foldl (fun s f => f.joined.foldl (fun s w =>
    if resume then agentGo s w.agent else agentEnd s w cABORTED stABORTED w.dva) s) s
  -- entries have freed: the engines that wait offer their records again (R224)
  let off := s.xlt.offered
  off.foldl offerFault { s with xlt := { s.xlt with offered := [] } }

/-- Deposits that were held go on. -/
def retryDeposits (s : State) : State :=
  (tkeys s.mil.groups).foldl (fun s g =>
    if (s.group g).depWait.isSome && !agentWaits s (.mill g) then agentGo s (.mill g) else s) s

/-- Accesses from outside that are held at their homes go on, in the order they came; BAR2 accesses are replayed by their
own row's code, which is given as `bar`. -/
def replayParked (bar : State → Parked → State) (s : State) : State :=
  s.dram.parked.foldl (fun s p => match p with
    | .fabric l vis q => serveAt s l vis q
    | p => bar s p) { s with dram := { s.dram with parked := [] } }

/-- Accesses held at a home go on: those of cores, of other modules, of commands and Carters, of deposits (R122, R142,
R149). -/
def replayHeld (bar : State → Parked → State) (s : State) : State :=
  let s := replayParked bar (replayAll s)
  let s := s.host.parked.foldl (fun s e => if agentWaits s (.cmd e.1 e.2.1) then s else cmdGo s e.1 e.2.1) s
  retryDeposits (carPumpAll s)

/-! ### Groups end (R200) -/

/-- Whether a group has a data or Bell sequence that has begun and not been delivered to every member. -/
def groupBusy (s : State) (gi : Nat) : Bool :=
  let g := s.group gi
  !g.waits.isEmpty || !(groupThreads s gi).isEmpty || !g.fin.isEmpty || !g.fbells.isEmpty || !g.fout.isEmpty ||
  (match g.desc with
   | none => false
   | some d => d.members.any fun n => tget 0 g.mseq n != g.nextSeq || tget 0 g.bseq n != g.nextBell)

/-- Destroy a group: its unfinished sequences are discarded, and its waiting threads take a deferred ILLEGAL fault. -/
def destroyGroup (s : State) (gi : Nat) : State :=
  let s := failWaits (forget s (.mill gi)) gi cILLEGAL 0
  bellCheck { (s.setGroup gi {}) with mil := { (s.setGroup gi {}).mil with
      flight := s.mil.flight.filter fun f => f.m.group ≠ gi } } gi

def destroyGroups (s : State) (ctx : Nat) : State :=
  (s.mil.groups.filter fun e => e.2.state ≠ 0 && e.2.ctx = ctx).foldl (fun s e => destroyGroup s e.1) s

/-! ### Invalidations (R217-R219) -/

/-- Step 5: once every port has drained, a zero-length read on each link that carried HOST-kind writes of the old epoch;
on a lost link it counts as completed. -/
def advanceInval (s : State) : State :=
  match s.xlt.inval with
  | none => s
  | some i =>
    if !i.fbs.isEmpty || !i.ports.isEmpty || !i.links.isEmpty then s
    else
      let ls := zlrLinks s (addLinks [] s.xlt.hostW)
      let s := { s with xlt := { s.xlt with hostW := [] } }
      if ls.isEmpty then endInval s i
      else issueZlr { s with xlt := { s.xlt with inval := some { i with links := ls } } } .inval ls

/-- Whether a translation lies in an invalidation's scope (R216). -/
def Inval.covers (i : Inval) (k : XKey) : Bool :=
  k.ctx = i.ctx && (i.scope = 2 || (k.seg = i.seg &&
    (i.scope = 1 || (decide (i.first ≤ k.page) && decide (k.page < i.first + i.count)))))

/-- Accesses in flight at the requester ports of an FB (R217 step 4): outbound reads, chunks of Carters, and what homes
and links hold. -/
def inFlight (s : State) (fb : Nat) : List (Nat × Nat × Nat × Nat) :=
  (s.host.links.flatMap fun e => e.2.reads.filterMap fun r =>
    let q := agentReq s 0 r.who
    if q.fb = fb && r.got.isNone then some (fb, q.port, e.1, r.addr) else none) ++
  (s.car.slots.flatMap fun e =>
    if e.1 / 48 = fb then
      (e.2.pend.map (·.k) ++ e.2.reads.map (·.k)).map fun k => (fb, 256 + e.1 % 48 / 4, 100 + e.1 % 4, k)
    else []) ++
  (s.xlt.atHome.filterMap fun h =>
    let q := agentReq s 0 h.agent
    if q.fb = fb then some (fb, q.port, 200 + h.acc, h.dva) else none)

/-- No repeats, in order, of pairs. -/
def addPairs (a b : List (Nat × Nat)) : List (Nat × Nat) := b.foldl (fun xs x => if xs.contains x then xs else xs ++ [x]) a

/-- Runs of chunks of an FB's Carters that have translated and not issued look up again. -/
def relook (s : State) (fb ctx : Nat) : State :=
  let mine (k : Nat) (c : CarSlot) : Bool := k / 48 = fb && c.job.any fun j => j.ctx = ctx
  { s with car := { s.car with
    slots := s.car.slots.map fun e => if mine e.1 e.2 then (e.1, { e.2 with src := [], dst := [] }) else e } }

/-- Steps 2 and 3 in one FB: matching entries are dropped, matching walks that run are stopped; a stopped walk's accesses
look up again. -/
def invalFb (s : State) (i : Inval) (fb : Nat) : State :=
  let old := inFlight s fb
  let mine (w : Walk) : Bool := w.fb = fb && w.stage = 1 && i.covers w.key
  let ws := s.xlt.walks.filter mine
  let s := { s with xlt := { s.xlt with
    l1 := (tkeys s.xlt.l1).foldl (fun t k =>
      if k / 512 = fb then tmod [] t k fun es => es.filter fun e => !i.covers e.key else t) s.xlt.l1
    l2 := (tkeys s.xlt.l2).foldl (fun t k =>
      if k / 4096 = fb then tmod none t k fun e => e.filter fun x => !i.covers x.key else t) s.xlt.l2
    walks := s.xlt.walks.filter fun w => !mine w
    inval := some { i with
      fbs := i.fbs.filter (· ≠ fb)
      old := i.old ++ old
      ports := addPairs i.ports (old.map fun e => (e.1, e.2.1)) } } }
  let s := walkNext (relook s fb i.ctx) fb
  let s := ws.foldl (fun s w => w.waiters.foldl (fun s x => agentGo s x.agent) s) s
  advanceInval s

/-! ### Contexts end (R203, R256) -/

/-- Accesses of a context whose fault record waits for an entry of the queue end as answered ABORT (R203, R224).
DEDUCED: log entry 107. -/
def abortOffered (s : State) (ctx : Nat) : State :=
  let fs := s.xlt.offered.filter fun f => f.ctx = ctx
  let s := { s with xlt := { s.xlt with offered := s.xlt.offered.filter fun f => f.ctx ≠ ctx } }
  fs.foldl (fun s f => f.joined.foldl (fun s w => agentEnd s w cABORTED stABORTED w.dva) s) s

/-- Step 1 and the start of step 2 of R203: faults answered ABORT, kernels told to stop, groups destroyed. -/
def endWork (s : State) (ctx : Nat) : State :=
  let s := s.setCtx ctx { (s.ctx ctx) with closing := true }
  let s := answerFaults (abortOffered s ctx) (fun f => f.ctx = ctx) false
  let s := { s with host := { s.host with
    launches := s.host.launches.map fun l => if l.ctx = ctx then { l with stopped := true } else l } }
  destroyGroups s ctx

/-- Step 3, once no kernel of the context runs: every segment goes, and the context's translations are invalidated. The
invalidation of the first that asked leaves the context FREE. -/
def destroyGo (s : State) (ctx : Nat) (who : InvFor) : State :=
  let s := (List.range 16).foldl (fun s i => s.setSeg ctx i none) s
  let first := !((s.xlt.inval.toList ++ s.xlt.invalQ).any fun i => i.destroy && i.ctx = ctx)
  startInval s ⟨who, ctx, 2, 0, 0, 0, [], [], [], first, []⟩

/-- Contexts whose last kernel has stopped go on to step 3. -/
def dyingCheck (s : State) : State :=
  s.xlt.dying.foldl (fun s e =>
    if s.host.launches.any fun l => l.ctx = e.1 then s
    else destroyGo { s with xlt := { s.xlt with dying := removeOne e s.xlt.dying } } e.1 e.2) s

/-- CTX_DESTROY (R203). DEDUCED: log entry 169. -/
def destroyCtx (s : State) (ctx : Nat) (who : InvFor) : State :=
  let s := endWork s ctx
  dyingCheck { s with xlt := { s.xlt with dying := s.xlt.dying ++ [(ctx, who)] } }

/-- A launch completes with a status, or with its faults' (R248, R252). DEDUCED: log entry 127. -/
def launchDone (s : State) (l : Launch) (status : Option Nat) : State :=
  let r := s.ring l.ring
  let s := s.setRing l.ring { r with
    hostLinks := l.taken.foldl (fun ls n => (s.core n).thr.foldl (fun ls e => addLinks ls e.2.hostLinks) ls) r.hostLinks }
  let s := (l.taken ++ l.waiting).foldl (fun s n =>
    if (s.core n).launch = some (l.ring, l.seq) then clearCore s n else s) s
  let s := { s with host := { s.host with
    launches := s.host.launches.filter fun x => !(x.ring = l.ring && x.seq = l.seq) } }
  let stop := 2 ^ 25 * b2n l.stopped
  dyingCheck (match lowestFault l.faults with
  | some f => finish s l.ring l.seq (status.getD f.status) f.pc
      (f.core + 2 ^ 12 * f.thread + 2 ^ 16 * f.cause + 2 ^ 24 + stop + 2 ^ 26 * b2n f.monitor) f.addr
  | none => finish s l.ring l.seq (status.getD stDONE) 0 stop 0)

end Sys2Proof.Machine
end

