-- ==== Sys2Proof/Machine/Ras.lean ====
section
/-! DEFINITION. Errors of the Granary and of device memory: correction, counting, way disabling, row repair, retrains
(R126-R130, R138-R150). -/

namespace Sys2Proof.Machine

/-! ### Windows (R126) -/

/-- The Meridian window of an FB's copy: the value's bits [63:40]. -/
def windowOf (s : State) (fb : Nat) : Nat := (tget (0 : BitVec 96) s.mer.acc fb).toNat / 2 ^ 72

/-- Counts of a window that has passed return to zero. -/
def rollWindow (s : State) (fb : Nat) : State :=
  let w := windowOf s fb
  if w = s.dram.window then s
  else { s with dram := { s.dram with
    window := w, rowCe := []
    banks := (tkeys s.dram.banks).foldl (fun t k => tmod {} t k fun b => { b with ce := [] }) s.dram.banks
    chans := (tkeys s.dram.chans).foldl (fun t k =>
      tmod {} t k fun c => { c with ce := 0, laneErr := 0 }) s.dram.chans } }

/-! ### Granary ways (R126-R130) -/

def physBank (s : State) (fb b : Nat) : Nat := (s.bank fb b).phys.getD b

def wayUnit (s : State) (fb b w : Nat) : TitheUnit := ⟨3, fb, physBank s fb b + 256 * w⟩
def bankUnit (s : State) (fb b : Nat) : TitheUnit := ⟨2, fb, physBank s fb b⟩

/-- Write back and invalidate every line of a way of a bank. -/
def clearWay (s : State) (fb b w : Nat) : State :=
  (s.dram.lines.filter fun e => homeQ (256 * e.1) = fb && devBank (256 * e.1) = b && e.2.way = w).foldl
    (fun s e => evict s e.1) s

/-- A logical scratch way has no physical way left (R129): it is UNBACKED, which stands for all of its LOST lines. -/
def unbackWay (s : State) (fb b u : Nat) : State :=
  let s := { s with dram := { s.dram with lost := s.dram.lost.filter fun e => !inScrWay fb b u (256 * e.1) } }
  let x := s.bank fb b
  ev (s.setBank fb b { x with scr := tdel x.scr u, unbacked := if x.unbacked.contains u then x.unbacked else insertBy (· ≤ ·) u x.unbacked })
    0x0303 fb 0x07 b b u

/-- Give logical scratch way `u` the lowest good cache way of the bank; none left: UNBACKED. -/
def backWay (s : State) (fb b u : Nat) : State :=
  match cacheWays (s.bank fb b) with
  | [] => unbackWay s fb b u
  | w :: _ =>
    let s := clearWay s fb b w
    let x := s.bank fb b
    s.setBank fb b { x with scr := tput x.scr u w }

/-- Disable a way (R129, R130): cause 1 correctable, 2 uncorrectable. -/
def disableWay (s : State) (fb b w cause : Nat) : State :=
  if (s.bank fb b).disabled.getLsbD w then s
  else
    let s := clearWay s fb b w
    let x := s.bank fb b
    let s := s.setBank fb b { x with disabled := x.disabled ||| BitVec.ofNat 16 (2 ^ w) }
    let s := match x.scr.find? fun e => e.2 = w with
      | none => s
      | some e =>
        let y := s.bank fb b
        backWay (s.setBank fb b { y with scr := tdel y.scr e.1 }) fb b e.1
    let s := newlyBad (ev s 0x0301 fb 0x07 b w cause) (wayUnit s fb b w)
    let x := s.bank fb b
    if !x.degraded && decide (goodWays x < 12) then
      newlyBad (ev (s.setBank fb b { x with degraded := true }) 0x0302 fb 0x07 b b (goodWays x)) (bankUnit s fb b)
    else s

/-- Where a line stands whose loss would lose data: a dirty cache line, or a scratch line that is not LOST: FB, bank, way. -/
def dataWay (s : State) (line : Nat) : Option (Nat × Nat × Nat) :=
  let a := 256 * line
  if isScr a then
    let x := s.bank (scrQ a) (scrBank a)
    if !scrBacked s a || x.unbacked.contains (scrWay a) || s.lost line || s.iso (scrQ a) then none
    else some (scrQ a, scrBank a, tget 0 x.scr (scrWay a))
  else
    match s.cline line with
    | some c => if c.dirty && !s.iso (homeQ a) then some (homeQ a, devBank a, c.way) else none
    | none => none

/-- A line that holds data cannot be read: it becomes LOST (R127, R129). -/
def loseLine (s : State) (line fb b a w : Nat) : State :=
  ev ((dropLine s line).setLost line true) 0x0300 fb 0x07 b a w

/-- Lines that a bank reads for itself, for a sweep, a change of use or a disabled way, and finds unreadable: those that hold
data become LOST, and their ways are disabled (R126, R127, R129). DEDUCED: log entry 145. -/
def findBad (s : State) (bad : List Nat) : State :=
  let hit := bad.eraseDups.filterMap fun l => (dataWay s l).map fun w => (l, w)
  let s := hit.foldl (fun s h => loseLine s h.1 h.2.1 h.2.2.1 (256 * h.1) h.2.2.2) s
  hit.foldl (fun s h => disableWay s h.2.1 h.2.2.1 h.2.2.2 2) s

/-- A correctable error of a way: the fourth within one window disables it; lines `bad` of it cannot be read then. -/
def countWay (s : State) (fb b w : Nat) (bad : List Nat) : State :=
  let s := rollWindow s fb
  let x := s.bank fb b
  let n := tget 0 x.ce w + 1
  let s := s.setBank fb b { x with ce := tset 0 x.ce w n }
  if 4 ≤ n then disableWay (findBad s bad) fb b w 1 else s

/-- What the Granary's code says of the line that holds `a`, where the array is read (R126, R127): none, or why the
access fails; `bad`: lines found unreadable while its way is disabled. DEDUCED: log entry 36. -/
def granaryEcc (s : State) (a : Nat) (e : Ecc) (bad : List Nat) : State × Option Fail :=
  let line := a / 256
  let at_ : Option (Nat × Nat × Nat) :=
    if isScr a then dataWay s line
    else if !isDev a || s.iso (homeQ a) || ratHeld s a then none
    else (s.cline line).map fun c => (homeQ a, devBank a, c.way)
  match at_, e with
  | none, _ | _, .ok => (s, none)
  | some (fb, b, w), .corrected => (countWay s fb b w bad, none)
  | some (fb, b, w), .uncorrectable =>
    if (dataWay s line).isSome then
      (disableWay (findBad (loseLine s line fb b a w) bad) fb b w 2, some (.grn a))
    else (disableWay (findBad (dropLine s line) bad) fb b w 2, none)

/-! ### Channels and rows (R138-R143, R149, R150) -/

/-- Stack and channel of the stack of a DPA (R136). -/
def stackOf (a : Nat) : Nat := 2 * homeQ a + chanOf a / 32

/-- An address of a row: its pseudo-channel's burst 0. -/
def rowAddr (r : Nat) : Nat := r / 2 * 4096 + r % 2 * 64

/-- The bank a row lies in: quadrant, channel, H[17:12], pseudo-channel. -/
def rowBank (r : Nat) : Nat × Nat × Nat × Nat :=
  let a := rowAddr r
  (homeQ a, chanOf a, bits (chanOff a) 17 12, r % 2)

/-- Spare rows of a stack's banks: a qualified stack has at least one (R134). -/
def spares (stack : Nat) : Nat := max 1 (Config.spareRows stack)

/-- Rows of a bank already repaired. -/
def repaired (s : State) (b : Nat × Nat × Nat × Nat) : Nat := (s.dram.rowDone.filter fun e => rowBank e.1 = b).length

/-- The soft-record unit of a repaired row (R354, KIND 9). -/
def rowUnit (r : Nat) : TitheUnit :=
  let a := rowAddr r
  let h := chanOff a
  ⟨9, stackOf a, chanOf a % 32 + 2 ^ 8 * (bits h 17 16 + 4 * bits h 13 12 + 16 * bits h 15 14) + 2 ^ 16 * bits h 31 18⟩

/-- A failing row is repaired, or stays in service for want of a spare, which is counted and logged once for the row
(R142). -/
def repairRow (s : State) (a : Nat) : State :=
  let r := rowOf a
  let q := homeQ a
  let running := (s.dram.repairing.filter fun x => rowBank x = rowBank r).length
  if s.dram.repairing.contains r || tget false s.dram.rowFailed r then s
  else if repaired s (rowBank r) + running < spares (stackOf a) then
    { s with dram := { s.dram with repairing := s.dram.repairing ++ [r] } }
  else
    let h := s.hbm q
    let s := { s with dram := { s.dram with rowFailed := tset false s.dram.rowFailed r true } }
    ev (s.setHbm q { h with rowsUnrepaired := satInc (2 ^ 20 - 1) h.rowsUnrepaired }) 0x0311 q 0x08 (chanOf a)
      (rowAddr r) 0

/-- A correctable error of a burst counts in its channel (R139). -/
def countCe (s : State) (a : Nat) : State :=
  let s := rollWindow s (homeQ a)
  let c := s.chan (homeQ a) (chanOf a)
  s.setChan (homeQ a) (chanOf a) { c with ce := satInc 65535 c.ce }

/-- A correctable error of a burst: the third of its row within one window has the row repaired (R139). -/
def countBurst (s : State) (a : Nat) : State :=
  let s := countCe s a
  let n := tget 0 s.dram.rowCe (rowOf a) + 1
  let s := { s with dram := { s.dram with rowCe := tset 0 s.dram.rowCe (rowOf a) n } }
  if 3 ≤ n then repairRow s a else s

/-- Lane errors: 16 within one window retrain the channel (R149). -/
def countLane (s : State) (a : Nat) : State :=
  let q := homeQ a
  let s := rollWindow s q
  let c := s.chan q (chanOf a)
  let n := satInc 255 c.laneErr
  let c := { c with laneErr := n }
  if 16 ≤ n ∧ c.state < 2 then s.setChan q (chanOf a) { c with state := 2, was := c.state }
  else s.setChan q (chanOf a) c

/-- A burst's read is uncorrectable (R141): it fails until the burst is written whole, and its row is repaired. -/
def burstUnc (s : State) (a : Nat) : State :=
  repairRow (countUe (noteUe (s.setBadBurst (a / 64) true) (a / 64 * 64)) a) a

/-- What the controller's codes say of a burst that can be read (R138-R142): none, or why the read fails. -/
def burstEcc (s : State) (a : Nat) (e : Ecc) (laneErr : Bool) : State × Option Fail :=
  let r : State × Option Fail := match e with
    | .ok => (s, none)
    | .corrected => (countBurst s a, none)
    | .uncorrectable => (burstUnc s a, some (.mem (a / 64 * 64)))
  if laneErr then (countLane r.1 a, r.2) else r

/-- A read of an 8-byte word with what the codes say of it: the Granary's where its line is resident or scratch, the
controller's otherwise. -/
def wordRead (s : State) (a : Nat) (e : Ecc) : State × Except Fail Word :=
  let here := isScr a || (s.cline (a / 256)).isSome
  let dead := s.iso (homeFb a) || s.lost (a / 256) || ratHeld s a || burstStops s false (a / 64)
  let (s, f) := if here then granaryEcc s a e []
    else if dead || !isDev a then (s, none) else burstEcc s a e false
  match f with
  | some f => (s, .error f)
  | none =>
    match memRead s a 8 with
    | (s, .error f) => (s, .error f)
    | (s, .ok bs) => (s, .ok (BitVec.ofNat 64 (leNat bs)))

/-! ### BAR2 accesses (R27, R127, R141, R232) -/

/-- The FB whose HST_ block serves a link (R229). -/
def linkFb (l : Nat) : Nat := if l % 2 = 0 then 0 else 3

def setAnswer (s : State) (l : Nat) (r : Resp) : State := s.setLink l { s.link l with answer := r }

/-- An access that reaches a reserved or unbacked DPA: an event names its BAR2 offset (R27). -/
def bar2Event (s : State) (l dpa : Nat) (wr : Bool) : State :=
  ev s 0x0003 (linkFb l) 0x0D l (dpa - (s.link l).bar2) (b2n wr)

/-- Whether an access of a link waits behind what is held: a write as R280 says, a read and a doorbell behind the link's earlier BAR2 writes,
a doorbell behind those of its ring, a window access behind the packet that the window holds (R239, R240). -/
def behind (s : State) (p : Parked) : Bool :=
  let wr (l : Nat) : Bool := s.dram.parked.any fun q => match q with
    | .bar2w k _ _ _ _ _ _ => k = l
    | _ => false
  let ringHeld (r : Nat) : Bool := s.dram.parked.any fun q => match q with
    | .bell _ k _ | .window k _ _ => k = r
    | _ => false
  match p with
  | .fabric _ _ _ | .bar2w _ _ _ _ _ _ _ => s.dram.parked.any p.before
  | .bar2r l _ _ => wr l
  | .bell l r v => wr l || ringHeld r || (v.getLsbD 32 && (s.ring r).window)
  | .window r _ _ => ringHeld r || (s.ring r).window

/-- A BAR2 access at its home, or a doorbell: it waits while device memory is zeroed after a host loss (R152), and
behind what its link holds; a doorbell of a ring that is not enabled is discarded at once (R239). -/
def bar2Do (s : State) (p : Parked) : State :=
  let park (s : State) : State := { s with dram := { s.dram with parked := s.dram.parked ++ [p] } }
  let dead : Bool := match p with
    | .bell _ r _ => !(s.ring r).enable
    | _ => false
  if !dead && (s.dram.zeroing || behind s p) then park s
  else match p with
  | .fabric _ _ _ => s
  | .bell _ r v => ringBell s r v
  | .window r off data => windowWrite s r off data
  | .bar2w l _ _ _ _ dpa data =>
    match memWrite s dpa data with
    | (_, some (.held _)) => park s
    | (s, some (.addr _)) => bar2Event s l dpa true
    | (s, _) => s
  | .bar2r l dpa len =>
    match memRead s dpa len with
    | (_, .error (.held _)) => park s
    | (s, .error (.addr _)) => setAnswer (bar2Event s l dpa false) l (.data (List.replicate len 0))
    | (s, .error f) => setAnswer s l (.fail f.status f.dpa)
    | (s, .ok bs) => setAnswer s l (.data bs)

/-- Whatever is held at a home goes on: write-backs first. -/
def unhold (s : State) : State := replayHeld bar2Do (settleBacks s)

/-- A ring stops (R245): its command window is free again, and doorbells that wait are discarded and logged.
DEDUCED: log entry 170. -/
def stopRing (s : State) (ring : Nat) : State :=
  let r := s.ring ring
  let bell (p : Parked) : Bool := match p with
    | .bell _ k _ => k = ring
    | _ => false
  let bs := s.dram.parked.filter bell
  let s := s.setRing ring { r with enable := false, window := false }
  let s := bs.foldl bar2Do { s with dram := { s.dram with parked := s.dram.parked.filter fun p => !bell p } }
  if r.window || !bs.isEmpty then replayParked bar2Do s else s

/-! ### The firmware region of device memory (R365, R431) -/

/-- The page arrays of context 0's two segments: every entry VALID. -/
def writeC0Pages (s : State) : State :=
  let m := (List.range 384).foldl (fun m p => Memory.writeLe m (0xBE00000000 + 8 * p) 8 (p * 2 ^ 31 + 1)) s.mem
  { s with mem := Memory.writeLe m 0xBE00000C00 8 (0xF000000000 + 1) }

/-- Drop every cache line of device memory without writing it back, and clear its LOST addresses and bursts; the
arrays read zero (R128, R152, R154). -/
def zeroDevice (s : State) : State :=
  { s with
    mem := Memory.clearRange s.mem 0 memTop
    gmem := []
    dram := { s.dram with
      lines := [], lostBursts := [], badBursts := [], writeBacks := []
      lost := s.dram.lost.filter fun e => !isDev (256 * e.1) } }

/-- Zero scratch but for the firmware region, and clear the LOST lines zeroed (R128, R256). -/
def zeroScratch (s : State) : State :=
  { s with
    mem := Memory.clearRange s.mem (scrBase + 0x400000) scrTop
    dram := { s.dram with lost := s.dram.lost.filter fun e => isDev (256 * e.1) || decide (256 * e.1 < scrBase + 0x400000) } }

end Sys2Proof.Machine
end

