-- ==== Sys2Proof/Machine/XltRows.lean ====
section
/-! DEFINITION. Contexts, segments, invalidations, walks and translation faults: the commands and events of chapter
09. -/

namespace Sys2Proof.Machine

/-! ### Contexts (R202, R203) -/

def ctxNo (c : Nat) : Bool := decide (1 ≤ c) && decide (c ≤ 31)

/-- A link that is trained (R247). -/
def trained (s : State) (l : Nat) : Bool := decide (l < 4) && ((s.link l).up || (s.link l).retraining)

/-- A bitmap as a number. -/
def bitmapOf (l : List Nat) : Nat := l.foldl (fun a i => a ||| 2 ^ i) 0

/-- CTX_CREATE (R202, R247). -/
def execCtxCreate (h : Hdr) (tctx : Nat) (raw : Bool) (link : Nat) (reach : List Nat) (s : State) : Out :=
  command 0x90 h [(1, 1, tctx), (2, 1, b2n raw + 2 * link), (64, 2048, bitmapOf reach)] (fun s => !ctxNo tctx || (s.ctx tctx).state != 0 || !trained s link || reach.any fun m => decide (16383 < m))
    (fun s => finishSt (s.setCtx tctx { state := 1, link := link, raw := raw, reach := reach }) h.ring h.seq stDONE 0) s

/-- CTX_DESTROY (R203); of a FREE context it has no effect (DEDUCED, log entry 61). -/
def execCtxDestroy (h : Hdr) (tctx : Nat) (s : State) : Out :=
  command 0x91 h [(1, 1, tctx)] (fun _ => !ctxNo tctx)
    (fun s => if (s.ctx tctx).state = 0 then finishSt s h.ring h.seq stDONE 0
      else destroyCtx s tctx (.cmd h.ring h.seq)) s

/-! ### Segments (R206, R207, R219) -/

/-- A descriptor's four words in SEG_MAP's parameters (R206). -/
def descWords (d : SegDesc) : List (Nat × Nat × Nat) :=
  [(32, 8, 1 + 2 ^ 8 * (d.kind + 4 * d.page + 16 * b2n d.r + 32 * b2n d.w + 64 * b2n d.x) + 2 ^ 16 * d.port + d.base),
   (40, 8, d.pages), (48, 8, d.array), (56, 8, d.hostOffset.toNat)]

/-- First byte after a segment. -/
def segTop (d : SegDesc) : Nat := d.base + d.pages * pageSize d

/-- The checks of R207 on a descriptor alone. -/
def segBad (d : SegDesc) : Bool :=
  decide (1 < d.kind) || decide (1 < d.page) || decide (2 < d.port) || (d.kind == 1 && d.x) ||
  (d.kind == 0 && d.port != 0) || d.pages == 0 || decide (2 ^ 24 ≤ d.pages) || d.base % 2 ^ 26 != 0 ||
  (d.page == 1 && d.base % 2 ^ 31 != 0) || decide (2 ^ 56 < segTop d) || d.array % 8 != 0 ||
  decide (memTop < d.array + 8 * d.pages)

/-- A range overlaps another segment of the context. -/
def segOverlap (s : State) (ctx : Nat) (d : SegDesc) : Bool :=
  (List.range 16).any fun i => match s.seg ctx i with
    | some e => decide (d.base < segTop e) && decide (e.base < segTop d)
    | none => false

/-- SEG_MAP (R207); a FREE context has no segments (DEDUCED, log entry 61). -/
def execSegMap (h : Hdr) (tctx seg : Nat) (desc : SegDesc) (s : State) : Out :=
  command 0x40 h ([(1, 1, tctx), (2, 1, seg)] ++ descWords desc)
    (fun s => !ctxNo tctx || (s.ctx tctx).state == 0 || (s.ctx tctx).closing || decide (15 < seg) ||
      (s.seg tctx seg).isSome || segBad desc || segOverlap s tctx desc)
    (fun s => finishSt (s.setSeg tctx seg (some desc)) h.ring h.seq stDONE 0) s

/-- SEG_UNMAP (R219): the descriptor goes first, then the segment's translations. -/
def execSegUnmap (h : Hdr) (tctx seg : Nat) (s : State) : Out :=
  command 0x41 h [(1, 1, tctx), (2, 1, seg)] (fun s => !ctxNo tctx || decide (15 < seg) || (s.seg tctx seg).isNone)
    (fun s => startInval (s.setSeg tctx seg none) ⟨.cmd h.ring h.seq, tctx, 1, seg, 0, 0, [], [], [], false, []⟩) s

/-- The checks of R216. -/
def invalBad (s : State) (ctx scope seg first count : Nat) : Bool :=
  ctx == 0 || decide (2 < scope) || decide (15 < seg) ||
  (if scope = 2 then seg != 0 || first != 0 || count != 0
   else match s.seg ctx seg with
    | none => true
    | some d =>
      if scope = 1 then first != 0 || count != 0
      else count == 0 || decide (2 ^ 24 ≤ count) || decide (d.pages < first + count))

/-- XLT_INVAL (R216, R217). -/
def execXltInval (h : Hdr) (scope seg first count : Nat) (s : State) : Out :=
  command 0x42 h [(1, 1, scope), (2, 1, seg), (4, 4, first), (8, 4, count)] (fun s => invalBad s h.ctx scope seg first count)
    (fun s => startInval s ⟨.cmd h.ring h.seq, h.ctx, scope, seg, first, count, [], [], [], false, []⟩) s

/-- INVALIDATION_FLIT (R217, steps 2 and 3 in one FB). -/
def execInvalidationFlit (fb : Nat) (s : State) : Out :=
  match s.xlt.inval with
  | none => .next s -- no invalidation runs
  | some i =>
    if i.fbs.contains fb then .next (invalFb s i fb)
    else .next s -- the FB has taken the invalidation

/-- PORT_EPOCH_DRAINED (R217, step 4). -/
def execPortEpochDrained (fb port : Nat) (s : State) : Out :=
  match s.xlt.inval with
  | none => .next s -- no invalidation runs
  | some i =>
    if i.ports.contains (fb, port) && !(i.old.any fun e => e.1 = fb && e.2.1 = port) then
      .next (advanceInval { s with xlt := { s.xlt with
        inval := some { i with ports := i.ports.filter fun e => e ≠ (fb, port) } } })
    else .next s -- the port has accesses of the old epoch, or has reported

/-! ### Zero-length reads (R276, R217) -/

/-- A thread's access is complete, also while it is HELD. DESIGN CHOICE: log entry 38. -/
def completeAccess (f : Thread → Thread) (x : Thread) : Thread :=
  if x.st = .held then
    { f x with prev := .ready, prevWait := .nothing, blk := none, pc := x.pc + 8 }
  else retire (f x)

/-- Whether a zero-length read for `w` is out on some link. -/
def zlrOut (s : State) (w : ZWho) : Bool := s.host.links.any fun e => e.2.zlr.contains w

/-- What a zero-length read on link `l` was for goes on. -/
def zlrDone (s : State) (l : Nat) (w : ZWho) : State :=
  match w with
  | .thread n t =>
    let x := s.thr n t
    let fence := match (if x.st = .held then x.prevWait else x.wait) with
      | .access => false
      | _ => true
    if fence then wake (s.modThr n t fun x => { x with hostLinks := x.hostLinks.filter (· ≠ l) }) n
    else if zlrOut s w || x.blk.isSome then s
    else s.modThr n t (completeAccess id)
  | .aop n id =>
    match (s.core n).aops.find? fun o => o.id = id with
    | none => s
    | some o => if zlrOut s w then s else countOp s n o 0
  | .cmd r q =>
    let s := s.modCmd r q fun c => { c with links := removeOne l c.links }
    match s.cmd? r q with
    | none => s
    | some c =>
      let s := if c.op = 0x30 then s.setRing r { s.ring r with hostLinks := (s.ring r).hostLinks.filter (· ≠ l) } else s
      if c.links.isEmpty && c.op != 0x20 then doneCmd s r q else s
  | .chunk fb car sl k => if zlrOut s w then s else carVisible s fb car sl k
  | .flag fb car sl =>
    let c := s.slot fb car sl
    s.setSlot fb car sl { c with flagLinks := removeOne l c.flagLinks }
  | .inval =>
    match s.xlt.inval with
    | none => s
    | some i =>
      let i := { i with links := removeOne l i.links }
      let s := { s with xlt := { s.xlt with inval := some i } }
      if i.links.isEmpty then endInval s i else s
  | .mill g q =>
    if zlrOut s w then s
    else
      let x := s.group g
      s.setGroup g { x with depZlr := x.depZlr.filter fun e => e.1 ≠ q }

/-- ZERO_LENGTH_READ_COMPLETE (R217, R276): the oldest on the link. -/
def execZeroLengthReadComplete (link : Nat) (s : State) : Out :=
  let k := s.link link
  match k.zlr with
  | [] => .next s -- no zero-length read is out
  | w :: ws =>
    if k.retraining then .next s -- the link retrains
    else if 768 ≤ tagged k then .next s -- it has no tag yet (R228)
    else .next (zlrDone (retagAll (s.setLink link { k with zlr := ws })) link w)

/-! ### Walks (R210, R212) -/

/-- A well-formed entry enters the shared cache and the first-level cache of each waiting port. -/
def cacheWalk (s : State) (w : Walk) (entry : Nat) : State :=
  w.waiters.foldl (fun s x =>
    let q := agentReq s w.key.ctx x.agent
    l1Insert s q.fb q.port ⟨w.key, entry⟩) (l2Insert s w.fb ⟨w.key, entry⟩)

/-- Whether an access is a PREF, which takes no fault and logs none (R437). -/
def isPref (s : State) (a : Agent) : Bool :=
  match a with
  | .aop n id => (s.core n).aops.any fun o => o.id = id && (match o.kind with | .pref _ => true | _ => false)
  | _ => false

/-- A walk that ends in a translation fault: every access that waits takes it; in context 0, in a context that is
being destroyed or is gone, it is answered ABORT at once (R203, R220). PREF takes none (R437). DEDUCED: log entry
109. -/
def walkFault (s : State) (w : Walk) (d : SegDesc) (cause : Nat) (entry : Word) : State :=
  let c := s.ctx w.key.ctx
  w.waiters.foldl (fun s x =>
    if isPref s x.agent || c.closing || (w.key.ctx ≠ 0 && c.state = 0) then agentEnd s x cABORTED stABORTED x.dva
    else if w.key.ctx = 0 then agentEnd (ctx0Fault s w.fb x.dva cause) x cABORTED stABORTED x.dva
    else raiseFault s (agentReq s w.key.ctx x.agent) x cause w.key.seg w.key.page d.hostOffset entry) s

/-- WALK_COMPLETE (R208-R212): the walk's entry is read at its home and decides. DESIGN CHOICE: log entry 116. -/
def execWalkComplete (fb ctx seg page : Nat) (ecc : Ecc) (s : State) : Out :=
  match s.xlt.walks.find? fun w => w.fb = fb && w.key = ⟨ctx, seg, page⟩ && w.stage = 1 with
  | none => .next s -- no such walk runs
  | some w =>
    let go (s : State) : State := walkNext { s with xlt := { s.xlt with
      walks := s.xlt.walks.filter fun x => !(x.fb = fb && x.key = w.key && x.stage = 1) } } fb
    match s.seg ctx seg with
    | none => .next (w.waiters.foldl (fun s x => agentGo s x.agent) (go s))
    | some d =>
      match wordRead s (d.array + 8 * page) ecc with
      | (_, .error (.held _)) => .next s -- the entry's home holds the read
      | (s, .error f) =>
        let s := if w.waiters.all fun x => isPref s x.agent then go s else ev (go s) 0x0101 fb 0x0C 0 f.dpa ctx
        .next (w.waiters.foldl (fun s x => agentEnd s x f.cause f.cstatus f.dpa) s)
      | (s, .ok e) =>
        if !e.getLsbD 0 then .next (walkFault (go s) w d 2 e)
        else if !pteOk d e.toNat then .next (walkFault (go s) w d 3 e)
        else .next (w.waiters.foldl (fun s x => agentGo s x.agent) (go (cacheWalk s w e.toNat)))

/-! ### Faults (R222-R226) -/

/-- The 64 bytes of a fault record (R222). -/
def XFault.bytes (f : XFault) : List Byte :=
  leBytes 1 (1 + 16 * f.cause) ++ leBytes 1 f.acc ++ leBytes 1 f.ctx ++ leBytes 1 f.seg ++ leBytes 2 f.source ++
  leBytes 2 f.requester ++ leBytes 4 f.id.toNat ++ leBytes 4 f.ringSeq.toNat ++ leBytes 8 f.dva ++
  leBytes 8 f.hostAddr.toNat ++ leBytes 8 f.mer.toNat ++ leBytes 8 f.entry.toNat ++ leBytes 16 0

/-- The engines whose record found the queue full offer it again (R224). -/
def reoffer (s : State) : State :=
  s.xlt.offered.foldl offerFault { s with xlt := { s.xlt with offered := [] } }

/-- FAULT_IDs whose records go to the ring, in order: those to be written again, then the queue's (R226). -/
def faultNext (s : State) : List W32 := s.xlt.rewrite ++ s.xlt.fq

/-- The first record has gone. -/
def faultTaken (s : State) : State :=
  if s.xlt.rewrite.isEmpty then reoffer { s with xlt := { s.xlt with fq := s.xlt.fq.drop 1 } }
  else { s with xlt := { s.xlt with rewrite := s.xlt.rewrite.drop 1 } }

/-- Write the first record, or note that its write is refused (R223, R436). -/
def faultWrite (s : State) : State :=
  let g := s.xlt.ring
  match (faultNext s).head?.bind fun i => s.xlt.faults.find? fun f => f.id = i with
  | none => faultTaken s
  | some f =>
    let a := g.addr 6 64
    if linkTakes (s.link g.link) a 64 then
      let s := { s with xlt := { s.xlt with ring := { g with tail := g.tail + 1, refused := false } } }
      raiseMsix (faultTaken (hostWrite s g.link false a f.bytes)) g.link g.vector
    else if g.refused then s
    else ev { s with xlt := { s.xlt with ring := { g with refused := true } } } 0x0007 0 0x0C 0 a 1

/-- FAULT_RING_WRITE (R223, R436). -/
def execFaultRingWrite (s : State) : Out :=
  if s.xlt.ring.enable && !s.xlt.ring.full 6 && !(faultNext s).isEmpty then .next (faultWrite s)
  else .next s -- no record can go to the ring

/-- The records of the unanswered faults that `p` picks and no queue holds are to be written again (R226, R257). -/
def rewriteFaults (s : State) (p : XFault → Bool) : State :=
  let ids := (s.xlt.faults.filter fun f => p f && !(faultNext s).contains f.id).map (·.id)
  { s with xlt := { s.xlt with rewrite := s.xlt.rewrite ++ ids } }

/-- XLT_FRING_CFG has been written: ENABLE from 0 to 1 begins the rewrite of every unanswered fault, in FAULT_ID
order. -/
def fringWritten (s : State) (r : RingRegs) : State :=
  let begins := r.enable && !s.xlt.ring.enable
  let s := { s with xlt := { s.xlt with ring := r } }
  if begins then rewriteFaults s fun _ => true else s

/-- Which faults an answer names (R225). -/
def answered? (ctx scope : Nat) (fid : W32) (f : XFault) : Bool := f.ctx = ctx && (scope = 1 || f.id = fid)

def answerBad (s : State) (ctx scope : Nat) (fid : W32) : Bool :=
  decide (1 < scope) || (scope == 1 && fid != 0) || (scope == 0 && !(s.xlt.faults.any (answered? ctx 0 fid)))

/-- FAULT_RESUME (R225). -/
def execFaultResume (h : Hdr) (scope : Nat) (fid : W32) (s : State) : Out :=
  command 0x43 h [(1, 1, 2 * scope), (4, 4, fid.toNat)] (fun s => answerBad s h.ctx scope fid)
    (fun s => finishSt (answerFaults s (answered? h.ctx scope fid) true) h.ring h.seq stDONE 0) s

/-- FAULT_ABORT (R225): FAULT_RESUME with ACTION = 1. -/
def execFaultAbort (h : Hdr) (scope : Nat) (fid : W32) (s : State) : Out :=
  command 0x43 h [(1, 1, 1 + 2 * scope), (4, 4, fid.toNat)] (fun s => answerBad s h.ctx scope fid)
    (fun s => finishSt (answerFaults s (answered? h.ctx scope fid) false) h.ring h.seq stDONE 0) s

/-- FAULT_RING_ENABLE (R223, R226): enabling begins the rewrite of every unanswered fault, in FAULT_ID order. -/
def execFaultRingEnable (v : Word) (s : State) : Out :=
  match s.xlt.ring.enableWrite s false v.toNat with
  | none => .next (regDiscard s (regOff 0 0x0C 0x18) 0 v)
  | some r => .next (fringWritten s r)

/-- FAULT_RING_DISABLE (R223). -/
def execFaultRingDisable (s : State) : Out :=
  .next { s with xlt := { s.xlt with ring := { s.xlt.ring with enable := false } } }

/-- FAULT_RING_HEAD_WRITE (R223). -/
def execFaultRingHeadWrite (v : Word) (s : State) : Out :=
  if s.xlt.ring.headOk 6 (v.setWidth 32) then
    .next { s with xlt := { s.xlt with ring := { s.xlt.ring with head := v.setWidth 32 } } }
  else .next (regDiscard s (regOff 0 0x0C 0x20) 0 v)

end Sys2Proof.Machine
end

