-- ==== Sys2Proof/Machine/HostLoss.lean ====
section
/-! DEFINITION. Host loss, retraining and preservation (R226, R230, R255-R257, R436), and what is retried when a link
can carry writes again. -/

namespace Sys2Proof.Machine

/-! ### Completion records (R252-R254, R436) -/

/-- The 32 bytes of a completion record. -/
def Rec.bytes (r : Rec) (phase : Bool) : List Byte :=
  leBytes 1 1 ++ leBytes 1 r.op ++ leBytes 1 (r.ring + 128 * b2n phase) ++ leBytes 1 0 ++ leBytes 4 r.seq.toNat ++
  leBytes 2 r.status ++ leBytes 2 r.d16 ++ leBytes 4 r.d32 ++ leBytes 8 r.tag.toNat ++ leBytes 8 r.d64

/-- The records of a context whose link has been lost, and of a SUSPENDED context, are held until RECOVER (R256,
R257). DEDUCED: log entry 106. -/
def Rec.suspended (s : State) (r : Rec) : Bool :=
  let c := (s.ring r.ring).ctx
  (s.ctx c).state == 2 || (c != 0 && (s.ctx c).state != 0 && (s.link (s.ctx c).link).loss != 0)

/-- The record a completion ring writes next. -/
def nextRec (s : State) (q : Nat) : Option Rec := (tget [] s.host.held q).find? fun r => !r.suspended s

def CqRing.size (c : CqRing) : Nat := 2 ^ (c.log2 + 7)
def CqRing.full (c : CqRing) : Bool := (c.tail - c.head).toNat == c.size

/-- The record has been written at TAIL: TAIL advances, PHASE alternates at the end of a pass, and the interrupt it
asks for follows. -/
def recDone (s : State) (q : Nat) (r : Rec) : State :=
  let c := s.cq q
  let t := c.tail + 1
  let c := { c with tail := t, phase := if t.toNat % c.size = 0 then !c.phase else c.phase, refused := false }
  let s := (s.setCq q c)
  let s := { s with host := { s.host with held := tset [] s.host.held q (removeOne r (tget [] s.host.held q)) } }
  if r.irq then raiseMsix s c.link c.vector else s

/-- Write a completion ring's next record, or note that its write is refused. -/
def recordWrite (s : State) (q : Nat) : State :=
  let c := s.cq q
  match nextRec s q with
  | none => s
  | some r =>
    let a := c.base + c.tail.toNat % c.size * 32
    if c.loc then
      match memWrite s a (r.bytes c.phase) with
      | (_, some _) => s
      | (s, none) => recDone s q r
    else if linkTakes (s.link c.link) a 32 then
      recDone (hostWrite s c.link false a (r.bytes c.phase)) q r
    else if c.refused then s
    else ev (s.setCq q { c with refused := true }) 0x0007 (q / 16) 0x0E q a (0x100 + q)

/-- Records that a completion ring can write now. -/
def recReady (s : State) (q : Nat) : Bool := (s.cq q).enable && !(s.cq q).full && (nextRec s q).isSome

/-- Refused records of the link, and its pending MSI-X messages, are tried again (R233, R436). -/
def retryLink (s : State) (l : Nat) : State :=
  let g := s.evt.ring
  let s := if g.enable && g.refused && g.link = l && !g.full 7 then eventWrite s else s
  let g := s.xlt.ring
  let s := if g.enable && g.refused && g.link = l && !g.full 6 then faultWrite s else s
  let s := (tkeys s.host.cqs).foldl (fun s q =>
    let c := s.cq q
    if !c.loc && c.refused && c.link = l && recReady s q then recordWrite s q else s) s
  (s.link l).pend.foldl (fun s v => raiseMsix s l v) s

/-! ### Accesses of a lost link -/

/-- DVA an operation of a core works on. -/
def AKind.dva : AKind → Option Nat
  | .cpin _ d _ _ _ _ | .cpout _ d _ _ _ _ _ | .ldqb _ d _ _ | .ifetch _ d _ | .tsave _ d | .tload _ d | .pref d => some d
  | _ => none

/-- DVA of the access a thread waits with. -/
def Thread.blkDva (x : Thread) : Nat :=
  match x.blk with
  | some (.ldg _ _ a _) | some (.stg _ a _ _ _) | some (.atom _ _ a _ _ _ _) | some (.waitg _ a _ _) => (x.rs a).toNat
  | _ => 0

/-- An outbound read ends without its data: lost with its link, or answered Unsupported Request or Completer Abort
(R230, R256). -/
def readFails (s : State) (r : ORead) (cause status : Nat) : State :=
  let s := forget s r.who
  match r.who with
  | .thread n t => takeFault s n t cause status (BitVec.ofNat 64 r.dva)
  | .aop n id =>
    match (s.core n).aops.find? fun o => o.id = id with
    | none => s
    | some o => failOp s n o cause status r.dva
  | .chunk fb car sl k => carPump (carFail s fb car sl ⟨k, status, r.dva, false, false⟩) fb car
  | .cmd ring seq => finishSt s ring seq status r.dva
  | .mill _ | .carFlag _ _ _ => s
  | .image n => imageFail s n cause status r.dva

/-- A zero-length read on a lost link: for an invalidation, a FENCE and a LAUNCH it counts as completed (R217, R256); a
write that waits for it at GLOBAL has failed. -/
def zlrLost (s : State) (l : Nat) (w : ZWho) : State :=
  match w with
  | .inval => zlrDone s l w
  | .thread n t =>
    let x := s.thr n t
    if x.blk.isSome ∨ (if x.st = .held then x.prevWait else x.wait) = .access then
      takeFault s n t cHOST stHOSTLOST (BitVec.ofNat 64 x.blkDva)
    else zlrDone s l w
  | .aop n id =>
    match (s.core n).aops.find? fun o => o.id = id with
    | none => s
    | some o => failOp s n o cHOST stHOSTLOST (o.kind.dva.getD 0)
  | .cmd r q =>
    match s.cmd? r q with
    | some c => if c.op = 0x30 ∨ c.op = 0x20 then zlrDone s l w else finishSt s r q stHOSTLOST 0
    | none => s
  | .mill g _ => breakGroup s g stHOSTLOST 0
  | .chunk fb car sl k => carFail s fb car sl ⟨k, stHOSTLOST, 0, true, false⟩
  | .flag fb car sl =>
    match (s.slot fb car sl).job with
    | none => s
    | some j => carFail (zlrDone s l w) fb car sl ⟨(s.slot fb car sl).delivered j, stHOSTLOST, 0, true, true⟩

/-- Whether an access at a DVA leaves through a link. -/
def touches (s : State) (ctx fb dva l : Nat) : Bool :=
  match findSeg s ctx dva with
  | some (_, d) => d.kind == 1 && hostLinkOf s d fb ctx == l
  | none => false

/-- Whether a Carter command's source, or its destination, lies behind a link; whether its flag word does. -/
def CarJob.srcOn (s : State) (l : Nat) (j : CarJob) : Bool := j.op != 0x12 && touches s j.ctx (j.ring / 16) j.src l
def CarJob.dstOn (s : State) (l : Nat) (j : CarJob) : Bool := touches s j.ctx (j.ring / 16) j.dst l
def CarJob.flagOn (s : State) (l : Nat) (j : CarJob) : Bool := j.fl.on && touches s j.ctx (j.ring / 16) j.fl.dva l

/-- A Carter descriptor that still has to use a lost link fails there (R256, R271). -/
def carLost (s : State) (l fb car sl : Nat) : State :=
  let c := s.slot fb car sl
  match c.job with
  | none => s
  | some j =>
    match c.pend.find? fun p => (hostLinks p.dst).contains l with
    | some p => carFail s fb car sl ⟨p.k, stHOSTLOST, 0, true, false⟩
    | none =>
      if c.next < j.chunks ∧ (j.srcOn s l ∨ j.dstOn s l) then
        carFail s fb car sl ⟨c.next, stHOSTLOST, 0, j.dstOn s l, false⟩
      else if c.groups < j.groups ∧ j.flagOn s l then
        carFail s fb car sl ⟨c.delivered j, stHOSTLOST, 0, true, true⟩
      else s

/-- DVA of the access a command waits with. -/
def CmdJob.dva : CmdJob → Option Nat
  | .writeInline d _ | .signal _ d _ | .wait _ d _ | .query _ d | .attest _ d _ _ | .fwWrite _ _ d | .enroll _ d => some d
  | .release _ _ | .bell _ _ | .budget _ | .fence => none

/-! ### The steps of host loss (R256) -/

/-- Rings that satisfy `p` stop, and the completion rings that satisfy `q` are disabled. -/
def disableRings (s : State) (p : Ring → Bool) (q : CqRing → Bool) : State :=
  let s := (tkeys s.host.rings).foldl (fun s r => if p (s.ring r) then stopRing s r else s) s
  { s with host := { s.host with
      cqs := (tkeys s.host.cqs).foldl (fun t r =>
        tmod {} t r fun x => if q x then { x with enable := false } else x) s.host.cqs } }

/-- Rings in host memory that use a link lose ENABLE, and so do their completion rings (R256). -/
def dropHostRings (s : State) (l : Nat) : State :=
  disableRings s (fun r => !r.loc && r.link = l) (fun q => !q.loc && q.link = l)

/-- What any PERST# or hot reset clears besides its link: the fault and event rings' ENABLE and BASE, and every
HOST-kind translation (R226, R416). DEDUCED: log entry 125. -/
def resetRings (s : State) : State :=
  let dev (e : XEnt) : Bool := match s.seg e.key.ctx e.key.seg with
    | some d => d.kind = 0
    | none => true
  { s with
    evt := { s.evt with ring := { s.evt.ring with enable := false, base := 0, refused := false } }
    xlt := { s.xlt with
      ring := { s.xlt.ring with enable := false, base := 0, refused := false }
      rewrite := []
      l1 := (tkeys s.xlt.l1).foldl (fun t k => tmod [] t k fun es => es.filter dev) s.xlt.l1
      l2 := (tkeys s.xlt.l2).foldl (fun t k => tmod none t k fun e => e.filter dev) s.xlt.l2 } }

/-- Work runs that a host loss acts on (R351). -/
def running (s : State) : Bool := s.boot.phase == 8 || s.boot.phase == 9

/-- What a link that has been lost held: accesses that waited for it look up their translation again, and an
invalidation's zero-length read counts as completed (R217). -/
def cutLink (s : State) (l : Nat) : State :=
  let mine (p : Tgt × Nat) : Bool := match p.1 with
    | .host k _ => k = l
    | .dev _ => false
  let s := { s with xlt := { s.xlt with atHome := s.xlt.atHome.filter fun h => !h.ts.any mine } }
  let k := s.link l
  let n := (k.zlr.filter fun w => w == .inval).length
  (List.replicate n ZWho.inval).foldl (fun s w => zlrDone s l w) (s.setLink l { k with zlr := k.zlr.filter fun w => w != .inval })

/-- A link is lost: bus mastering is cut at once, no new outbound request leaves.  `rst`: by PERST#, hot reset or FLR,
which also clear the link's windows, its host Requester ID and its MSI-X table. -/
def loseLink (s : State) (l : Nat) (rst : Bool) : State :=
  let k := s.link l
  let k := { k with
    up := false, retraining := false, speed := 0, width := 0, busMaster := false
    loss := if running s then max 1 k.loss else 0
    lossReset := rst || (k.lossReset && decide (0 < k.loss)) }
  if rst then
    let s := s.setLink l { k with
      winBase := [], winLimit := [], winPending := [], rid := 0, ridMask := 0, msix := [], pend := [] }
    dropHostRings (resetRings (cutLink s l)) l
  else cutLink (s.setLink l k) l

/-- The contexts bound to a link (R256). -/
def ctxsOf (s : State) (l : Nat) : List Nat :=
  (tkeys s.xlt.ctxs).filter fun c => c ≠ 0 && (s.ctx c).state ≠ 0 && (s.ctx c).link = l

/-- Hold every kernel thread of a context. -/
def holdCtx (s : State) (ctx : Nat) : State :=
  (tkeys s.cores).foldl (fun s n =>
    if (s.core n).ctx = ctx then
      (List.range 15).foldl (fun s i => s.modThr n (i + 1) holdThread) s
    else s) s

/-- What used a lost link fails: outbound reads, zero-length reads, operations, Carter and other commands (R256). -/
def failHostBound (s : State) (l : Nat) : State :=
  let rs := (s.link l).reads
  let s := rs.foldl (fun s r => readFails s r cHOST stHOSTLOST) (s.setLink l { s.link l with reads := [] })
  let zs := (s.link l).zlr
  let s := zs.foldl (fun s w => zlrLost s l w) (s.setLink l { s.link l with zlr := [] })
  let s := (tkeys s.car.slots).foldl (fun s k => carLost s l (k / 48) (k % 48 / 4) (k % 4)) s
  let gone (e : Nat × Nat × CarJob) : Bool := e.2.2.srcOn s l || e.2.2.dstOn s l || e.2.2.flagOn s l
  let qs := s.car.queue.filter gone
  let s := { s with car := { s.car with queue := s.car.queue.filter fun e => !gone e } }
  let s := qs.foldl (fun s e => finishSt s e.2.2.ring e.2.2.seq stHOSTLOST 0) s
  let s := s.host.parked.foldl (fun s e =>
    match s.cmd? e.1 e.2.1, e.2.2.dva with
    | some c, some d => if touches s c.ctx (e.1 / 16) d l then finishSt (forget s (.cmd e.1 e.2.1)) e.1 e.2.1 stHOSTLOST d else s
    | _, _ => s) s
  let s := (tkeys s.cores).foldl (fun s n => (s.core n).aops.foldl (fun s o =>
    match o.kind.dva with
    | some d =>
      if touches s (coreReq s n o.t (.aop n o.id)).ctx (coreFb n) d l then
        failOp (forget s (.aop n o.id)) n o cHOST stHOSTLOST d
      else s
    | none => s) s) s
  -- stores, deposits and chunks that waited for the link (R255) are issued again, and fail
  retryDeposits (carPumpAll (replayAll s))

/-- Discard what the commands of contexts still do, with no record written (R256). -/
def dropWork (s : State) (p : Nat → Bool) : State :=
  let cs := s.host.inflight.filter fun c => p c.ctx
  let s := cs.foldl (fun s c => forget s (.cmd c.ring c.seq)) s
  let s := dropZlr s fun w => match w with
    | .cmd r q => cs.any fun c => c.ring = r && c.seq = q
    | _ => false
  let mine (w : InvFor) : Bool := match w with
    | .cmd r q => cs.any fun c => c.ring = r && c.seq = q
    | .host => false
  let anon (i : Inval) : Inval := if mine i.who then { i with who := .host } else i
  let s := (tkeys s.car.slots).foldl (fun s k =>
    let fb := k / 48
    let car := k % 48 / 4
    let sl := k % 4
    if (s.slot fb car sl).job.any fun j => p j.ctx then
      carFree s fb car sl
    else s) s
  { s with
    car := { s.car with queue := s.car.queue.filter fun e => !p e.2.2.ctx }
    xlt := { s.xlt with
      inval := s.xlt.inval.map anon, invalQ := s.xlt.invalQ.map anon
      dying := s.xlt.dying.map fun e => if mine e.2 then (e.1, .host) else e }
    host := { s.host with
      inflight := s.host.inflight.filter fun c => !p c.ctx
      parked := s.host.parked.filter fun e => !(cs.any fun c => c.ring = e.1 && c.seq = e.2.1)
      held := (tkeys s.host.held).foldl (fun t q =>
        tmod [] t q fun rs => rs.filter fun r => !p (s.ring r.ring).ctx) s.host.held } }

/-- Destroy contexts as CTX_DESTROY does, with no record written (R203, R256). -/
def destroyAll (s : State) (cs : List Nat) : State :=
  cs.foldl (fun s c => destroyCtx s c .host) (dropWork s fun c => cs.contains c)

end Sys2Proof.Machine
end

