-- ==== Sys2Proof/Machine/HostRows.lean ====
section
/-! DEFINITION. PCIe links, host loss, BAR2 and BAR4 accesses, host windows and regions: the commands and events of
chapter 10 (R228-R236, R239, R240, R255-R257). -/

namespace Sys2Proof.Machine

/-- The links of a port (R229): PERST# acts on both. -/
def portLinks (p : Nat) : List Nat := [p, p + 2]

/-- PERST_ASSERT (R256). PRESUMED: log entry 111. -/
def execPerstAssert (port : Nat) (s : State) : Out :=
  .next ((portLinks port).foldl (fun s l =>
    if (s.link l).perst then s else loseLink (s.setLink l { s.link l with perst := true }) l true) s)

/-- PERST_DEASSERT (R256): the links may train. -/
def execPerstDeassert (port : Nat) (s : State) : Out :=
  .next ((portLinks port).foldl (fun s l => s.setLink l { s.link l with perst := false }) s)

/-- HOT_RESET (R256). -/
def execHotReset (link : Nat) (s : State) : Out :=
  if trained s link then .next (loseLink s link true)
  else .next s -- the link carries nothing

/-- FLR (R228): as a hot reset of the link that carries it. -/
def execFlr (link : Nat) (s : State) : Out :=
  if trained s link then .next (loseLink s link true)
  else .next s -- the link carries nothing

/-- LINK_RETRAIN_START (R255). -/
def execLinkRetrainStart (link : Nat) (s : State) : Out :=
  let k := s.link link
  if k.up then
    .next (s.setLink link { k with up := false, retraining := true, retrains := satInc 65535 k.retrains })
  else .next s -- the link is not in L0

/-- Whether a link exists and may train: its port is not in reset, the start has reached step 3 (R350), and a second
half exists only under BIFURCATE (R229). -/
def mayTrain (s : State) (l : Nat) : Bool :=
  s.powered && !(s.link l).perst && !s.iso (linkFb l) && (decide (3 ≤ s.boot.phase) && s.boot.phase != 11) &&
  (decide (l < 2) || tget false s.host.bifurcate (l % 2))

/-- The rates and widths that a link may train at (R228): the codes of HST_LINK.SPEED, and the lanes of a whole port or
of one half. -/
def rateOk (s : State) (l speed width : Nat) : Bool :=
  decide (1 ≤ speed) && decide (speed ≤ 6) &&
  ([1, 2, 4, 8].contains width || (width == 16 && !tget false s.host.bifurcate (l % 2)))

/-- LINK_L0_RETURN (R255, R256, R436). -/
def execLinkL0Return (link speed width : Nat) (s : State) : Out :=
  let k := s.link link
  if k.up || !mayTrain s link || !rateOk s link speed width then
    .next s -- the link is in L0, or may not train, or not so
  else
    let s := s.setLink link { k with up := true, retraining := false, speed := speed, width := width, busMaster := true }
    .next (unhold (retryLink s link))

/-- LINK_RETRAIN_TIMEOUT (R255). -/
def execLinkRetrainTimeout (link : Nat) (s : State) : Out :=
  if (s.link link).retraining then .next (loseLink s link false)
  else .next s -- the link does not retrain

/-- A WAIT or a WAITG polls a word behind the link. -/
def pollsOn (s : State) (l : Nat) : Bool :=
  (s.host.parked.any fun e => match e.2.2, s.cmd? e.1 e.2.1 with
    | .wait _ a _, some c => touches s c.ctx (e.1 / 16) a l
    | _, _ => false) ||
  s.cores.any fun c => c.2.thr.any fun e => match e.2.blk with
    | some (.waitg _ a _ _) =>
      e.2.st == .waiting && touches s (if e.1 = 0 then 0 else c.2.ctx) (coreFb c.1) (e.2.rs a).toNat l
    | _ => false

/-- A command ring in host memory has packets to fetch through the link. -/
def fetchesOn (s : State) (l : Nat) : Bool :=
  s.host.rings.any fun e => !e.2.loc && e.2.link = l && e.2.enable && !e.2.halted && e.2.head != e.2.tail

/-- OUTBOUND_READ_TIMEOUT (R230): of a tagged read, a zero-length read, a poll, or a ring's fetch. -/
def execOutboundReadTimeout (link : Nat) (s : State) : Out :=
  let k := s.link link
  if (k.reads.any fun r => r.tag.isSome) || !k.zlr.isEmpty || pollsOn s link || fetchesOn s link then
    .next (loseLink s link false)
  else .next s -- no outbound read is out

/-- A thread's read of host memory has been answered: its load completes, also while it is HELD. -/
def threadData (s : State) (n t : Nat) : State :=
  let x := s.thr n t
  if x.st ≠ .held then replayThread s n t
  else match x.blk with
    | some (.ldg _ d a size) =>
      match accessRead s (coreReq s n t (.thread n t)) 0 (x.rs a).toNat (sizeBytes size) with
      | .done s bs _ => s.modThr n t (completeAccess fun x => x.ws d (BitVec.ofNat 64 (leNat bs)))
      | .waits s => s
      | _ => s -- it is issued again at the resume
    | _ => s

/-- An agent whose reads have all been answered goes on. -/
def readGo (s : State) (a : Agent) : State :=
  if (answers (readsOf s a)).isNone then s
  else match a with
    | .thread n t => threadData s n t
    | .aop n id =>
      match (s.core n).aops.find? fun o => o.id = id with
      | some o => (runOp s n o).getD s
      | none => readsDone s a
    | .chunk fb car sl k => carTake s fb car sl k
    | .cmd ring seq => cmdGo s ring seq
    | .mill _ | .carFlag _ _ _ | .image _ => s

/-- Chunk writes that Carters issued to a link before stamp `at_` leave first (R285). -/
def linkSettle (s : State) (l at_ : Nat) : State :=
  (tkeys s.car.slots).foldl (fun s k =>
    if (tget {} s.car.slots k).pend.any fun p => !p.done && decide (p.at_ < at_) && (hostLinks p.dst).contains l then
      carSettle s (k / 48) (k % 48 / 4) at_
    else s) s

/-- OUTBOUND_READ_COMPLETION (R230, R285): `ok` false for Unsupported Request and Completer Abort. -/
def execOutboundReadCompletion (link tag : Nat) (ok : Bool) (data : List Byte) (s : State) : Out :=
  match (s.link link).reads.find? fun r => r.tag = some tag with
  | none => .next s -- no outbound read has the tag
  | some r =>
    if (s.link link).retraining then .next s -- the link retrains
    else if !ok then .next (readFails s r cRIGHTS stRIGHTS)
    else
      let s := linkSettle s link r.at_
      let behind := s.car.slots.any fun e => e.2.pend.any fun p =>
        !p.done && decide (p.at_ < r.at_) && (hostLinks p.dst).contains link
      if behind || !((s.link link).reads.contains r) then .next s -- an earlier write on the link is held
      else
        let k := s.link link
        let bs := (data ++ List.replicate r.len 0).take r.len
        let rs := replaceFirst (fun x => x = r) (fun x => { x with tag := none, got := some bs }) k.reads
        .next (readGo (pruneOld (retagAll (s.setLink link { k with reads := rs }))) r.who)

/-! ### Host loss (R256) -/

/-- HOST_LOSS_HOLD. -/
def execHostLossHold (link : Nat) (s : State) : Out :=
  if (s.link link).loss = 1 then
    let s := s.setLink link { s.link link with loss := 2 }
    .next ((ctxsOf s link).foldl holdCtx s)
  else .next s -- the link has not just been lost

/-- HOST_LOSS_SUSPEND. -/
def execHostLossSuspend (link : Nat) (s : State) : Out :=
  if (s.link link).loss = 2 then
    let s := failHostBound (s.setLink link { s.link link with loss := 3 }) link
    .next ((ctxsOf s link).foldl (fun s c =>
      if (s.ctx c).state = 1 then s.setCtx c { s.ctx c with state := 2 } else s) s)
  else .next s -- threads have not been held

/-- Everything an unarmed reset destroys: every context, every ring, device memory and scratch. -/
def loseAll (s : State) : State :=
  let s := destroyAll s ((tkeys s.xlt.ctxs).filter fun c => c ≠ 0 && (s.ctx c).state ≠ 0)
  let s := disableRings s (fun _ => true) (fun _ => true)
  let s := zeroScratch s
  { s with
    gmem := Memory.clearRange s.gmem 0 memTop
    dram := { s.dram with zeroing := true, lines := [] } }

/-- What an unarmed timeout destroys: the contexts and the rings of the link. -/
def loseBound (s : State) (l : Nat) : State :=
  disableRings (destroyAll s (ctxsOf s l)) (fun r => r.link = l) (fun q => q.link = l)

/-- HOST_LOSS_FINAL_STEP: LOST is set once all of it is done. -/
def execHostLossFinalStep (link : Nat) (s : State) : Out :=
  if (s.link link).loss = 3 then
    let rst := (s.link link).lossReset
    let s := s.setLink link { s.link link with loss := 0, lossReset := false }
    let s := { s with host := { s.host with lossEnds := true } }
    let s := if s.host.armed then s else if rst then loseAll s else loseBound s link
    .next (settleLoss (dropHostRings s link))
  else .next s -- contexts have not been suspended

/-! ### RECOVER (R257) -/

/-- Rings bound to a context. -/
def ringsOf (s : State) (ctx : Nat) : List Nat := (tkeys s.host.rings).filter fun r => (s.ring r).ctx = ctx

/-- A held thread goes back to its previous state. -/
def releaseCtx (s : State) (ctx : Nat) : State :=
  (tkeys s.cores).foldl (fun s n =>
    if (s.core n).ctx = ctx then
      (List.range 15).foldl (fun s i =>
        let x := s.thr n (i + 1)
        if x.st = .held then resumeThread s n (i + 1)
        else s.modThr n (i + 1) fun x => { x with holdReq := false }) s
    else s) s

/-- Write the held records of a context as far as its completion rings take them. -/
def flushHeld : Nat → State → List Nat → State
  | 0, s, _ => s
  | fuel + 1, s, qs =>
    flushHeld fuel (qs.foldl (fun s q => if recReady s q then recordWrite s q else s) s) qs

/-- RECOVER_RESUME (R257): its records are written, its fault records are to be written again, and its held threads
and its Carters go on. DEDUCED: log entry 112. DEDUCED: log entry 130. -/
def execRecoverResume (h : Hdr) (tctx link : Nat) (s : State) : Out :=
  command 0x82 h [(1, 1, tctx), (2, 1, 2 * link)]
    (fun s => !ctxNo tctx || (s.ctx tctx).state != 2 || !trained s link ||
      (ringsOf s tctx).any fun r => !(s.ring r).enable || (s.ring r).link != link)
    (fun s =>
      let s := s.setCtx tctx { s.ctx tctx with state := 1, link := link }
      let s := flushHeld 32 s ((ringsOf s tctx).map fun r => (s.ring r).cq)
      let s := rewriteFaults s fun f => f.ctx = tctx
      finishSt (carPumpAll (releaseCtx s tctx)) h.ring h.seq stDONE 0) s

/-- RECOVER_DISCARD (R257): as CTX_DESTROY; LINK is for RESUME. -/
def execRecoverDiscard (h : Hdr) (tctx link : Nat) (s : State) : Out :=
  command 0x82 h [(1, 1, tctx), (2, 1, 1 + 2 * link)] (fun s => !ctxNo tctx || (s.ctx tctx).state != 2)
    (fun s => destroyCtx s tctx (.cmd h.ring h.seq)) s

/-! ### Doorbells and command windows (R239, R240) -/

/-- DOORBELL (R239). -/
def execDoorbell (link ring : Nat) (v : Word) (s : State) : Out := .next (bar2Do s (.bell link ring v))

/-- WINDOW_DOORBELL (R240): the doorbell with its WINDOW bit. -/
def execWindowDoorbell (link ring : Nat) (v : Word) (s : State) : Out :=
  .next (bar2Do s (.bell link ring (v ||| 0x100000000#64)))

/-- BAR4 offset of a command window. -/
def winOffset (ring off : Nat) : Nat := 0x1000000 + 0x10000 * ring + off

/-- An access to a reserved part of BAR4 is logged where R432 says. -/
def bar4Event (s : State) (l off : Nat) : State :=
  let d := 2 ^ 63 + off
  if off < 0x40000 then ev s 0x0003 (off / 0x1000 / 16) 0x0E (off / 0x1000) d 1
  else if 0x1000000 ≤ off ∧ off < 0x1400000 then
    let r := (off - 0x1000000) / 0x10000
    ev s 0x0003 (r / 16) 0x0E r d 1
  else ev s 0x0003 (linkFb l) 0x0D l d 1

/-- COMMAND_WINDOW_WRITE (R240). -/
def execCommandWindowWrite (link ring off : Nat) (data : List Byte) (s : State) : Out :=
  if 4096 ≤ off then .next (bar4Event s link (winOffset ring off))
  else .next (bar2Do s (.window ring off data))

/-- What a read of 8 bytes of BAR4 returns (R231): a ring's HEAD; a doorbell, which the spec gives no read; the bytes
of a command window; zeros elsewhere. DESIGN CHOICE: log entry 140. -/
def bar4Read (s : State) (off : Nat) : List Byte :=
  if off < 0x40000 ∧ off % 0x1000 = 8 then leBytes 8 (s.ring (off / 0x1000)).head.toNat
  else if off < 0x40000 ∧ off % 0x1000 < 8 then leBytes 8 (Config.doorbellRead (off / 0x1000)).toNat
  else if 0x1000000 ≤ off ∧ off < 0x1400000 ∧ (off - 0x1000000) % 0x10000 < 4096 then
    Memory.readN s.host.windows (off - 0x1000000) 8
  else leBytes 8 0

/-- BAR_RESERVED_ACCESS (R231): a read of BAR4, or a write that is neither a doorbell nor of a command window. -/
def execBarReservedAccess (link off : Nat) (wr : Bool) (s : State) : Out :=
  let used := (off < 0x40000 ∧ off % 0x1000 < 8) ∨
    (0x1000000 ≤ off ∧ off < 0x1400000 ∧ (off - 0x1000000) % 0x10000 < 4096)
  if !wr then .next (setAnswer s link (.data (bar4Read s off)))
  else if used then .next s -- a doorbell or a window write: another command
  else .next (bar4Event s link off)

/-! ### BAR2 (R232, R235, R350) -/

/-- A host request (R235). -/
def fromHost (k : Link) (rid : BitVec 16) : Bool := (rid &&& k.ridMask) == k.rid

/-- A peer request that a registered region accepts. DEDUCED: log entry 113. -/
def peerOk (s : State) (rid : BitVec 16) (dpa len : Nat) (wr : Bool) : Bool :=
  s.host.regions.any fun e => match e.2 with
    | none => false
    | some g => (if wr then g.w else g.r) && (rid &&& g.mask) == (g.rid &&& g.mask) && decide (g.base ≤ dpa) &&
      decide (dpa + len ≤ g.base + g.size)

/-- PHASE has not reached READY (R350). -/
def early (s : State) : Bool := !(s.boot.phase == 8 || s.boot.phase == 9)

/-- BAR2_READ: a peer read that is refused completes with Unsupported Request, which its answer shows as
XLT_RIGHTS. -/
def execBar2Read (link : Nat) (rid : BitVec 16) (off len : Nat) (s : State) : Out :=
  let k := s.link link
  let a := k.bar2 + off
  if early s then .next (setAnswer (ev s 0x0003 (linkFb link) 0x0D link off 0) link (.data (List.replicate len 0)))
  else if fromHost k rid || peerOk s rid a len false then .next (bar2Do s (.bar2r link a len))
  else .next (setAnswer (ev s 0x0005 (linkFb link) 0x0D link a rid.toNat) link (.fail stRIGHTS a))

/-- BAR2_WRITE: `ro` and `ido` are its Relaxed Ordering and ID-Based Ordering attributes (R280). -/
def execBar2Write (link : Nat) (rid : BitVec 16) (ro ido : Bool) (off : Nat) (data : List Byte) (s : State) : Out :=
  let k := s.link link
  let a := k.bar2 + off
  if early s then .next (ev s 0x0003 (linkFb link) 0x0D link off 1)
  else if fromHost k rid || peerOk s rid a data.length true then .next (bar2Do s (.bar2w link (ratOf s a).vis ro ido rid a data))
  else .next (ev s 0x0005 (linkFb link) 0x0D link a rid.toNat)

/-! ### Host windows (R233, R234) -/

/-- Offset of a window register. -/
def winReg (link idx : Nat) (limit : Bool) : Nat :=
  regOff (linkFb link) 0x0D (0x100 + 0x100 * (link / 2) + 16 * idx + 8 * b2n limit)

/-- A window register as the latest write to it leaves it, in effect or not yet. -/
def winLatest (k : Link) (idx : Nat) (limit : Bool) : Word :=
  match (k.winPending.filter fun e => e.1 = idx && e.2.1 = limit).getLast? with
  | some e => e.2.2
  | none => tget 0 (if limit then k.winLimit else k.winBase) idx

/-- A write of the bits of a window register that `mask` covers (R3, R234); `at_` is the offset the write names. -/
def windowSet (s : State) (link idx : Nat) (limit fromPcie : Bool) (mask v raw : Word) (at_ : Nat) : State :=
  if s.iso (linkFb link) then s
  else if !fromPcie && tget true s.host.winOwn (link % 2) then regDiscard s at_ link raw
  else
    let k := s.link link
    let v := ((winLatest k idx limit &&& ~~~mask) ||| (v &&& mask)) &&&
      (if limit then 0xFFFFFFFFFFFFF000#64 else 0xFFFFFFFFFFFFF001#64)
    s.setLink link { k with winPending := k.winPending ++ [(idx, limit, v)] }

/-- HOST_WINDOW_WRITE (R234). -/
def execHostWindowWrite (link idx : Nat) (limit fromPcie : Bool) (v : Word) (s : State) : Out :=
  .next (windowSet s link idx limit fromPcie (BitVec.allOnes 64) v v (winReg link idx limit))

/-- HOST_WINDOW_EFFECTIVE (R234, R233, R436): the writes take effect in order, and what was refused is tried again. -/
def execHostWindowEffective (link : Nat) (s : State) : Out :=
  let k := s.link link
  if k.winPending.isEmpty then .next s -- no window write waits
  else
    let k := k.winPending.foldl (fun k e =>
      if e.2.1 then { k with winLimit := tset 0 k.winLimit e.1 e.2.2 }
      else { k with winBase := tset 0 k.winBase e.1 e.2.2 }) k
    .next (retryLink (s.setLink link { k with winPending := [] }) link)

/-! ### Regions (R236) -/

/-- A range lies within device memory, or within scratch that every bank backs. -/
def rangeBacked (s : State) (a n : Nat) : Bool :=
  decide (a + n ≤ memTop) ||
  (decide (scrBase ≤ a) && decide (a + n ≤ scrTop) && (List.range 4).all fun q =>
    let lo := scrBase + q * 2 ^ 29
    let hi := min (a + n) (lo + 2 ^ 29)
    decide (hi ≤ max a lo) || (List.range 64).all fun b => decide (hi - lo ≤ (s.bank q b).w * 0x2000000))

/-- REGION_REGISTER. -/
def execRegionRegister (h : Hdr) (region : Nat) (r w : Bool) (rid mask : BitVec 16) (base size : Nat) (s : State) : Out :=
  command 0x60 h
    [(1, 1, region), (2, 1, b2n r + 2 * b2n w), (4, 2, rid.toNat), (6, 2, mask.toNat), (8, 8, base), (16, 8, size)]
    (fun s => decide (255 < region) || (tget none s.host.regions region).isSome || base % 4096 != 0 || size % 4096 != 0 ||
      size == 0 || !rangeBacked s base size || s.host.regions.any fun e => match e.2 with
        | none => false
        | some g => decide (g.base < base + size) && decide (base < g.base + g.size))
    (fun s => finishSt
      { s with host := { s.host with regions := tset none s.host.regions region (some ⟨r, w, rid, mask, base, size⟩) } }
      h.ring h.seq stDONE 0) s

/-- REGION_RELEASE: the region leaves the check at once; of a region that is not in use, BAD_PARAM (DEDUCED, log entry 62). -/
def execRegionRelease (h : Hdr) (region : Nat) (s : State) : Out :=
  command 0x61 h [(1, 1, region)] (fun s => decide (255 < region) || (tget none s.host.regions region).isNone)
    (fun s =>
      match tget none s.host.regions region, s.cmd? h.ring h.seq with
      | some g, some c =>
        runJob { s with host := { s.host with regions := tset none s.host.regions region none } } c (.release g.base g.size)
      | _, _ => s) s

end Sys2Proof.Machine
end

