-- ==== Sys2Proof/Machine/RingRows.lean ====
section
/-! DEFINITION. Rings, packets and completion rings (R237-R247, R252-R254). -/

namespace Sys2Proof.Machine

/-! ### Packet layouts (R243, R246, R247, R263-R265, R378, R381) -/

def m24 : Nat := 2 ^ 24 - 1
def m32 : Nat := 2 ^ 32 - 1
def m40 : Nat := 2 ^ 40 - 1
def mAll (n : Nat) : Nat := 2 ^ (8 * n) - 1
def mPage : Nat := 2 ^ 40 - 2 ^ 12

/-- Fields of a header: byte offset, bytes, the bits that are not reserved. -/
def headerFields : List (Nat × Nat × Nat) :=
  [(0, 1, 255), (1, 1, 15), (2, 1, 127), (3, 1, 15), (4, 2, mAll 2), (8, 4, m32), (12, 4, m32), (16, 8, mAll 8)]

/-- A segment descriptor (R206) at byte 32. -/
def descFields : List (Nat × Nat × Nat) :=
  [(32, 1, 15), (33, 1, 0x77), (34, 1, 3), (35, 1, 0xFC), (36, 3, m24), (40, 4, m24), (48, 8, m40 - 7), (56, 8, mAll 8)]

/-- Fields of an opcode's parameters, from the first byte after the header; `p` gives a parameter byte, for the layouts
whose reserved part depends on another field. A DVA takes its eight bytes: its bits from 56 on are no reserved field, for
R205 gives them a failure of their own. DEDUCED: log entry 122. -/
def paramFields (op : Nat) (p : Nat → Nat) : List (Nat × Nat × Nat) :=
  match op with
  | 0x10 => [(1, 1, 0xF1), (8, 8, mAll 8), (16, 8, mAll 8), (24, 8, m40), (32, 8, mAll 8)]
  | 0x11 => [(1, 1, 0xF1), (2, 1, 7), (3, 1, 3), (4, 4, m32), (8, 8, mAll 8), (16, 8, mAll 8), (24, 8, mAll 8), (32, 32, mAll 32)]
  | 0x12 => [(1, 1, 0xF1), (2, 1, 7), (8, 8, mAll 8), (16, 8, m40), (24, 8, mAll 8),
      (32, 2 ^ min 5 (p 2 % 8), mAll (2 ^ min 5 (p 2 % 8)))]
  | 0x13 => [(8, 8, mAll 8), (16, 2, 0xFFF), (64, 3968, mAll 3968)]
  | 0x20 => [(2, 2, 0xFFFE), (4, 4, m32), (8, 8, mAll 8), (16, 2, mAll 2), (24, 8, mAll 8), (64, 512, mAll 512)]
  | 0x21 => [(1, 1, 63), (4, 4, m32)]
  | 0x31 => [(1, 1, 3), (8, 8, mAll 8), (16, 8, mAll 8)]
  | 0x32 => [(1, 1, 1), (8, 8, mAll 8), (16, 8, mAll 8)]
  | 0x33 => [(1, 1, 255), (4, 4, m32)]
  | 0x40 => [(1, 1, 127), (2, 1, 15)] ++ descFields
  | 0x41 => [(1, 1, 127), (2, 1, 15)]
  | 0x42 => [(1, 1, 3), (2, 1, 15), (4, 4, m24), (8, 4, m24)]
  | 0x43 => [(1, 1, 3), (4, 4, m32)]
  | 0x50 => [(1, 1, 255), (2, 1, 255), (3, 1, 63), (4, 1, 63), (5, 1, 255), (6, 2, 0x3FFF), (8, 1, 255), (9, 1, 7),
      (10, 2, 0xFFF), (12, 4, m24), (16, 4, 2 ^ 18 - 1), (24, 8, mAll 8), (32, 8, mAll 8), (64, 512, mAll 512)]
  | 0x51 => [(1, 1, 255), (2, 1, 1)]
  | 0x60 => [(1, 1, 255), (2, 1, 3), (4, 2, mAll 2), (6, 2, mAll 2), (8, 8, mPage), (16, 8, mPage)]
  | 0x61 => [(1, 1, 255)]
  | 0x70 => [(1, 1, 255), (8, 8, mAll 8)]
  | 0x71 => [(0, 1, 0x7F), (1, 1, 31), (2, 1, 127), (3, 1, 63), (4, 4, m24), (8, 2, 0xFFF)] ++
      (List.range (min 32 (p 3 % 64))).flatMap fun i => [(64 + 8 * i, 1, 255), (68 + 8 * i, 4, m24)]
  | 0x72 => [(2, 2, mAll 2)]
  | 0x80 => [(1, 1, 1), (8, 8, mAll 8), (16, 4, m32), (32, 32, mAll 32)]
  | 0x81 => [(1, 1, 15), (2, 1, 1), (4, 4, m32), (8, 4, m32), (16, 8, mAll 8)]
  | 0x82 => [(1, 1, 127), (2, 1, 15)]
  | 0x90 => [(1, 1, 127), (2, 1, 15), (64, 2048, mAll 2048)]
  | 0x91 => [(1, 1, 127)]
  | _ => []

/-- The opcodes of R246. -/
def opKnown (op : Nat) : Bool :=
  [0x00, 0x10, 0x11, 0x12, 0x13, 0x20, 0x21, 0x30, 0x31, 0x32, 0x33, 0x40, 0x41, 0x42, 0x43, 0x50, 0x51, 0x60, 0x61,
    0x70, 0x71, 0x72, 0x80, 0x81, 0x82, 0x90, 0x91].contains op

/-- LENGTH minus one of an opcode; NOP takes any. -/
def opSlots (op : Nat) (p : Nat → Nat) : Option Nat :=
  match op with
  | 0x00 => none
  | 0x13 => some (1 + ceilDiv ((p 16 + 256 * p 17) % 4096) 64)
  | 0x20 | 0x50 => some 9
  | 0x30 => some 0
  | 0x71 => some 5
  | 0x90 => some 33
  | _ => some 1

/-- Bytes at which an opcode's DVAs begin. -/
def dvaFields (op : Nat) : List Nat :=
  match op with
  | 0x10 => [8, 16, 32]
  | 0x11 => [8, 16, 24]
  | 0x12 => [8, 24]
  | 0x13 | 0x20 | 0x31 | 0x32 | 0x70 | 0x80 => [8]
  | 0x50 => [24, 32]
  | 0x81 => [16]
  | _ => []

/-- Bits of byte `i` that some field holds. -/
def byteMask (fs : List (Nat × Nat × Nat)) (i : Nat) : Nat :=
  fs.foldl (fun m f => if f.1 ≤ i ∧ i < f.1 + f.2.1 then m ||| (f.2.2 / 256 ^ (i - f.1) % 256) else m) 0

/-- A reserved bit of the bytes is set. -/
def reservedSet (fs : List (Nat × Nat × Nat)) (bs : List Byte) : Bool :=
  (List.range bs.length).any fun i => (bs.getD i 0).toNat &&& (255 - byteMask fs i) != 0

/-! ### Taking a packet (R238, R240, R244) -/

/-- Where a packet's bytes came from: bytes, not now, or a failure to record (DEDUCED, log entry 63). -/
inductive Fetched where
  | bytes (s : State) (bs : List Byte)
  | later
  | fail (s : State) (status addr : Nat)

/-- The next packet of a ring comes from its command window. -/
def fromWindow (r : Ring) : Bool := r.window && r.winAt == r.head

/-- Read `n` bytes of a ring from slot `slot` on; `data` is what the host returned. -/
def ringRead (s : State) (ring slot n : Nat) (data : List Byte) : Fetched :=
  let r := s.ring ring
  let a := r.base + 64 * slot
  if fromWindow r then .bytes s (Memory.readN s.host.windows (65536 * ring) n)
  else if r.loc then
    match memRead s a n with
    | (s, .ok bs) => .bytes s bs
    | (_, .error (.held _)) => .later
    | (s, .error f) => .fail s f.status f.dpa
  else
    let k := s.link r.link
    if !k.up || !k.busMaster then .later
    else if !winCovers k a n || data.length < n then .fail s stRIGHTS a
    else .bytes s (data.take n)

/-- The record of a packet that never became a command. DEDUCED: log entry 121. -/
def packetRec (s : State) (ring : Nat) (bs : List Byte) (status d32 d64 : Nat) (irq : Bool) : State :=
  let q := (s.ring ring).cq
  let r : Rec := ⟨ring, fieldOf bs 0 1, BitVec.ofNat 32 (fieldOf bs 8 4), status, 0, d32, d64,
    BitVec.ofNat 64 (fieldOf bs 16 8), irq⟩
  { s with host := { s.host with held := tset [] s.host.held q (tget [] s.host.held q ++ [r]) } }

/-- An opcode a ring does not take (R237, R244, R246, R364): reserved; privileged without PRIV; of a FREE context;
in the recovery state. -/
def opRefused (s : State) (r : Ring) (op : Nat) : Bool :=
  !opKnown op || (isPriv op && !r.priv) ||
  ((s.ctx r.ctx).state == 0 && !(op == 0x00 || op == 0x30 || isPriv op)) ||
  (s.boot.phase == 9 && [0x20, 0x21, 0x33, 0x50, 0x51].contains op)

/-- The first check of R14 and R244 that a packet fails. -/
def packetStatus (s : State) (ring : Nat) (bs : List Byte) : Nat :=
  let r := s.ring ring
  let op := fieldOf bs 0 1
  let ps := bs.drop 64
  let p (i : Nat) : Nat := (ps.getD i 0).toNat
  let n := bs.length / 64
  let layout := op ≠ 0x00 && op ≠ 0x30
  if fieldOf bs 1 1 % 16 ≠ 1 then 0x0101
  else if opRefused s r op then 0x0100
  else if layout && p 0 % 16 ≠ 1 && 1 < n then 0x0101
  else if layout && op == 0x40 && p 32 % 16 ≠ 1 && 1 < n then 0x0101
  else if reservedSet headerFields (bs.take 64) ||
      (layout && reservedSet ((0, 1, 15) :: paramFields op p) ps) then 0x0103
  else
    let b3 := fieldOf bs 3 1
    let bad := b3 % 4 == 3 || b3 / 4 == 3 || fieldOf bs 2 1 != r.ctx || fieldOf bs 8 4 != r.nextSeq.toNat ||
      (match opSlots op p with
       | none => false
       | some k => n != 1 + k) ||
      -- COPY_ND: NDIM from 1 to 5, and nothing in the dimensions beyond it (R264)
      (op == 0x11 && (p 2 == 0 || decide (5 < p 2) || fieldOf (ps.drop (32 + 8 * (p 2 - 1))) 0 (32 - 8 * (p 2 - 1)) != 0)) ||
      -- a DVA outside the address space (R205), and a reserved operation of FW_STAGE (R381)
      ((dvaFields op).any fun o => p (o + 7) != 0) || (op == 0x81 && decide (6 < p 1))
    if bad then stBADPARAM else stDONE

/-- The in-flight entry of a packet that passed. -/
def packetCmd (ring : Nat) (bs : List Byte) : Cmd :=
  { ring := ring, op := fieldOf bs 0 1, seq := BitVec.ofNat 32 (fieldOf bs 8 4), ctx := fieldOf bs 2 1,
    vis := fieldOf bs 3 1 % 4, compl := fieldOf bs 3 1 / 4, tag := BitVec.ofNat 64 (fieldOf bs 16 8),
    timeout := BitVec.ofNat 32 (fieldOf bs 12 4), running := false, stop := 0, cmp := 0, addr := 0, value := 0,
    links := [], par := bs.drop 64 }

/-- A framed packet: HEAD and the next SEQ advance, and its checks decide. -/
def takePacket (s : State) (ring : Nat) (bs : List Byte) : State :=
  let st := packetStatus s ring bs
  let r := s.ring ring
  let win := fromWindow r
  let b3 := fieldOf bs 3 1
  let s := s.setRing ring { r with
    head := r.head + BitVec.ofNat 32 (bs.length / 64), nextSeq := r.nextSeq + 1
    window := r.window && !win }
  let s := if st = stDONE then
      { s with host := { s.host with inflight := s.host.inflight ++ [packetCmd ring bs] } }
    else packetRec s ring bs st 0 0 (fieldOf bs 1 1 % 16 != 1 || b3 / 4 % 4 != 1)
  if win then unhold s else s

/-- The ring enters HALTED with a record; its command window holds nothing any longer. -/
def haltRing (s : State) (ring : Nat) (bs : List Byte) (status d32 d64 : Nat) : State :=
  let irq := !(fieldOf bs 1 1 % 16 == 1 && fieldOf bs 3 1 / 4 % 4 == 1)
  let r := s.ring ring
  let s := packetRec (s.setRing ring { r with halted := true, window := false }) ring bs status d32 d64 irq
  if r.window then unhold s else s

/-- COMMAND_PACKET_ARRIVAL (R241, R244): `data` is the packet as the host returns it for a ring in host memory, shorter
than the packet where its read is answered Unsupported Request or Completer Abort. -/
def execCommandPacketArrival (ring : Nat) (data : List Byte) (s : State) : Out :=
  let r := s.ring ring
  let slot := r.head.toNat % 2 ^ (r.log2 + 6)
  if !r.enable || r.halted || (r.head == r.tail && !fromWindow r) || s.iso (ring / 16) || ctxHeld s r.ctx || !cmdRoom s ring then
    .next s -- the ring has no packet that can be taken
  else
    match ringRead s ring slot 64 data with
    | .later => .next s -- the packet cannot be read yet
    | .fail s st a => .next (haltRing s ring [] st 0 a)
    | .bytes s hd =>
      let n := fieldOf hd 4 2
      if n = 0 ∨ 64 < n ∨ 2 ^ (r.log2 + 6) < slot + n then .next (haltRing s ring hd stBADPARAM slot 0)
      else if (r.tail - r.head).toNat < n then .next s -- the packet is not whole yet
      else
        match ringRead s ring slot (64 * n) data with
        | .later => .next s -- the packet cannot be read yet
        | .fail s st a => .next (haltRing s ring hd st 0 a)
        | .bytes s bs => .next (takePacket s ring bs)

/-! ### Ring registers (R237, R245, R254, R350) -/

/-- A ring of `n` bytes at `base` lies where its LOC says: in device memory or backed scratch, or in a window of its
link. DEDUCED: log entry 126. -/
def ringPlace (s : State) (loc : Bool) (link base n : Nat) : Bool :=
  if loc then rangeBacked s base n else winCovers (s.link link) base n

/-- A command ring's configuration as a written value gives it. -/
def ringCfg (r : Ring) (v : Nat) : Ring :=
  { r with
    link := bits v 26 24, cq := bits v 21 16, log2 := bits v 15 12, ctx := bits v 11 5
    priv := bit v 2, loc := bit v 1 }

/-- Whether a written configuration may be enabled. -/
def ringCfgOk (s : State) (ring : Nat) (r : Ring) : Bool :=
  let c := s.ctx r.ctx
  decide (r.link < 4) && decide (r.cq / 16 = ring / 16) && decide (r.log2 ≤ 10) && ctxNo r.ctx &&
  (ringFlight s ring).isEmpty && !early s && ringPlace s r.loc r.link r.base (64 * 2 ^ (r.log2 + 6)) &&
  (if c.state = 0 then r.priv else c.state == 2 || r.link == c.link)

/-- A write of CMD_RING_CFG. -/
def ringWrite (s : State) (ring : Nat) (v : Word) : State :=
  let r := s.ring ring
  let off := regOff (ring / 16) 0x0E (0x108 + 0x40 * (ring % 16))
  if s.iso (ring / 16) then s
  else
    let r' := ringCfg r v.toNat
    if !v.getLsbD 0 then stopRing (s.setRing ring r') ring
    else if !r.enable && ringCfgOk s ring r' then
      s.setRing ring { r' with
        enable := true, head := 0, tail := 0, nextSeq := 0, halted := false, window := false, winAt := 0, hostLinks := [] }
    else regDiscard s off ring v

/-- RING_ENABLE (R237, R245). -/
def execRingEnable (ring : Nat) (v : Word) (s : State) : Out := .next (ringWrite s ring (v ||| 1))

/-- RING_DISABLE (R245): the ring stops at once. -/
def execRingDisable (ring : Nat) (s : State) : Out :=
  .next (if s.iso (ring / 16) then s else stopRing s ring)

/-- A write of CMD_CQ_CFG. -/
def cqWrite (s : State) (q : Nat) (v : Word) : State :=
  let c := s.cq q
  let off := regOff (q / 16) 0x0E (0x808 + 0x40 * (q % 16))
  let w := v.toNat
  let c' := { c with
    link := bits w 18 16, vector := bits w 15 10, log2 := bits w 9 6, loc := bit w 1, enable := bit w 0 }
  if s.iso (q / 16) then s
  else if !v.getLsbD 0 then s.setCq q c'
  else if !c.enable && decide (c'.link < 4) && decide (c'.log2 ≤ 10) && !early s &&
      ringPlace s c'.loc c'.link c'.base (32 * 2 ^ (c'.log2 + 7)) then
    s.setCq q { c' with head := 0, tail := 0, phase := true, refused := false }
  else regDiscard s off q v

/-- CQ_ENABLE (R254). -/
def execCqEnable (cq : Nat) (v : Word) (s : State) : Out := .next (cqWrite s cq (v ||| 1))

/-- CQ_DISABLE (R254): its records are held. -/
def execCqDisable (cq : Nat) (s : State) : Out :=
  .next (if s.iso (cq / 16) then s else s.setCq cq { s.cq cq with enable := false })

/-- A write of CMD_CQ_PTR.HEAD. -/
def cqHead (s : State) (q : Nat) (v : W32) (at_ : Nat) (raw : Word) : State :=
  let c := s.cq q
  if s.iso (q / 16) then s
  else if (c.tail - v).toNat ≤ c.size then s.setCq q { c with head := v }
  else regDiscard s at_ q raw

/-- CQ_HEAD_WRITE (R254). -/
def execCqHeadWrite (cq : Nat) (v : W32) (s : State) : Out := .next (cqHead s cq v (regOff (cq / 16) 0x0E (0x810 + 0x40 * (cq % 16))) (v.setWidth 64))

/-- COMPLETION_RECORD_WRITE (R253, R254, R436). -/
def execCompletionRecordWrite (cq : Nat) (s : State) : Out :=
  if recReady s cq && !s.iso (cq / 16) then .next (recordWrite s cq)
  else .next s -- no record can be written

/-! ### TIMEOUT (R242) -/

/-- Whether an agent works for a command. -/
def worksFor (s : State) (ring : Nat) (seq : W32) : Agent → Bool
  | .cmd r q => r = ring && q = seq
  | .chunk fb car sl _ | .carFlag fb car sl => (s.slot fb car sl).job.any fun j => j.ring = ring && j.seq = seq
  | .thread n t => t != 0 && (s.core n).launch == some (ring, seq)
  | .aop n id => (s.core n).launch == some (ring, seq) && (s.core n).aops.any fun o => o.id = id && o.t ≠ 0
  | .image n => (s.core n).launch == some (ring, seq)
  | .mill _ => false

/-- Answer the unanswered faults of a command's work ABORT; those that stop with it are forgotten first. -/
def abortFaults (s : State) (p q : Agent → Bool) : State :=
  let ids := (s.xlt.faults.filter fun f => f.joined.any fun w => p w.agent).map (·.id)
  let s := (s.xlt.faults.flatMap fun f => f.joined.map (·.agent)).foldl (fun s a => if q a then forget s a else s) s
  answerFaults s (fun f => ids.contains f.id) false

/-- A command's TIMEOUT passes. DEDUCED: log entry 168. -/
def timeOut (s : State) (c : Cmd) : State :=
  let mine := worksFor s c.ring c.seq
  if c.op = 0x20 then
    (abortFaults (s.modCmd c.ring c.seq fun x => { x with stop := stTIMEOUT }) mine (fun _ => false)).modLaunch c.ring
      c.seq fun l => { l with stopped := true }
  else if [0x10, 0x11, 0x12].contains c.op then
    match s.car.slots.find? fun e => e.2.job.any fun j => j.ring = c.ring && j.seq = c.seq with
    | some (k, _) =>
      let fb := k / 48
      let car := k % 48 / 4
      let sl := k % 4
      let flag := agentWaits s (.carFlag fb car sl)
      let s := abortFaults s mine mine
      let x := s.slot fb car sl
      let s := s.setSlot fb car sl { x with noFlags := x.noFlags || flag }
      carPump (carFail s fb car sl ⟨x.next, stTIMEOUT, 0, false, false⟩) fb car
    | none =>
      finishSt { s with car := { s.car with
        queue := s.car.queue.filter fun e => !(e.2.2.ring = c.ring && e.2.2.seq = c.seq) } } c.ring c.seq stTIMEOUT 0
  else
    let s := forget (abortFaults s mine mine) (.cmd c.ring c.seq)
    let s := dropZlr s fun w => match w with
      | .cmd r q => r = c.ring && q = c.seq
      | _ => false
    finishSt s c.ring c.seq stTIMEOUT 0

/-- COMMAND_TIMEOUT (R242). -/
def execCommandTimeout (ring : Nat) (seq : W32) (s : State) : Out :=
  match s.cmd? ring seq with
  | some c =>
    if c.running && c.timeout != 0 && c.stop == 0 then .next (timeOut s c)
    else .next s -- the command has no TIMEOUT to pass
  | none => .next s -- no such command runs

end Sys2Proof.Machine
end

