-- ==== Sys2Proof/Machine/CommandRows.lean ====
section
/-! DEFINITION. The commands of chapters 10 and 16 that move data, wait, launch kernels, query, attest and stage firmware
(R246-R251, R378, R381-R384). -/

namespace Sys2Proof.Machine

/-- Do a job of the command a header names. -/
def doJob (s : State) (h : Hdr) (j : CmdJob) : State :=
  match s.cmd? h.ring h.seq with
  | some c => runJob s c j
  | none => s

/-- NOP (R246): its parameter slots are ignored. -/
def execNop (h : Hdr) (s : State) : Out :=
  command 0x00 h [] (fun _ => false) (fun s => finishSt s h.ring h.seq stDONE 0) s

/-- WRITE_INLINE (R250). -/
def execWriteInline (h : Hdr) (dst : Nat) (data : List Byte) (s : State) : Out :=
  command 0x13 h [(8, 8, dst), (16, 2, data.length), (64, data.length, leNat data)]
    (fun _ => data.isEmpty || decide (3968 < data.length)) (fun s => doJob s h (.writeInline dst data)) s

/-! ### WAIT, SIGNAL, BELL and FENCE (R249) -/

/-- FENCE: its ring's earlier commands have completed; it completes once their writes have reached its class. -/
def execFenceCmd (h : Hdr) (s : State) : Out :=
  command 0x30 h [] (fun _ => false) (fun s => doJob s h .fence) s

/-- WAIT: it starts to poll. -/
def execWait (h : Hdr) (cmp addr : Nat) (value : Word) (s : State) : Out :=
  command 0x31 h [(1, 1, cmp), (8, 8, addr), (16, 8, value.toNat)] (fun _ => decide (3 < cmp) || addr % 8 != 0)
    (fun s => doJob s h (.wait cmp addr value)) s

/-- A poll of a WAIT: it completes, polls on, or fails. -/
def waitPoll (s : State) (c : Cmd) (cmp addr : Nat) (v : Word) (hostVal : Option Word) : State :=
  let j : CmdJob := .wait cmp addr v
  afterAccess c j (fun s bs _ =>
      if pollHolds cmp (BitVec.ofNat 64 (leNat bs)) v then finishSt s c.ring c.seq stDONE 0 else park s c j)
    (pollRead s (cmdReq c.ring c.seq c.ctx) addr (HostVal.of hostVal))

/-- WAIT_POLL_READ (R285): `hostVal` is the word's value where it lies in host memory, none where the read is answered
Unsupported Request or Completer Abort (R230). -/
def execWaitPollRead (ring : Nat) (seq : W32) (hostVal : Option Word) (s : State) : Out :=
  match s.cmd? ring seq, s.host.parked.find? fun e => e.1 = ring && e.2.1 = seq with
  | some c, some (_, _, .wait cmp addr v) =>
    if agentWaits s (.cmd ring seq) then .next s -- the poll waits on a translation
    else .next (waitPoll s c cmp addr v hostVal)
  | _, _ => .next s -- no such WAIT runs

/-- SIGNAL. -/
def execSignal (h : Hdr) (op addr : Nat) (value : Word) (s : State) : Out :=
  command 0x32 h [(1, 1, op), (8, 8, addr), (16, 8, value.toNat)] (fun _ => decide (1 < op) || addr % 8 != 0)
    (fun s => doJob s h (.signal op addr value)) s

/-- BELL: it waits for a Bell sequence of a group of its context. -/
def execBellCmd (h : Hdr) (group : Nat) (bseq : W32) (s : State) : Out :=
  command 0x33 h [(1, 1, group), (4, 4, bseq.toNat)]
    (fun s => (s.group group).state == 0 || (s.group group).ctx != h.ctx)
    (fun s => bellCheck (doJob s h (.bell group bseq)) group) s

/-- QUERY (R251). -/
def execQuery (h : Hdr) (page dst : Nat) (s : State) : Out :=
  command 0x70 h [(1, 1, page), (8, 8, dst)] (fun _ => decide (4 < page) || dst % 256 != 0)
    (fun s => doJob s h (.query page dst)) s

/-! ### Launches (R248) -/

/-- Parameters of a LAUNCH that are out of range. -/
def launchBad (s : State) (threads : BitVec 16) (imageLen image entry : Nat) (cores : List Nat) : Bool :=
  threads &&& 0xFFFE == 0 || threads.getLsbD 0 || imageLen == 0 || imageLen % 8 != 0 || decide (49152 < imageLen) ||
  image % 8 != 0 || entry % 8 != 0 || decide (imageLen ≤ entry) || cores.any fun n => decide (4095 < n) || !inService s n

/-- Whether the segment of a DVA grants X. -/
def grantsX (s : State) (ctx dva : Nat) : Bool :=
  match findSeg s ctx dva with
  | some (_, d) => d.x
  | none => false

/-- LAUNCH: the kernel is handed to its cores; an image without the X right completes XLT_RIGHTS (DEDUCED, log entry 65). A
context that is being destroyed takes no new kernel (DEDUCED, log entry 56). -/
def execLaunch (h : Hdr) (threads : BitVec 16) (imageLen image entry : Nat) (arg : Word) (cores : List Nat)
    (s : State) : Out :=
  command 0x20 h
    [(2, 2, threads.toNat), (4, 4, imageLen), (8, 8, image), (16, 2, entry), (24, 8, arg.toNat),
      (64, 512, bitmapOf cores)]
    (fun s => (s.ctx h.ctx).closing || launchBad s threads imageLen image entry cores)
    (fun s =>
      if !grantsX s h.ctx image then finishSt s h.ring h.seq stRIGHTS image
      else { s with host := { s.host with
        launches := s.host.launches ++ [⟨h.ring, h.seq, h.ctx, threads, imageLen, image, entry, arg, cores, [], [], false⟩] } })
    s

/-- A launch takes no further core: it has a fault, or has been stopped. -/
def Launch.ending (s : State) (l : Launch) : Bool := l.stopped || !l.faults.isEmpty || (s.ctx l.ctx).state == 3

/-- The launch a core takes next: of those that name it, the one that started first. -/
def nextLaunch (s : State) (n : Nat) : Option Launch := s.host.launches.find? fun l => l.waiting.contains n

/-- The monitor has read the image: it stands in the instruction store from 0x4000, and the named threads start. -/
def startKernel (s : State) (n : Nat) (l : Launch) (img : List Byte) : State :=
  let start (c : Core) (i : Nat) : Core :=
    if l.threads.getLsbD (i + 1) then
      c.setThread (i + 1) { st := .ready, pc := BitVec.ofNat 16 (0x4000 + l.entry), s := tset 0 [] 1 l.arg }
    else c
  let s := s.modCore n fun c =>
    (List.range 15).foldl start { c with
      is_ := Memory.writeN c.is_ 0x4000 img
      isBad := (List.range (l.imageLen / 8)).foldl (fun b i => tset false b (0x800 + i) false) c.isBad }
  s.modLaunch l.ring l.seq fun l => { l with waiting := l.waiting.filter (· ≠ n), taken := l.taken ++ [n] }

/-- The monitor sets CORE_CTX and reads the image (R248). -/
def takeLaunch (s : State) (n : Nat) (l : Launch) : State :=
  let s := s.modCore n fun c => { c with launch := some (l.ring, l.seq), ctx := l.ctx }
  match accessRead s ⟨coreFb n, corePort n, l.ctx, .image n⟩ 3 l.image l.imageLen with
  | .waits s | .stops s .wait => s
  | .stops s (.rights a) => imageFail s n cRIGHTS stRIGHTS a
  | .stops s (.hostLost a) => imageFail s n cHOST stHOSTLOST a
  | .stops s (.aborted a) => imageFail s n cABORTED stABORTED a
  | .fails s f => imageFail s n f.cause f.cstatus f.dpa
  | .done s img _ => startKernel s n l img

/-- LAUNCH_CORE_TAKE: it happens again after a walk or a fault that the image read waited on. -/
def execLaunchCoreTake (n : Nat) (s : State) : Out :=
  match nextLaunch s n with
  | none => .next s -- no launch waits for the core
  | some l =>
    let c := s.core n
    if l.ending s || ctxHeld s l.ctx || c.reset || c.monFault || s.iso (coreFb n) || !inService s n ||
        !(c.launch == none || c.launch == some (l.ring, l.seq)) || agentWaits s (.image n) then
      .next s -- the core cannot take the launch
    else .next (takeLaunch s n l)

/-- Kernel threads of a launch's cores. -/
def launchThreads (s : State) (l : Launch) : List (Nat × Nat × Thread) :=
  l.taken.flatMap fun n => (List.range 15).map fun i => (n, i + 1, s.thr n (i + 1))

/-- Operations of its threads that are neither counted nor failed. -/
def launchOps (s : State) (l : Launch) : Bool :=
  l.taken.any fun n => (s.core n).aops.any fun o => o.t ≠ 0 && (match o.kind with
    | .pref _ => false
    | _ => true)

/-- Links that carried its threads' host writes. -/
def launchLinks (s : State) (l : Launch) : List Nat :=
  (launchThreads s l).foldl (fun ls e => addLinks ls e.2.2.hostLinks) []

/-- The monitors hold the launch's threads; cores that have not taken it never do (DEDUCED, log entry 34). -/
def holdLaunch (s : State) (l : Launch) : State :=
  let s := l.taken.foldl (fun s n => (List.range 15).foldl (fun s i => s.modThr n (i + 1) holdThread) s) s
  let s := l.waiting.foldl (fun s n => if (s.core n).launch = some (l.ring, l.seq) then clearCore s n else s) s
  s.modLaunch l.ring l.seq fun l => { l with waiting := [] }

/-- The status a launch completes with, where it is not its faults'. -/
def launchStatus (s : State) (l : Launch) (c : Cmd) : Option Nat :=
  if c.stop ≠ 0 then some c.stop else if (s.ctx l.ctx).state = 3 then some stDIELOST else none

/-- LAUNCH_COMPLETE: threads of a launch that ends early are held first; at GLOBAL a zero-length read follows on each
link its threads wrote.  The kernels of a context that a host loss destroys have no command any longer, and stop likewise
(R256). -/
def execLaunchComplete (ring : Nat) (seq : W32) (s : State) : Out :=
  match s.launch? ring seq, (s.cmd? ring seq).getD { ring := ring, op := 0x20, seq := seq } with
  | some l, c =>
    let ths := launchThreads s l
    if l.ending s then
      if !l.waiting.isEmpty || ths.any fun e => !(stopped e.2.2) && !e.2.2.holdReq then .next (holdLaunch s l)
      else if ths.any (fun e => !stopped e.2.2) || launchOps s l then
        .next s -- its threads have not stopped, or their operations have not counted
      else .next (launchDone s l (launchStatus s l c))
    else if !l.waiting.isEmpty || ths.any (fun e => e.2.2.st != .off) || launchOps s l then
      .next s -- a thread or an operation of the launch runs
    else if ths.any fun e => opsPending s e.1 e.2.1 c.vis then
      .next s -- its writes have not reached their visibility point
    else
      let zs := zlrLinks s (launchLinks s l)
      if c.vis = 2 ∧ c.value = 0 ∧ zs ≠ [] then
        .next (issueZlr (s.modCmd ring seq fun c => { c with links := zs, value := 1 }) (.cmd ring seq) zs)
      else if !c.links.isEmpty then .next s -- a zero-length read of the launch is out
      else .next (launchDone s l none)
  | _, _ => .next s -- no such LAUNCH runs

/-- KERNEL_STOP: the LAUNCH completes with STOPPED once its threads are held. -/
def execKernelStop (h : Hdr) (ring : Nat) (target : W32) (s : State) : Out :=
  command 0x21 h [(1, 1, ring), (4, 4, target.toNat)]
    (fun s => match s.launch? ring target with
      | some l => l.ctx != h.ctx
      | none => true)
    (fun s => finishSt (s.modLaunch ring target fun l => { l with stopped := true }) h.ring h.seq stDONE 0) s

/-! ### ATTEST and staging (R378, R381-R384) -/

/-- Length of a part of ATTEST (R379). -/
def attestLen (part : Nat) : Nat := if part = 0 then 1024 else chainBytes.length

/-- ATTEST. -/
def execAttest (h : Hdr) (part dst dstLen : Nat) (nonce : List Byte) (s : State) : Out :=
  command 0x80 h [(1, 1, part), (8, 8, dst), (16, 4, dstLen), (32, 32, leNat nonce)]
    (fun _ => decide (1 < part) || dst % 256 != 0 || decide (dstLen < attestLen part) || (part == 1 && leNat nonce != 0))
    (fun s => doJob s h (.attest part dst dstLen nonce)) s

/-- An operation of FW_STAGE: its parameters, then whether SEC_STATUS.STAGE permits it (R14, R382). -/
def fwStage (op : Nat) (h : Hdr) (fs : List (Nat × Nat × Nat)) (bad : State → Bool) (stages : List Nat)
    (run : State → State) (s : State) : Out :=
  command 0x81 h ((1, 1, op) :: fs) bad
    (fun s => if stages.contains s.sec.stage then run s else finishSt s h.ring h.seq stRESOURCE 0) s

/-- FW_STAGE_OPEN. -/
def execFwStageOpen (h : Hdr) (slot : Nat) (s : State) : Out :=
  fwStage 0 h [(2, 1, slot)] (fun s => decide (1 < slot) || slot == s.boot.slot) [0]
    (fun s => finishSt (stageOpen s slot 1) h.ring h.seq stDONE 0) s

/-- A slot's size. -/
def slotSize : Nat := 0x6000000

/-- OFFSET and LENGTH of a WRITE. -/
def stageRange (off len : Nat) : Bool :=
  off % 256 == 0 && len % 256 == 0 && decide (256 ≤ len) && decide (len ≤ 2 ^ 24) && decide (off + len ≤ slotSize)

/-- FW_STAGE_WRITE. -/
def execFwStageWrite (h : Hdr) (off len src : Nat) (s : State) : Out :=
  fwStage 1 h [(4, 4, off), (8, 4, len), (16, 8, src)]
    (fun s => !stageRange off len || (s.sec.stage == 1 && stageWritten s off len)) [1]
    (fun s => doJob s h (.fwWrite off len src)) s

/-- FW_STAGE_COMMIT. -/
def execFwStageCommit (h : Hdr) (s : State) : Out :=
  fwStage 2 h [] (fun _ => false) [1]
    (fun s =>
      let r := stageCommit s
      finishSt r.1 h.ring h.seq (if r.2 then stDONE else stBADPARAM) 0) s

/-- FW_STAGE_CANCEL. -/
def execFwStageCancel (h : Hdr) (s : State) : Out :=
  fwStage 3 h [] (fun _ => false) [1, 3] (fun s => finishSt (stageCancel s) h.ring h.seq stDONE 0) s

/-- FW_STAGE_RATIFY. -/
def execFwStageRatify (h : Hdr) (s : State) : Out :=
  fwStage 5 h [] (fun s => s.sec.stage == 0 && !ratifyOk s) [0]
    (fun s => finishSt { s with sec := { s.sec with ratify := true } } h.ring h.seq stDONE 0) s

/-- OWNER_ENROLL (R384). -/
def execOwnerEnroll (h : Hdr) (len src : Nat) (s : State) : Out :=
  fwStage 6 h [(8, 4, len), (16, 8, src)] (fun _ => len != 171) [0] (fun s => doJob s h (.enroll len src)) s

end Sys2Proof.Machine
end

