-- ==== Sys2Proof/Machine/Clocks.lean ====
section
/-! DEFINITION. Clocks of clusters and base fabrics (R22, R394, R395, R398, R405).  Frequencies are in 25 MHz; the unit
`u` of an FB is 0 for its base fabric and j + 1 for its SC j. -/

namespace Sys2Proof.Machine

/-- The level on the emergency lines: the highest that any source requests (R394). -/
def emergency (s : State) : Nat := max (b2n s.pwr.uvWarn) s.pwr.limReq

/-- L (R396). -/
def limitW (s : State) : Nat := min s.pwr.capW (min s.pwr.ceilingW 3600)

/-- The throttle step of die `d` of an FB. -/
def throttleStep (s : State) (fb d : Nat) : Nat := tget 0 s.thm.step (8 * fb + d)

/-- The thermal ceiling of a step (R405), and its duty: 0 100 %, 1 75 %, 2 50 %, 3 25 %. DEDUCED: log entry 27. -/
def stepCeiling (k : Nat) : Nat := if k = 0 then 48 else if k = 1 then 36 else 24
def stepDuty (k : Nat) : Nat := k - 2

/-- The emergency ceiling of a unit, and the duty of SC clusters: 4 issue stopped (R394). -/
def emergencyCeiling (s : State) (u : Nat) : Nat :=
  if (if u = 0 then 2 else 1) ≤ emergency s then 24 else 48
def emergencyDuty (s : State) : Nat := if emergency s = 3 then 4 else if emergency s = 2 then 2 else 0

/-- The frequency a die chooses under its budget: the part's own choice, 0.6 to 1.2 GHz (R393). -/
def budgetFreq (s : State) (fb u : Nat) : Nat :=
  match (s.pwr.budget.find? fun e => e.1 = 8 * fb + u) with
  | some e => 24 + Config.budgetFreq e.2 % 25
  | none => 48

/-- FMAX of an FB's SC clusters. -/
def fmaxOf (s : State) (fb : Nat) : Nat := tget 48 s.clk.fmax fb

/-- The effective ceiling of a unit, its budget apart (CLK_SC.CEILING). -/
def ceilingOf (s : State) (fb u : Nat) : Nat :=
  min (if u = 0 then 48 else fmaxOf s fb) (min (stepCeiling (throttleStep s fb u)) (emergencyCeiling s u))

/-- The clock a unit runs at once its rail allows (R395). -/
def targetFreq (s : State) (fb u : Nat) : Nat := min (budgetFreq s fb u) (ceilingOf s fb u)

/-- CLK_SC.DUTY: the lowest of the thermal and emergency duties. -/
def dutyOf (s : State) (fb u : Nat) : Nat := max (stepDuty (throttleStep s fb u)) (emergencyDuty s)

/-- A unit's clock, 0 where it is off. -/
def freqOf (s : State) (fb u : Nat) : Nat := tget 0 s.clk.freq (8 * fb + u)
def setFreq (s : State) (fb u f : Nat) : State :=
  { s with clk := { s.clk with freq := tset 0 s.clk.freq (8 * fb + u) f } }

/-- Clocks above what now bounds them are lowered (R394, R398); higher ones wait for CLOCK_RAISE_DONE. -/
def lowerClocks (s : State) : State :=
  (List.range 20).foldl (fun s i =>
    let fb := i / 5
    let u := i % 5
    if targetFreq s fb u < freqOf s fb u then setFreq s fb u (targetFreq s fb u) else s) s

/-- The FB and unit of an SC. -/
def scUnit (sc : Nat) : Nat × Nat := (sc / 4, sc % 4 + 1)

/-- Running clusters of an SC, and whether cluster `k` runs. -/
def runningOf (s : State) (sc : Nat) : Nat := tget 0 s.clk.running sc
def clusterRuns (s : State) (sc k : Nat) : Bool := bit (runningOf s sc) k

/-- PWR_DIE.RAIL of die `d`: 0 OFF 1 ON 2 RETENTION 3 FAULT. -/
def railOf (s : State) (fb d : Nat) : Nat := tget 0 s.pwr.rail (8 * fb + d)
def setRail (s : State) (fb d v : Nat) : State := { s with pwr := { s.pwr with rail := tset 0 s.pwr.rail (8 * fb + d) v } }

/-- An SC sleeps (R399): its cluster rails are at retention and its PLL is off. -/
def scSleeps (s : State) (sc : Nat) : Bool := railOf s (sc / 4) (sc % 4 + 1) = 2

end Sys2Proof.Machine
end

