-- ==== Sys2Proof/Machine/GranaryRows.lean ====
section
/-! DEFINITION. The Granary's commands and events (chapter 05): bank accesses, enabling, partition and the Region
Attribute Table. -/

namespace Sys2Proof.Machine

/-- GRANARY_BANK_ACCESS (R116-R128): `ecc` is what the code says of the line where the array is read; a write of the
whole line never reads it (R128); `bad` are lines of its way that cannot be read where the way is disabled (R129). -/
def execGranaryBankAccess (dpa len : Nat) (wr : Bool) (data : List Byte) (ecc : Ecc) (bad : List Nat) (s : State) : Out :=
  let full := wr && data.length = 256
  match (if full then (s, none) else granaryEcc s dpa ecc bad) with
  | (s, some f) => .next (s.setResp (.fail f.status f.dpa))
  | (s, none) =>
    if wr then
      match lineWrite s dpa data with
      | (_, some (.held _)) => .next s -- the access is held at its home
      | (s, some f) => .next (s.setResp (.fail f.status f.dpa))
      | (s, none) => .next (s.setResp .ok)
    else
      match lineRead s dpa len with
      | (_, .error (.held _)) => .next s -- the access is held at its home
      | (s, .error f) => .next (s.setResp (.fail f.status f.dpa))
      | (s, .ok bs) => .next (s.setResp (.data bs))

/-- BANK_ATOMIC (R131). -/
def execBankAtomic (dpa op : Nat) (b c : Word) (s : State) : Out :=
  match memAtom s dpa op b c with
  | (_, .error (.held _)) => .next s -- the access is held at its home
  | (s, .error f) => .next (s.setResp (.fail f.status f.dpa))
  | (s, .ok old) => .next (s.setResp (.data (leBytes 8 old.toNat)))

/-- GRANARY_PATROL_SCRUB (R126). -/
def execGranaryPatrolScrub (dpa : Nat) (ecc : Ecc) (bad : List Nat) (s : State) : Out :=
  if (s.grn (homeFb dpa)).scrub && !s.iso (homeFb dpa) then .next (granaryEcc s dpa ecc bad).1
  else .next s -- the scrub does not run in that FB

/-! ### Enable and disable (R124, R125) -/

/-- A write of GRN_CTRL.ENABLE takes effect, or is latched while a sweep or switch runs. -/
def grnEnable (s : State) (fb : Nat) (on : Bool) : State :=
  let g := { s.grn fb with enable := on }
  s.setGrn fb (if g.state = 0 ∧ on then { g with state := 1 } else if g.state = 1 ∧ !on then { g with state := 2 } else g)

/-- GRANARY_ENABLE (R124). -/
def execGranaryEnable (fb : Nat) (s : State) : Out := .next (if s.iso fb then s else grnEnable s fb true)

/-- GRANARY_DISABLE (R124). -/
def execGranaryDisable (fb : Nat) (s : State) : Out := .next (if s.iso fb then s else grnEnable s fb false)

/-- REPARTITION begins. -/
def grnRepartition (g : Grn) (w : Nat) : Grn :=
  { g with state := 3, from_ := g.state, target := w, switched := [], penPart := none }

/-- What was latched during a sweep or switch takes effect (R125): a disable first sweeps. -/
def grnLatched (g : Grn) : Grn :=
  let g := if g.state = 0 ∧ g.enable then { g with state := 1 } else if g.state = 1 ∧ !g.enable then { g with state := 2 }
    else g
  match g.penPart with
  | some w => if g.state = 2 then g else grnRepartition g w
  | none => g

/-- FLUSH_SWEEP_END (R124): `bad` are dirty lines that the sweep could not read. DEDUCED: log entry 66. -/
def execFlushSweepEnd (fb : Nat) (bad : List Nat) (s : State) : Out :=
  if (s.grn fb).state ≠ 2 then .next s -- no sweep runs
  else
    let s := findBad s (bad.filter fun l => isDev (256 * l) && homeQ (256 * l) = fb)
    let s := (s.dram.lines.filter fun e => homeQ (256 * e.1) = fb).foldl (fun s e => evict s e.1) s
    .next (s.setGrn fb (grnLatched { s.grn fb with state := 0 }))

/-! ### Partition (R117, R119) -/

/-- MAX_SCRATCH_WAYS (R130, R359). -/
def maxScratch (s : State) (fb : Nat) : Nat :=
  ((List.range 64).foldl (fun m b => min m (goodWays (s.bank fb b))) 16) / 2 * 2

/-- A write of GRN_PART. -/
def grnPart (s : State) (fb : Nat) (v : Word) : State :=
  let w := bits v.toNat 4 0
  let g := s.grn fb
  if w % 2 = 1 ∨ 16 < w ∨ maxScratch s fb < w ∨ (fb = 0 ∧ w < 2) then regDiscard s (regOff fb 0x07 0x10) 0 v
  else
    let g := { g with part := w }
    s.setGrn fb (if g.state < 2 then grnRepartition g w else { g with penPart := some w })

/-- GRN_PART_WRITE (R119). -/
def execGrnPartWrite (fb : Nat) (v : Word) (s : State) : Out := .next (if s.iso fb then s else grnPart s fb v)

/-- The lines of a logical scratch way read zero, and none is LOST. -/
def zeroScrWay (s : State) (fb b u : Nat) : State :=
  { s with
    mem := s.mem.filter fun c => !inScrWay fb b u c.1
    dram := { s.dram with lost := s.dram.lost.filter fun e => !inScrWay fb b u (256 * e.1) } }

/-- A bank goes from its partition to `w`: it grows way by way, or returns ways to the cache. -/
def switchBank (s : State) (fb b w : Nat) : State :=
  let old := (s.bank fb b).w
  let s := ((List.range 16).filter fun u => decide (old ≤ u) && decide (u < w)).foldl (fun s u =>
    zeroScrWay (if absentBank (s.bank fb b) then unbackWay s fb b u else backWay s fb b u) fb b u) s
  let s := ((List.range 16).filter fun u => decide (w ≤ u) && decide (u < old)).foldl (fun s u =>
    let x := s.bank fb b
    zeroScrWay (s.setBank fb b { x with scr := tdel x.scr u, unbacked := x.unbacked.filter (· ≠ u) }) fb b u) s
  s.setBank fb b { s.bank fb b with w := w }

/-- REPARTITION_BANK_SWITCH (R119): `bad` are dirty lines that the bank could not read. -/
def execRepartitionBankSwitch (fb b : Nat) (bad : List Nat) (s : State) : Out :=
  let g := s.grn fb
  if g.state ≠ 3 ∨ g.switched.contains b then .next s -- the bank has no switch to make
  else
    let s := findBad s (bad.filter fun l => isDev (256 * l) && homeQ (256 * l) = fb && devBank (256 * l) = b)
    let s := switchBank s fb b g.target
    let done := g.switched ++ [b]
    .next (s.setGrn fb (if done.length = 64 then
      grnLatched { g with state := g.from_, w := g.target, switched := [] } else { g with switched := done }))

/-! ### The Region Attribute Table (R121, R122) -/

/-- The staged entry. -/
def stagedRat (c : RatCmd) : Rat :=
  let a := c.stageAttr.toNat
  { base := bits c.stageBase.toNat 39 20, limit := bits a 59 40, valid := bit a 15, peerWr := bit a 12,
    vis := bits a 9 8, rclass := bits a 6 4, policy := bits a 2 0 }

/-- A reserved bit of the staging registers is set. -/
def ratReserved (c : RatCmd) : Bool :=
  c.stageBase &&& 0xFFFFFF00000FFFFF#64 != 0 || c.stageAttr &&& 0xF00000FFFFFF6C88#64 != 0

/-- Check 1 of R122: RESULT of a refused update. -/
def ratCheck (c : RatCmd) (idx : Nat) : Option Nat :=
  let r := stagedRat c
  if ratReserved c then some 0x0103
  else if 64 < idx ∨ 4 < r.policy ∨ r.vis = 3 ∨ (idx < 64 ∧ r.valid ∧ r.limit < r.base) then some 0x0102
  else none

/-- MiB granules where the policy of a table can change. -/
def ratPoints (s : State) : List Nat :=
  0 :: s.dram.rat.flatMap fun e => [e.2.base, e.2.limit + 1]

/-- Whether two states' tables give some address another policy. -/
def policyDiffers (s t : State) : Bool :=
  (ratPoints s ++ ratPoints t).any fun m => (ratOf s (m * 2 ^ 20)).policy ≠ (ratOf t (m * 2 ^ 20)).policy

/-- Range of an entry, in MiB; the default entry's is every address. -/
def ratRange (r : Rat) (idx : Nat) : List (Nat × Nat) :=
  if idx = 64 then [(0, 2 ^ 20 - 1)] else if r.valid then [(r.base, r.limit)] else []

/-- A write of GRN_RAT_CMD. -/
def ratUpdate (s : State) (v : Word) (at_ : Nat) (raw : Word) : State :=
  let c := s.dram.ratCmd
  let idx := bits v.toNat 6 0
  let set (s : State) (c : RatCmd) : State := { s with dram := { s.dram with ratCmd := c } }
  if c.busy then regDiscard s at_ 0 raw
  else if !bit v.toNat 9 then set s { c with index := idx }
  else match ratCheck c idx with
    | some e => set s { c with index := idx, result := e }
    | none =>
      let r := stagedRat c
      let old := if idx = 64 then s.dram.ratDefault else tget {} s.dram.rat idx
      let t := if idx = 64 then
          { s with dram := { s.dram with ratDefault := { r with base := 0, limit := 0, valid := false } } }
        else { s with dram := { s.dram with rat := tset {} s.dram.rat idx r } }
      set t { c with index := idx, busy := true
                     hold := if policyDiffers s t then ratRange old idx ++ ratRange r idx else []
                     old := s.dram.parked, oldHome := s.xlt.atHome
                     oldInj := (s.msh.inj.filter fun i => (ratRange old idx).any fun r =>
                       decide (r.1 ≤ i.dpa / 2 ^ 20) && decide (i.dpa / 2 ^ 20 ≤ r.2)).map fun i => (i.fb, i.port, i.tag) }

/-- RAT_UPDATE (R122). -/
def execRatUpdate (v : Word) (s : State) : Out := .next (ratUpdate s v (regOff 0 0x07 0x30) v)

/-- Whether an access that was looked up under the old entry is not complete (R122, step 4). -/
def ratWaits (s : State) : Bool :=
  (s.dram.ratCmd.old.any s.dram.parked.contains) || s.dram.ratCmd.oldHome.any s.xlt.atHome.contains ||
  s.dram.ratCmd.oldInj.any fun k => s.msh.inj.any fun i => (i.fb, i.port, i.tag) = k

/-- RAT_UPDATE_DONE (R122): the sweep has written back and invalidated every line of the ranges, but for lines `bad` that it
could not read; the update ends once every access of the old entry has completed. -/
def execRatUpdateDone (bad : List Nat) (s : State) : Out :=
  let c := s.dram.ratCmd
  if !c.busy then .next s -- no update runs
  else
    let s := findBad s (bad.filter fun l => ratHeld s (256 * l))
    let s := (s.dram.lines.filter fun e => ratHeld s (256 * e.1)).foldl (fun s e => evict s e.1) s
    let s := unhold { s with dram := { s.dram with ratCmd := { c with hold := [] } } }
    if ratWaits s then .next s -- an access of the old entry is still held
    else .next { s with dram := { s.dram with
      ratCmd := { s.dram.ratCmd with busy := false, result := 0, hold := [], old := [], oldHome := [], oldInj := [] } } }

end Sys2Proof.Machine
end

