-- ==== Sys2Proof/Machine/HbmRows.lean ====
section
/-! DEFINITION. The memory controllers' commands and events (chapter 06). -/

namespace Sys2Proof.Machine

/-- A controller reads one burst for a requester or for the scrub; none where the burst is held. -/
def readBurst (s : State) (a : Nat) (ecc : Ecc) (laneErr : Bool) : Option (State × Except Fail (List Byte)) :=
  let b := a / 64
  if burstHeld s b then none
  else if burstStops s false b then
    let (s, f) := burstStop s b
    some (s, .error f)
  else
    let s := wakeStack s (64 * b)
    match burstEcc s (64 * b) ecc laneErr with
    | (s, some f) => some (s, .error f)
    | (s, none) => some (s, .ok (Memory.readN s.mem (64 * b) 64))

/-- MEMORY_READ (R138-R141): one burst. -/
def execMemoryRead (dpa : Nat) (ecc : Ecc) (laneErr : Bool) (s : State) : Out :=
  if !isDev dpa || s.iso (homeQ dpa) then .next s -- no controller of this module serves the address
  else match readBurst s dpa ecc laneErr with
    | none => .next s -- the burst is held
    | some (s, .error f) => .next (s.setResp (.fail f.status f.dpa))
    | some (s, .ok bs) => .next (s.setResp (.data bs))

/-- What the codes say of the bursts that a write merges into, in order: counted up to the first that is uncorrectable, at
which the write fails (R138-R140). -/
def mergeEcc : State → List (Nat × Ecc) → State × Option Fail
  | s, [] => (s, none)
  | s, (b, e) :: bs =>
    match burstEcc s (64 * b) e false with
    | (s, some f) => (s, some f)
    | (s, none) => mergeEcc s bs

/-- MEMORY_WRITE (R140-R142): `eccs` is what the codes say of each burst that the write covers in part, in order. -/
def execMemoryWrite (dpa : Nat) (data : List Byte) (eccs : List Ecc) (s : State) : Out :=
  let n := data.length
  let bs := burstsOf dpa n
  let parts := bs.filter fun b => !coversBurst dpa n b
  let merge (s : State) : State × Option Fail := mergeEcc s (parts.zip eccs)
  if !isDev dpa || s.iso (homeQ dpa) then .next s -- no controller of this module serves the address
  else if bs.any (burstHeld s) then .next s -- a burst is held
  else
    match (if bs.any fun b => burstStops s (coversBurst dpa n b) b then (s, none) else merge s) with
    | (s, some f) => .next (s.setResp (.fail f.status f.dpa))
    | _ =>
      match dramWrite s dpa data with
      | (s, some f) => .next (s.setResp (.fail f.status f.dpa))
      | (s, none) => .next ((merge s).1.setResp .ok)

/-- A row repair ends (R142, R143): its column bursts `fixed` were corrected and `bad` could not be read, nor could those that
have failed before; these become LOST, and the row stands in a spare row. DEDUCED: log entry 146. -/
def finishRow (s : State) (r : Nat) (fixed bad : List Nat) : State :=
  let burst (c : Nat) : Nat := (rowAddr r + 128 * c) / 64
  let q := homeQ (rowAddr r)
  let s := ((fixed.eraseDups.filter fun c => decide (c < 32) && !bad.contains c)).foldl (fun s c => countCe s (64 * burst c)) s
  let fresh := bad.eraseDups.filter fun c => decide (c < 32) && !burstBad s (burst c)
  let s := fresh.foldl (fun s c => countUe (noteUe s (64 * burst c)) (64 * burst c)) s
  let s := ((List.range 32).filter fun c => bad.contains c || s.badBurst (burst c)).foldl
    (fun s c => (s.setBadBurst (burst c) false).setLostBurst (burst c) true) s
  let h := s.hbm q
  let s := s.setHbm q { h with rowsRepaired := satInc (2 ^ 20 - 1) h.rowsRepaired }
  let s := { s with dram := { s.dram with
    repairing := s.dram.repairing.filter (· ≠ r)
    rowDone := tset false s.dram.rowDone r true
    rowCe := tset 0 s.dram.rowCe r 0 } }
  recordRow s (rowUnit r)

/-- ROW_REPAIR_DONE (R142, R143). -/
def execRowRepairDone (dpa : Nat) (fixed bad : List Nat) (s : State) : Out :=
  if s.dram.repairing.contains (rowOf dpa) then .next (unhold (finishRow s (rowOf dpa) fixed bad))
  else .next s -- the row is not under repair

/-- MEMORY_PATROL_SCRUB (R144). -/
def execMemoryPatrolScrub (dpa : Nat) (ecc : Ecc) (laneErr : Bool) (s : State) : Out :=
  if !isDev dpa || s.iso (homeQ dpa) || !(s.hbm (homeQ dpa)).scrub then
    .next s -- the scrub does not run at that address
  else match readBurst s dpa ecc laneErr with
    | none => .next s -- the burst is held
    | some (s, _) => .next s

/-- The rate of refresh and the throttle after a reading (R145, R147). -/
def Stack.read (k : Stack) (temp : Nat) : Stack :=
  { k with
    temp := temp, firstRead := true
    refresh2x := if 85 ≤ temp then true else if temp < 80 then false else k.refresh2x
    throttled := if 95 ≤ temp then true else if temp < 90 then false else k.throttled }

/-- STACK_TEMPERATURE_READ (R145, R147). DEDUCED: log entry 108. -/
def execStackTemperatureRead (stack temp : Nat) (s : State) : Out :=
  .next (s.setStack stack ((s.stack stack).read temp))

/-- REFRESH_INTERVAL (R145, R146). -/
def execRefreshInterval (stack : Nat) (s : State) : Out :=
  let k := s.stack stack
  if k.state = 0 ∨ k.state = 4 then .next s -- the stack is off
  else .next (s.setStack stack { k with intervals := k.intervals + (if k.refresh2x then 2 else 1) })

/-- A channel is retired (R150): recorded, and the module is DEGRADED. -/
def retireChan (s : State) (q c : Nat) : State :=
  let s := s.setChan q c { s.chan q c with state := 3, was := 0 }
  updateDegraded (newlyBad (ev s 0x0313 q 0x08 c c 0) ⟨6, q, c⟩)

/-- CHANNEL_RETRAIN_DONE (R149, R150): `result` 0 trained at 10.0 Gb/s, 1 at 8.0 Gb/s, else at neither. -/
def execChannelRetrainDone (q c result lanes : Nat) (s : State) : Out :=
  let x := s.chan q c
  if x.state ≠ 2 then .next s -- the channel does not retrain
  else
    let stepped := x.was = 1
    let y := { x with lanes := lanes, was := 0 }
    let s := if result = 0 ∨ result = 1 then
        let t := s.setChan q c { y with state := if stepped || result = 1 then 1 else 0 }
        if result = 1 && !stepped then ev t 0x0312 q 0x08 c c x.laneErr else t
      else retireChan (s.setChan q c y) q c
    .next (unhold s)

/-- SELF_REFRESH_ENTRY (R151). -/
def execSelfRefreshEntry (stack : Nat) (s : State) : Out :=
  let k := s.stack stack
  let h := s.hbm (stack / 2)
  if k.state = 2 && h.srIdle != 0 && !h.scrub then .next (s.setStack stack { k with state := 3 })
  else .next s -- the stack does not enter self-refresh

/-- SELF_REFRESH_EXIT (R151). -/
def execSelfRefreshExit (stack : Nat) (s : State) : Out :=
  let k := s.stack stack
  if k.state = 3 then .next (s.setStack stack { k with state := 2 })
  else .next s -- the stack is not in self-refresh

/-- MEMORY_ZEROING_DONE (R152, R365). -/
def execMemoryZeroingDone (s : State) : Out :=
  if !s.dram.zeroing then .next s -- no zeroing runs
  else
    let s := zeroDevice s
    .next (settleLoss (unhold (writeC0Pages { s with dram := { s.dram with zeroing := false } })))

end Sys2Proof.Machine
end

