-- ==== Sys2Proof/Machine/Start.lean ====
section
/-! DEFINITION. Starts (chapter 15: R347-R367; R153, R154, R180, R382, R384, R385): what a cold and a warm start keep, what
each step does, and what a failing step leads to. -/

namespace Sys2Proof.Machine

/-! ### What survives -/

/-- What flash, the fuses and the stacks' spare rows keep without power; PERST# pins and host memory are the host's, and
the queue and the counter of free values are the model's own. A soft row repair lasts where the soft record holds it
(R143). -/
def keepFlash (s : State) : State :=
  let row (e : Nat × Bool) : Bool := s.boot.soft.any fun u => u.unit = rowUnit e.1
  { State.reset with
    hostMem := s.hostMem, free := s.free, pending := s.pending
    host := { State.reset.host with
      links := s.host.links.filterMap fun e => if e.2.perst then some (e.1, { perst := true }) else none }
    dram := { State.reset.dram with rowDone := s.dram.rowDone.filter row }
    boot := { State.reset.boot with fuse := s.boot.fuse, soft := s.boot.soft, slots := s.boot.slots }
    sec := { State.reset.sec with
      rollback := s.sec.rollback, ownerSet := s.sec.ownerSet, vendorKey := s.sec.vendorKey, ownerKey := s.sec.ownerKey
      ratify := s.sec.ratify, enroll := s.sec.enroll } }

/-- The input has fallen through 34.0 V: no domain runs (R390). -/
def powerOff (s : State) : State :=
  let t := keepFlash s
  { t with boot := { t.boot with inputFell := true } }

/-- What the always-on domains keep besides, while the input is up: the Meridian (R402), the input monitor and limiter,
temperatures and the trip record (R406), and the counts of the run; the lowest sample of an undervoltage episode that
still runs stays with it. DEDUCED: log entry 137. -/
def keepAlways (s : State) : State :=
  let t := keepFlash s
  { t with
    pwr := { s.pwr with
      limitTrips := 0, budget := [], draw := [], capW := s.pwr.ceilingW, uvMin := if s.pwr.uvWarn then s.pwr.uvMin else 0 }
    thm := { s.thm with autoRestart := false, peak := s.thm.temp }
    mer := { s.mer with slew := 0 }
    boot := { t.boot with
      starts := s.boot.starts, cause := s.boot.cause, inputFell := s.boot.inputFell } }

/-- Every rail but the always-on supply is removed (R391, R406). -/
def railsLost (s : State) : State :=
  let t := keepAlways s
  { t with pwr := { t.pwr with railsOff := true, rail := [], capW := 3600, ceilingW := 3600 } }

/-- Units that the map disables from the beginning of a start (R355): the fuse part and the soft record, but for repaired
rows. -/
def mapDisabled (s : State) : List TitheUnit :=
  s.boot.fuse ++ ((s.boot.soft.map (·.unit)).filter fun u => u.kind ≠ 9 && !s.boot.fuse.contains u)

/-- What a cold start begins from (R6, R349, R353): the Reset column, with step 1 running. -/
def coldStart (s : State) (cause : Nat) (escalated : Bool) (stepFail : Nat) : State :=
  let t := keepAlways s
  { t with
    pwr := { t.pwr with railsOff := false, capW := 3600, ceilingW := 3600 }
    boot := { t.boot with
      phase := 1, cause := cause, escalated := escalated, stepFail := stepFail, starts := satInc (2 ^ 32 - 1) s.boot.starts
      toRecovery := s.boot.recoveryNext, disabled := mapDisabled s } }

/-- A warm start's entry begins (R348, R416): queued events go to their ring, bus mastering is cut, the links are down, and
every context is destroyed with no record written. -/
def warmStart (s : State) : State :=
  let s := drainEvents s
  let s := destroyAll s ((tkeys s.xlt.ctxs).filter fun c => c ≠ 0 && (s.ctx c).state ≠ 0)
  let s := { s with host := { s.host with
    links := (tkeys s.host.links).foldl (fun t l => tmod {} t l fun k => { k with
      up := false, retraining := false, speed := 0, width := 0, busMaster := false, loss := 0, lossReset := false
      reads := [], zlr := [] }) s.host.links } }
  { s with
    lock := false
    boot := { s.boot with
      phase := 11, warm := true, escalated := false, stepFail := 0, starts := satInc (2 ^ 32 - 1) s.boot.starts
      toRecovery := s.boot.recoveryNext, recoveryNext := false, stepUs := [], newBad := 0, release := [], retried := [] } }

/-- The end of a warm entry: dirty lines are written back, the stacks refresh themselves, and every base fabric and
SC is reset; what the chapters keep through a warm start stays (R123, R128, R143, R153, R353 and the registers' own
words). DEDUCED: log entry 84. -/
def warmReset (s : State) : State :=
  let s := (tkeys s.dram.lines).foldl evict s
  let s := s.dram.repairing.foldl (fun s r => finishRow s r [] []) s
  let s := (List.range 256).foldl (fun s k =>
    let w := (s.grn (k / 64)).part
    if s.iso (k / 64) || (s.bank (k / 64) (k % 64)).w = w then s else switchBank s (k / 64) (k % 64) w) s
  let t := keepAlways s
  let grn (g : Grn) : Grn := { part := g.part, w := g.part, target := g.part }
  { t with
    mem := s.mem
    pwr := { t.pwr with ceilingW := s.pwr.ceilingW }
    clk := { t.clk with fmax := s.clk.fmax }
    mer := s.mer
    dram := { t.dram with
      lost := s.dram.lost, lostBursts := s.dram.lostBursts, badBursts := s.dram.badBursts, writeBacks := s.dram.writeBacks
      rowDone := s.dram.rowDone, window := s.dram.window
      grn := (tkeys s.dram.grn).foldl (fun x q => tmod {} x q grn) s.dram.grn
      banks := s.dram.banks
      hbm := (tkeys s.dram.hbm).foldl (fun x q => tmod {} x q fun h => { scrub := h.scrub, srIdle := h.srIdle }) s.dram.hbm
      hbmStacks := (List.range 8).foldl (fun x k => tset {} x k
        (if (s.stack k).state = 4 then { state := 4 } else { state := 3, refresh2x := true, throttled := (s.stack k).throttled }))
        []
      chans := (tkeys s.dram.chans).foldl (fun x k => tmod {} x k fun c => { state := c.state }) s.dram.chans }
    fab := { t.fab with
      id := s.fab.id, idValid := s.fab.idValid, route := s.fab.route, role := s.fab.role, parent := s.fab.parent
      altParent := s.fab.altParent
      links := (tkeys s.fab.links).foldl (fun x l => tmod {} x l fun k =>
        { enable := k.enable, maxW := k.maxW, rawCtx := k.rawCtx }) s.fab.links }
    host := { t.host with armed := s.host.armed }
    evt := { t.evt with minSev := s.evt.minSev, dropped := s.evt.dropped }
    sec := { t.sec with
      wdog := (tkeys s.sec.wdog).foldl (fun x k => tmod {} x k fun w => { window := w.window, windowNo := w.windowNo }) s.sec.wdog }
    cores := s.cores.filterMap fun e => if e.2.phys.isSome then some (e.1, { phys := e.2.phys }) else none
    boot := { t.boot with
      phase := 11, warm := true, toRecovery := s.boot.toRecovery, disabled := s.boot.disabled, digest := s.boot.digest
      stepUs := s.boot.stepUs } }

/-! ### The Tithe map at a start (R355-R358) -/

/-- A unit passed its test in a cold start: a third pass in succession restores it; where the fuse part marks it, it is
recorded FUSE_ONLY (R355, R356). -/
def unitPassed (s : State) (u : TitheUnit) : State :=
  let b := s.boot
  match b.soft.find? fun x => x.unit = u with
  | none =>
    if b.fuse.contains u && decide (b.soft.length < 4096) then
      let (s, m) := readMer s 0
      { s with boot := { b with soft := b.soft ++ [⟨u, 0, true, m⟩] } }
    else s
  | some x =>
    if b.fuse.contains u then
      { s with boot := { b with soft := b.soft.map fun y => if y.unit = u then { y with fuseOnly := true } else y } }
    else if x.passes < 2 then
      { s with boot := { b with soft := b.soft.map fun y => if y.unit = u then { y with passes := y.passes + 1 } else y } }
    else
      softEvent (redigest { s with boot := { b with
        soft := b.soft.filter fun y => y.unit ≠ u, disabled := b.disabled.filter (· ≠ u) } }) 0x0801 { x with passes := 2 }

/-- The tests of a step: what failed is newly bad; passes count in a cold start alone. Repaired rows take no part
(R354). DEDUCED: log entry 172. -/
def tests (s : State) (bad passed : List TitheUnit) : State :=
  let unit (u : TitheUnit) : Bool := u.kind != 9
  let s := (bad.filter unit).foldl newlyBad s
  if s.boot.warm then s else (passed.filter unit).foldl unitPassed s

/-- Physical cores of an SC in service. -/
def goodCores (s : State) (sc : Nat) : List Nat :=
  let bad := (s.boot.disabled.filter fun u => u.kind = 1 && u.die = sc).map (·.loc)
  (List.range 272).filter fun c => !bad.contains c

/-- Exposed core k is the k-th lowest physical core in service (R358). -/
def mapCores (s : State) (sc : Nat) : State :=
  let gs := goodCores s sc
  let at_ (k : Nat) : Option Nat := match gs[k]? with
    | some p => if p = k then none else some p
    | none => some noCore
  { s with cores := (List.range 256).foldl (fun t k => tmod {} t (256 * sc + k) fun c => { c with phys := at_ k }) s.cores }

/-- Ways of a physical bank that are disabled. -/
def waysOff (s : State) (fb p : Nat) : BitVec 16 :=
  (s.boot.disabled.filter fun u => u.kind = 3 && u.die = fb && u.loc % 256 = p).foldl
    (fun m u => m ||| BitVec.ofNat 16 (2 ^ (u.loc / 256))) 0
def waysOffCount (s : State) (fb p : Nat) : Nat := ((List.range 16).filter (waysOff s fb p).getLsbD).length

/-- Physical banks of an FB in service, those with at most 4 disabled ways first (R358). -/
def bankRank (s : State) (fb : Nat) : List Nat :=
  let bad := (s.boot.disabled.filter fun u => u.kind = 2 && u.die = fb).map (·.loc)
  let up := (List.range 68).filter fun p => !bad.contains p
  (up.filter fun p => decide (waysOffCount s fb p ≤ 4)) ++ up.filter fun p => decide (4 < waysOffCount s fb p)

/-- Put physical bank `p`, or none, behind exposed bank `b`: its logical scratch ways stand in its lowest good ways, and
those without one are UNBACKED (R117, R129, R359). Readable scratch lines are copied; those of a way that was UNBACKED are
LOST (R358). DEDUCED: log entry 147. -/
def placeBank (s : State) (fb b : Nat) (p : Option Nat) : State :=
  let x := s.bank fb b
  let off := p.elim 0 (waysOff s fb)
  let good := if p.isSome then (List.range 16).filter fun i => !off.getLsbD i else []
  let none_ := (List.range x.w).filter fun u => decide (good.length ≤ u)
  let s := s.setBank fb b {
    phys := match p with
      | some p => if p = b then none else some p
      | none => some noBank
    degraded := p.any fun p => decide (4 < waysOffCount s fb p)
    disabled := off, w := x.w
    scr := (List.range (min x.w good.length)).foldl (fun t u => tput t u (good.getD u 0)) []
    unbacked := none_ }
  let s := { s with dram := { s.dram with
    lost := s.dram.lost.filter fun e => !none_.any fun u => inScrWay fb b u (256 * e.1) } }
  (x.unbacked.filter fun u => !none_.contains u).foldl (fun s u =>
    (List.range 2048).foldl (fun s i => s.setLost (scrLine fb b u i) true) s) s

/-- The banks of an FB at a cold start. -/
def mapBanks (s : State) (fb : Nat) : State :=
  let rank := bankRank s fb
  (List.range 64).foldl (fun s b => placeBank s fb b rank[b]?) s

/-- The banks of an FB at a warm start: one that is DEGRADED or newly bad gives way to the lowest-numbered free bank with
at most 4 disabled ways (R358). -/
def remapBanks (s : State) (fb : Nat) : State :=
  let out (s : State) (b : Nat) : Bool :=
    (s.bank fb b).degraded || s.boot.disabled.contains (bankUnit s fb b)
  (List.range 64).foldl (fun s b =>
    if absentBank (s.bank fb b) || !out s b then s
    else
      let used := (List.range 64).map fun i => physBank s fb i
      match (bankRank s fb).find? fun p => !used.contains p && decide (waysOffCount s fb p ≤ 4) with
      | some p => placeBank s fb b (some p)
      | none => if s.boot.disabled.contains (bankUnit s fb b) then placeBank s fb b none else s) s

/-- Bad bonds of each port and direction of an SC: the largest number (R338). -/
def bondsSpared (s : State) (sc : Nat) : Nat :=
  let us := s.boot.disabled.filter fun u => u.kind = 5 && u.die = sc
  us.foldl (fun m u => max m ((us.filter fun v => v.loc % 65536 = u.loc % 65536).length)) 0

/-! ### Dies at a start -/

def State.sc (s : State) (j : Nat) : ScDie := tget {} s.die.scs j
def State.setSc (s : State) (j : Nat) (x : ScDie) : State := { s with die := { s.die with scs := tset {} s.die.scs j x } }
def State.fbDie (s : State) (k : Nat) : FbDie := tget {} s.die.fbs k
def State.setFbDie (s : State) (k : Nat) (x : FbDie) : State := { s with die := { s.die with fbs := tset {} s.die.fbs k x } }
def admitSc (s : State) (j : Nat) (on : Bool) : State :=
  { s with scAdmitted := if on then s.scAdmitted ||| BitVec.twoPow 16 j else s.scAdmitted &&& ~~~(BitVec.twoPow 16 j) }

/-- FB `k` is left isolated, with its dies out of service (R352). -/
def startIso (s : State) (k cause : Nat) : State :=
  let s := s.setFbDie k { s.fbDie k with isoCause := cause }
  let s := { s with
    fbReady := s.fbReady &&& ~~~(BitVec.twoPow 4 k), lnReady := s.lnReady &&& ~~~(BitVec.twoPow 4 k)
    msReady := s.msReady &&& ~~~(BitVec.twoPow 8 (2 * k)) &&& ~~~(BitVec.twoPow 8 (2 * k + 1))
    die := { s.die with fbIso := s.die.fbIso ||| BitVec.twoPow 4 k } }
  (List.range 4).foldl (fun s j => admitSc (s.setSc (4 * k + j) { s.sc (4 * k + j) with st := 0 }) (4 * k + j) false) s

/-- An SC's clusters all run, at 0.6 GHz until CLOCK_RAISE_DONE (R398, R399). DEDUCED: log entry 75. -/
def startSc (s : State) (sc : Nat) : State :=
  let (fb, u) := scUnit sc
  setFreq { s with clk := { s.clk with
    running := tset 0 s.clk.running sc 0x1FFFF, scState := tset 0 s.clk.scState sc 0 } } fb u 24

/-- An SC whose record was admitted enters service, or fails its self-test (R334, R338). -/
def testSc (s : State) (j : Nat) (units : List TitheUnit) : State :=
  let d := s.sc j
  if d.st ≠ 1 then s
  else
    let spared := bondsSpared s j
    let fails := decide (32 < spared) || units.contains ⟨8, j, 0⟩
    if d.proto = 0 then s.setSc j { d with st := 5, cause := 4 }
    else if fails || s.boot.disabled.contains ⟨8, j, 0⟩ then
      let s := s.setSc j { d with st := 5, cause := 3, bonds := min spared 32 }
      if fails && !units.contains ⟨8, j, 0⟩ then newlyBad s ⟨8, j, 0⟩ else s
    else admitSc (startSc (s.setSc j { d with st := 2, cause := 0, bonds := spared }) j) j true

/-! ### The steps (R349) -/

/-- Step 1: the stage-1 sections are on, and every die has its rails. DEDUCED: log entry 73. -/
def endStep1 (s : State) : State := (List.range 32).foldl (fun s i => setRail s (i / 8) (i % 8) 1) s

/-- Boot-locked fields that the boot ROM writes in step 2: they take the values where the module lock is clear, and stay
as they are where a first pass through step 2 has set it (R4, R5, R352). DEDUCED: log entry 138. -/
def blSet (s : State) (f : State → State) : State := if s.lock then s else f s

/-- XLT_C0SEG as the boot code leaves it: context 0's two segments (R431), where nothing else has been written and the
lock is clear. -/
def c0Words (s : State) : Tbl Word :=
  let d0 : SegDesc := ⟨0, 1, true, true, true, 0, 0, 384, 0xBE00000000, 0⟩
  let d1 : SegDesc := ⟨0, 1, true, true, true, 0, 0xF000000000, 1, 0xBE00000C00, 0⟩
  let put (t : Tbl Word) (i : Nat) (d : SegDesc) : Tbl Word :=
    (List.range 4).foldl (fun t w => tset 0 t (4 * i + w) (BitVec.ofNat 64 ((descWords d).getD w (0, 0, 0)).2.2)) t
  if s.xlt.c0seg = [] ∧ s.lock = false then put (put [] 0 d0) 1 d1 else s.xlt.c0seg

/-- The descriptor that four words hold (R206), and whether a reserved bit of them is set. -/
def segOfWords (a b c d : Nat) : SegDesc :=
  ⟨bits a 9 8, bits a 10 10, bit a 12, bit a 13, bit a 14, bits a 17 16, bits a 55 26 * 2 ^ 26, bits b 23 0,
    bits c 39 3 * 8, BitVec.ofNat 64 d⟩
def segReserved (a b c : Nat) : Bool :=
  bits a 7 4 != 0 || bit a 11 || bit a 15 || bits a 25 18 != 0 || bits a 63 56 != 0 || bits b 63 24 != 0 ||
  bits c 2 0 != 0 || bits c 63 40 != 0

/-- Slots of XLT_C0SEG in use whose descriptor passes R207 against the slots before it, and those that fail.
DEDUCED: log entry 104. -/
def c0Check (t : Tbl Word) : List (Nat × SegDesc) × List Nat :=
  (List.range 16).foldl (fun r i =>
    let w (k : Nat) : Nat := (tget (0 : Word) t (4 * i + k)).toNat
    if bits (w 0) 3 0 ≠ 1 then r
    else
      let d := segOfWords (w 0) (w 1) (w 2) (w 3)
      let clash := r.1.any fun e => decide (d.base < segTop e.2) && decide (e.2.base < segTop d)
      if segReserved (w 0) (w 1) (w 2) || segBad d || clash then (r.1, r.2 ++ [i]) else (r.1 ++ [(i, d)], r.2)) ([], [])

/-- The boot ROM checks XLT_C0SEG at the module lock: a slot that fails is cleared and logged. -/
def writeC0Segs (s : State) : State :=
  let t := c0Words s
  let (good, bad) := c0Check t
  let t := bad.foldl (fun t i => (List.range 4).foldl (fun t w => tdel t (4 * i + w)) t) t
  let s := { s with xlt := { s.xlt with c0seg := t } }
  let s := good.foldl (fun s e => s.setSeg 0 e.1 (some e.2)) s
  bad.foldl (fun s i => ev s 0x0804 0 0x0C 0 i 0) s

/-- The owner's enrolment is fused only where the selected slot carries a valid owner signature by its key (R384). -/
def fuseOwner (s : State) (a : Option Alm) : State :=
  match s.sec.enroll with
  | none => s
  | some rec =>
    let k := rec.take 57
    let s := { s with sec := { s.sec with enroll := none } }
    if a.any fun a => a.owner = k then
      { s with sec := { s.sec with ownerSet := true, ownerKey := Config.shake256 k } }
    else ev s 0x0812 0 0x02 0 0 0

/-- The power ceiling of the board configuration, brought within its bounds, and the cap with it (R396). -/
def setCeiling (s : State) (w : Nat) : State :=
  if s.lock then { s with pwr := { s.pwr with capW := s.pwr.ceilingW } }
  else
    let v := max 1200 (min w 3600)
    let s := { s with pwr := { s.pwr with ceilingW := v, capW := v } }
    if v = w then s else ev s 0x0704 0 0x03 0 w v

/-- The boot-locked fields that the selected slot's Almanac fixes (R229, R234, R371, R374, R385, R407). -/
def lockedFields (s : State) (alm : Alm) (jtag : Bool) : State :=
  blSet s fun s => { s with
    sec := { s.sec with
      jtagEn := jtag, laserLimit := alm.laserLimit, almVendor := s.sec.vendorKey, almOwner := s.sec.ownerKey }
    thm := { s.thm with autoRestart := alm.autoRestart }
    host := { s.host with
      winOwn := (List.range 2).foldl (fun t p => tset true t p (alm.winOwn.getLsbD p)) []
      bifurcate := (List.range 2).foldl (fun t p => tset false t p (alm.bifurcate.getLsbD p)) [] } }

/-- The measurements of step 2 (R376): each register starts from zero. DEDUCED: log entries 81 and 138. -/
def measure (s : State) (slot : Nat) : State :=
  let part (k : Nat) : List Byte := Config.slotPart k (s.fw slot).cells
  -- with the module lock set, register 4 alone is open (R372)
  if s.lock then (if slot = 2 then s else extend s 4 (part 3)) else
  let s := { s with sec := { s.sec with meas := [] } }
  let s := extend (extend s 0 Config.bootRomVersion) 0 (Config.fuseState s.sec.ownerSet s.sec.rollback s.sec.jtagEn)
  if slot = 2 then extend s 2 Config.recoveryImage
  else extend (extend (extend (extend (extend s 1 (part 0)) 2 (part 1)) 3 (part 2)) 4 (part 3)) 5 (part 4)

/-- Step 2 (R362, R372, R374, R382, R384, R385): the boot ROM selects the slot, blows the fuses asked for, writes
the boot-locked fields, measures and sets the module lock. DEDUCED: log entry 80. DEDUCED: log entry 82. -/
def endStep2 (s : State) : State :=
  let sel := if s.boot.toRecovery then none else selectSlot s
  let a := sel.bind fun i => (s.fw i).alm
  let alm : Alm := a.getD {}
  let s := fuseOwner s a
  let n := if s.sec.ratify then max s.sec.rollback (a.elim s.sec.rollback (·.rollback)) else s.sec.rollback
  let slot := sel.getD 2
  let jtag := s.sec.ownerSet && a.any fun a => a.vendorOk && !a.owner.isEmpty && a.jtag
  let s := { s with
    boot := { s.boot with slot := slot, alm := alm, combo := (almCombo alm).getD 0, toRecovery := sel.isNone }
    sec := { s.sec with rollback := min n 64, ratify := false, stage := 0, written := [], updateMode := false } }
  let s := lockedFields s alm jtag
  let s := { s with thm := { s.thm with autoHeld := s.thm.autoRestart } }
  let s := measure (setCeiling s alm.ceilingW) slot
  { (writeC0Segs s) with lock := true }

/-- Step 3: the PLLs lock on the forwarded references (R331), and the base fabrics run. -/
def endStep3 (s : State) : State :=
  (List.range 4).foldl (fun s k =>
    if s.iso k then s
    else
      let s := s.setFbDie k { s.fbDie k with
        source := if k = 0 then 0 else 1, primaryOk := true, altOk := decide (k = 3) }
      setFreq { s with clk := { s.clk with pll := tset false s.clk.pll k true } } k 0 (targetFreq s k 0)) s

/-- Step 4: tests of dies, lanes, bonds and cores, and the core mapping of a cold start (R338, R355, R358). -/
def endStep4 (s : State) (r : StepReport) : State :=
  let s := tests s r.bad r.passed
  let s := (List.range 3).foldl (fun s i =>
    if (s.fbDie (i + 1)).record || s.iso (i + 1) then s else startIso s (i + 1) 4) s
  let s := if s.boot.warm then s else (List.range 16).foldl mapCores s
  let s := if s.boot.slot = 2 then s else (List.range 16).foldl (fun s j => testSc s j r.bad) s
  let s := (List.range 4).foldl (fun s k => if s.iso k then s else { s with fbReady := s.fbReady ||| BitVec.twoPow 4 k }) s
  updateDegraded (redigest s)

/-- A channel after the training of a start: RETIRED, STEPPED or ACTIVE, with the redundant lanes it uses (R149, R150, R153).
DEDUCED: log entry 148. -/
def startChan (s : State) (q c : Nat) (r : StepReport) : State :=
  if s.boot.disabled.contains ⟨6, q, c⟩ then
    let s := s.setChan q c { s.chan q c with state := 3, was := 0 }
    if r.bad.contains ⟨6, q, c⟩ then ev s 0x0313 q 0x08 c c 0 else s
  else s.setChan q c { state := b2n (r.stepped.contains (64 * q + c)), lanes := tget 0 r.lanes (64 * q + c) }

/-- A stack is READY after its first reading, its channels trained; or it is UNQUALIFIED and its channels are retired (R134,
R145, R150). -/
def startStack (s : State) (k temp : Nat) (r : StepReport) : State :=
  let q := k / 2
  let cs := (List.range 32).map (32 * (k % 2) + ·)
  if s.iso q then s
  else if s.boot.disabled.contains ⟨7, k, 0⟩ then
    let s := { (s.setStack k { state := 4 }) with msReady := s.msReady &&& ~~~(BitVec.twoPow 8 k) }
    let s := cs.foldl (fun s c => s.setChan q c { state := 3 }) s
    showStack (if r.bad.contains ⟨7, k, 0⟩ then ev s 0x0314 q 0x08 k k 0 else s) k
  else
    let s := cs.foldl (fun s c => startChan s q c r) s
    showStack { (s.setStack k (({ s.stack k with state := 2 }).read temp)) with msReady := s.msReady ||| BitVec.twoPow 8 k } k

/-- FB0's partition holds the firmware region: W is at least 2 (R365). DEDUCED: log entry 87. -/
def firmwareWays (s : State) : State :=
  if 2 ≤ (s.grn 0).w then s
  else
    let s := (List.range 64).foldl (fun s b => switchBank s 0 b 2) s
    s.setGrn 0 { s.grn 0 with w := 2, part := 2, target := 2 }

/-- Step 5 (R153, R154, R358, R365). -/
def endStep5 (s : State) (r : StepReport) : State :=
  let s := tests s r.bad r.passed
  let up := (List.range 4).filter fun k => !s.iso k
  let s := up.foldl (if s.boot.warm then remapBanks else mapBanks) s
  let s := if s.boot.warm then s else zeroDevice s
  let s := settleBacks ((List.range 8).foldl (fun s k => startStack s k (r.temps.getD k 0) r) s)
  updateDegraded (redigest (writeC0Pages (firmwareWays s)))

/-- Step 6: enabled links of admitted Lanterns begin to detect (R301). -/
def endStep6 (s : State) : State :=
  (List.range 96).foldl (fun s l => if (s.flink l).enable then enableLink s l else s) s

/-! ### Boot descriptors (R111, R366) -/

/-- Where the monitor image of the running combination stands. -/
def monitorDpa : Nat := 0xF000020000

/-- The boot descriptor of a logical core: all zero where it is not in service. -/
def descriptor (s : State) (n : Nat) : List Byte :=
  if inService s n then
    leBytes 4 1 ++ leBytes 4 s.boot.alm.monitor.length ++ leBytes 8 monitorDpa ++ leBytes 16 s.boot.alm.entry
  else List.replicate 32 0

/-- Write bytes of scratch by whole lines: LOST is cleared (R128). -/
def writeScratch (s : State) (a : Nat) (bs : List Byte) : State :=
  { s with
    mem := Memory.writeN s.mem a bs
    dram := { s.dram with lost := s.dram.lost.filter fun e => decide (256 * e.1 + 256 ≤ a) || decide (a + bs.length ≤ 256 * e.1) } }

/-- Step 7 begins: descriptors and the monitor image are written, and the SCs wait for their release (R366). -/
def writeDescriptors (s : State) : State :=
  let s := (List.range 4096).foldl (fun s n => writeScratch s (0xF000000000 + 32 * n) (descriptor s n)) s
  let s := writeScratch s monitorDpa s.boot.alm.monitor
  { s with boot := { s.boot with release := (List.range 16).filter s.scAdmitted.getLsbD } }

/-! ### From step to step -/

/-- Each core is in reset and holds nothing but its mapping. -/
def resetCores (s : State) : State :=
  { s with cores := s.cores.filterMap fun e => if e.2.phys.isSome then some (e.1, { phys := e.2.phys }) else none }

/-- PHASE reads READY, RECOVERY or FAILED (R349, R363, R364). -/
def endStart (s : State) (phase : Nat) : State :=
  let (s, m) := readMer s 0
  let s := { s with boot := { s.boot with phase := phase, readyTime := m } }
  if phase = 8 then s.setFw s.boot.slot { s.fw s.boot.slot with trialFailed := false } else s

/-- The next step begins (R349, R370). -/
def enterStep (s : State) (p : Nat) : State :=
  let s := { s with boot := { s.boot with phase := p } }
  if p = 4 then
    let s := (List.range 128).foldl (fun s k =>
      if s.iso (k / 32) then s else { s with die := { s.die with bundles := tset {} s.die.bundles k { st := 1 } } }) s
    if s.boot.slot = 2 then s
    else (List.range 16).foldl (fun s j => if s.iso (j / 4) then s else s.setSc j { s.sc j with st := 1 }) s
  else if p = 5 then
    if s.boot.warm then s
    else (List.range 8).foldl (fun s k => if s.iso (k / 2) then s else
      s.setStack k { state := 1, refresh2x := true, throttled := tget false s.thm.throttle (8 * (k / 2) + 5 + k % 2) }) s
  else if p = 7 then writeDescriptors s
  else s

/-- A start restarts at step 2 with the next selection: the running slot has failed its trial; the recovery image has no
other (R352, R363, R364). The module lock stays as it is: this is no new start (R5). DEDUCED: log entry 138. -/
def nextSlot (s : State) (p : Nat) : State :=
  if s.boot.slot = 2 then endStart { s with boot := { s.boot with stepFail := p } } 10
  else
    let s := s.setFw s.boot.slot { s.fw s.boot.slot with trialFailed := true }
    let s := resetCores s
    enterStep (updateDegraded { s with
      scAdmitted := 0, fbReady := 0, msReady := 0, lnReady := 0, xlt := { c0seg := s.xlt.c0seg }
      die := {}, fab := { s.fab with lanterns := [] }
      boot := { s.boot with stepFail := p, release := [], retried := [] } }) 2

/-- Effects of the end of step `p`. -/
def stepWork (s : State) (p : Nat) (r : StepReport) : State :=
  match p with
  | 1 => endStep1 s
  | 2 => endStep2 s
  | 3 => endStep3 s
  | 4 => endStep4 s r
  | 5 => endStep5 s r
  | 6 => endStep6 s
  | _ => s

/-- Step `p` has ended: the next begins; recovery ends after step 5 (R349, R364, R365). -/
def afterStep (s : State) (p : Nat) (r : StepReport) : State :=
  let cleared := decide (p = 2) && !(c0Check (c0Words s)).2.isEmpty
  let s := stepWork s p r
  if cleared then nextSlot s 2
  else if p = 7 then endStart s 8
  else if p = 5 ∧ s.boot.slot = 2 then endStart s 9
  else if p = 5 ∧ maxScratch s 0 < 2 then
    let s := (List.range 16).foldl (fun s j => s.setSc j { s.sc j with st := 0 }) { s with scAdmitted := 0 }
    endStart (updateDegraded { s with boot := { s.boot with slot := 2 } }) 9
  else enterStep s (p + 1)

/-- A step ends as its report says (R352). -/
def stepEnds (s : State) (p : Nat) (r : StepReport) : State :=
  let mark (s : State) : State := { s with boot := { s.boot with stepFail := p } }
  if r.fail && r.firmware && [2, 3, 7].contains p then nextSlot s p
  else if 4 ≤ p ∧ r.fbFail.contains 0 then endStart (mark s) 10
  else if 4 ≤ p ∧ !r.fbFail.isEmpty then
    updateDegraded (afterStep (r.fbFail.foldl (fun s k => startIso s k 4) (mark s)) p r)
  else if r.fail && s.boot.warm then coldStart s 5 true p
  else afterStep (if r.fail then mark s else s) p r

/-- Time limit of a step in µs, cold and warm (R349). -/
def stepLimit (warm : Bool) (p : Nat) : Nat :=
  match p with
  | 1 => 20000
  | 2 => if warm then 300000 else 600000
  | 3 => if warm then 300000 else 400000
  | 4 => if warm then 200000 else 4000000
  | 5 => if warm then 6000000 else 100000000
  | 6 => if warm then 1000000 else 3000000
  | 7 => if warm then 1000000 else 2000000
  | _ => 200000

/-- A start runs. -/
def starting (s : State) : Bool := (decide (1 ≤ s.boot.phase) && decide (s.boot.phase ≤ 7)) || s.boot.phase = 11

end Sys2Proof.Machine
end

