-- ==== Sys2Proof/Machine/ClockRows.lean ====
section
/-! DEFINITION. Clocks that rise, stop and wake (R395, R398, R399). -/

namespace Sys2Proof.Machine

/-- CLOCK_RAISE_DONE (R398). -/
def execClockRaiseDone (fb unit : Nat) (s : State) : Out :=
  if 0 < freqOf s fb unit ∧ freqOf s fb unit < targetFreq s fb unit then .next (setFreq s fb unit (targetFreq s fb unit))
  else .next s -- the unit waits for no higher clock

/-- A core has no work (R399): its kernel threads are OFF, its monitor is in WAITEV and no operation is in flight;
so is a core that is held in reset or out of service. DEDUCED: log entry 77. -/
def coreIdle (s : State) (n : Nat) : Bool :=
  let c := s.core n
  c.reset || !inService s n ||
  (c.aops.isEmpty && (match (c.thread 0).wait with | .event _ => true | _ => false) &&
    (List.range 15).all fun i => (c.thread (i + 1)).st = .off)

/-- Logical cores of cluster `k` of an SC: 16 physical cores each. -/
def clusterCores (s : State) (sc k : Nat) : List Nat :=
  ((List.range 256).map fun i => 256 * sc + i).filter fun n => physCore s n / 16 = k

def setRunning (s : State) (sc m : Nat) : State := { s with clk := { s.clk with running := tset 0 s.clk.running sc m } }
def setScState (s : State) (sc st : Nat) : State := { s with clk := { s.clk with scState := tset 0 s.clk.scState sc st } }

/-- CLUSTER_CLOCK_STOP (R399). -/
def execClusterClockStop (sc k : Nat) (s : State) : Out :=
  if clusterRuns s sc k && (clusterCores s sc k).all (coreIdle s) then
    let m := runningOf s sc - 2 ^ k
    let s := setRunning s sc m
    .next (if m = 0 then setScState s sc 1 else s)
  else .next s -- the cluster has work, or is stopped

/-- CLUSTER_WAKE (R399). -/
def execClusterWake (sc k : Nat) (s : State) : Out :=
  if s.scAdmitted.getLsbD sc && !clusterRuns s sc k && decide (k < 17) && !scSleeps s sc then
    .next (setScState (setRunning s sc (runningOf s sc + 2 ^ k)) sc 0)
  else .next s -- the cluster runs, or its SC sleeps

/-- SC_SLEEP (R399): the PLL is off and the cluster rails are at retention. -/
def execScSleep (sc : Nat) (s : State) : Out :=
  let (fb, u) := scUnit sc
  if s.scAdmitted.getLsbD sc && runningOf s sc = 0 && !scSleeps s sc then .next (setFreq (setRail s fb u 2) fb u 0)
  else .next s -- a cluster of the SC runs, or the SC sleeps

/-- The lowest cluster that has work. -/
def wantedCluster (s : State) (sc : Nat) : Option Nat :=
  (List.range 17).find? fun k => !(clusterCores s sc k).all (coreIdle s)

/-- SC_WAKE (R399): the first cluster that has work runs at 0.6 GHz. -/
def execScWake (sc : Nat) (s : State) : Out :=
  let (fb, u) := scUnit sc
  if scSleeps s sc then
    let s := setFreq (setRail s fb u 1) fb u 24
    match wantedCluster s sc with
    | some k => .next (setScState (setRunning s sc (2 ^ k)) sc 0)
    | none => .next s
  else .next s -- the SC does not sleep

/-- A core has a request outstanding: an asynchronous operation, or a thread with a synchronous access or a FENCE. -/
def coreAsks (c : Core) : Bool :=
  !c.aops.isEmpty || c.thr.any fun e => e.2.blk.isSome || match e.2.wait with | .fence _ => true | _ => false

/-- The FB of what waits for a zero-length read. -/
def zwhoFb (s : State) : ZWho → Nat
  | .chunk fb _ _ _ | .flag fb _ _ => fb
  | .cmd ring _ => ring / 16
  | .thread n _ | .aop n _ => coreFb n
  | .inval => 0
  | .mill g _ => (agentReq s 0 (.mill g)).fb

/-- A reduction group has data staged in an FB or on its way (R187). -/
def millBusy (g : Group) : Bool :=
  !g.up.isEmpty || !g.down.isEmpty || !g.bells.isEmpty || !g.dep.isEmpty || !g.fout.isEmpty || g.depWait.isSome || !g.depZlr.isEmpty

/-- No agent of an FB has a request outstanding (R25): nothing waits at its homes, in its mesh lanes, walkers, Carters,
command processor, Mill, links or cores, and none of its banks sweeps. -/
def fabricIdle (s : State) (fb : Nat) : Bool :=
  s.dram.parked.isEmpty && s.rgl.wait.isEmpty && (s.xlt.walks.all fun w => w.fb ≠ fb) &&
  (s.car.slots.all fun e => e.1 / 48 ≠ fb || e.2.state = 0) && (s.car.queue.all fun e => e.1 ≠ fb) &&
  (s.msh.lanes.all fun e => e.1 / (12 * 1024) ≠ fb) && (s.cores.all fun e => e.1 / 1024 ≠ fb || !coreAsks e.2) &&
  s.dram.ratCmd.hold.isEmpty && (s.dram.repairing.isEmpty) && decide ((s.grn fb).state < 2) &&
  (s.host.links.all fun e => e.2.reads.all (fun r => (agentReq s 0 r.who).fb ≠ fb) && e.2.zlr.all (fun z => zwhoFb s z ≠ fb)) &&
  (s.host.inflight.all fun c => c.ring / 16 ≠ fb) && (s.fab.reqs.all fun r => r.port / 512 ≠ fb) &&
  s.mil.flight.isEmpty && s.mil.groups.all fun e => !millBusy e.2

def setBaseStop (s : State) (fb : Nat) (on : Bool) : State :=
  { s with clk := { s.clk with baseStop := tset false s.clk.baseStop fb on } }

/-- BASE_FABRIC_CLOCK_STOP (R399). -/
def execBaseFabricClockStop (fb : Nat) (s : State) : Out :=
  if !(tget false s.clk.baseStop fb) && !s.iso fb && fabricIdle s fb then .next (setBaseStop s fb true)
  else .next s -- a request is outstanding, or the base fabric is stopped

/-- BASE_FABRIC_WAKE (R399). -/
def execBaseFabricWake (fb : Nat) (s : State) : Out :=
  if tget false s.clk.baseStop fb then .next (setBaseStop s fb false)
  else .next s -- the base fabric runs

/-- A Reeve has work: a command that its firmware executes, or a start that it runs. -/
def reeveBusy (s : State) (fb : Nat) : Bool :=
  starting s || (s.host.inflight.any fun c => c.ring / 16 = fb && isFw c.op)

def setReeveStop (s : State) (fb : Nat) (on : Bool) : State :=
  { s with clk := { s.clk with reeveStop := tset false s.clk.reeveStop fb on } }

/-- REEVE_CLOCK_STOP (R399). -/
def execReeveClockStop (fb : Nat) (s : State) : Out :=
  if !(tget false s.clk.reeveStop fb) && !reeveBusy s fb && !s.iso fb then .next (setReeveStop s fb true)
  else .next s -- the Reeve has work, or its clock is stopped

/-- REEVE_WAKE (R399). -/
def execReeveWake (fb : Nat) (s : State) : Out :=
  if tget false s.clk.reeveStop fb then .next (setReeveStop s fb false)
  else .next s -- the Reeve's clock runs

/-- A write of CLK_CTRL: FMAX of an FB's SC clusters, 24 to 48. -/
def fmaxWrite (s : State) (fb : Nat) (v : Word) : State :=
  let f := bits v.toNat 5 0
  if s.iso fb then s
  else if 24 ≤ f ∧ f ≤ 48 then lowerClocks { s with clk := { s.clk with fmax := tset 48 s.clk.fmax fb f } }
  else regDiscard s (regOff fb 0x05 0) 0 v

/-- FMAX_WRITE (R395). -/
def execFmaxWrite (fb : Nat) (v : Word) (s : State) : Out := .next (fmaxWrite s fb v)

end Sys2Proof.Machine
end

