-- ==== Sys2Proof/Machine/GroupRows.lean ====
section
/-! DEFINITION. RED_GROUP_CREATE and RED_GROUP_DESTROY (R182-R187, R200, R201, R320, R342). -/

namespace Sys2Proof.Machine

/-- Word `w` of FAB_COLL[g]. -/
def collWord (s : State) (g w : Nat) : Nat := (tget (0 : Word) s.fab.coll (4 * g + w)).toNat

/-- Child `i` of FAB_COLL[g]. -/
def collChild (s : State) (g i : Nat) : Nat := bits (collWord s g (1 + i / 4)) (16 * (i % 4) + 13) (16 * (i % 4))

/-- The tree of modules that FAB_COLL[g] describes. -/
def collTree (s : State) (g : Nat) : FTree :=
  let w := collWord s g 0
  { parent := if bit w 61 then some (bits w 13 0) else none
    children := (List.range (bits w 59 56)).map (collChild s g)
    timeout := bits w 55 32
    deliver := bit w 62 }

/-- A group reaches beyond the module: RESULT is FABRIC, or a BARRIER whose FAB_COLL is VALID. -/
def fabricWide (s : State) (d : GroupDesc) : Bool := d.result = 2 || (d.kind = 2 && bit (collWord s d.group 0) 63)

/-- FAB_COLL forbids the group (R320). -/
def collBad (s : State) (ctx : Nat) (d : GroupDesc) : Bool :=
  let t := collTree s d.group
  fabricWide s d &&
    (!bit (collWord s d.group 0) 63 || decide (12 < t.children.length) ||
      (t.parent.toList ++ t.children).any (fun m => m = s.fab.id || !(s.ctx ctx).reach.contains m) ||
      (t.deliver && d.kind = 1))

/-- The permitted combinations of MODE, ELEM, OP and OUT_FMT (R184). -/
def comboOk (d : GroupDesc) : Bool :=
  if d.kind ≠ 0 then d.mode = 0 && d.elem = 0 && d.op = 0 && d.outFmt = 0
  else if d.mode = 0 then
    (d.elem = 0x01 && decide (d.op ≤ 2) && [0x01, 0x02, 0x03].contains d.outFmt) ||
    (d.elem = 0x12 && decide (d.op ≤ 4) && d.outFmt = 0x12)
  else (d.elem = 0x01 || d.elem = 0x3E) && d.op = 0 && [0x01, 0x02, 0x03, 0x3E].contains d.outFmt

/-- The data fields of a BARRIER are zero (R184). -/
def barrierZero (d : GroupDesc) : Bool :=
  d.length = 0 && d.nbuf = 0 && d.resultLs = 0 && d.resCtr = 0 && d.depth = 0 && d.prio = 0 && d.vis = 0 &&
  d.resultDva = 0 && d.flagDva = 0 && d.source = 0 && d.rm = 0 && !d.sat && d.anchor = 0 && d.result = 0

/-- The results go to a DVA: RESULT 1, or RESULT 2 with DELIVER = 1 (R195, R321). -/
def deposits (s : State) (d : GroupDesc) : Bool :=
  d.result = 1 || (d.result = 2 && (collTree s d.group).deliver)

/-- A segment of the context gives write rights at an address. -/
def writable (s : State) (ctx dva : Nat) : Bool :=
  match findSeg s ctx dva with
  | some (_, g) => rightsOk g 1
  | none => false

/-- The ranges of R183 for a REDUCE or MULTICAST group. -/
def rangesOk (s : State) (ctx : Nat) (d : GroupDesc) : Bool :=
  decide (d.rm ≤ 3) && (d.anchor = 0 || exactMode d) &&
  d.length % 256 = 0 && decide (256 ≤ d.length) && decide (d.length ≤ 253952) &&
  (if d.kind = 1 then d.members.contains d.source else d.source = 0) &&
  decide (d.result ≤ 2) && !(d.kind = 1 && d.result = 1) && (d.nbuf = 1 || d.nbuf = 2) && d.resultLs % 256 = 0 &&
  decide (1 ≤ d.depth) && decide (d.depth ≤ 4) &&
  decide (d.resultLs + d.nbuf * outLen d ≤ 0x3E000) &&
  (!deposits s d ||
    (d.resultDva % 256 = 0 && d.flagDva % 8 = 0 && (d.vis = 1 || d.vis = 2) && writable s ctx d.resultDva &&
    writable s ctx d.flagDva))

/-- Routers that the group's tree crosses (R186). -/
def treeRouters (d : GroupDesc) : List Nat := d.root :: (leaves d ++ (childLinks d).map (·.1))

/-- BAD_PARAM (R184, R320, R342); a context that is being destroyed gets no new group. DEDUCED: log entries 56 and
72. -/
def groupBad (s : State) (ctx : Nat) (d : GroupDesc) : Bool :=
  (s.ctx ctx).closing || decide (3 ≤ d.kind) || d.members.isEmpty || !comboOk d ||
  (if d.kind = 2 then !barrierZero d else !rangesOk s ctx d) ||
  d.members.any (fun n => !inService s n) || !fbUp s (routerFb d.root) ||
  (treeRouters d).any (fun r => s.iso (routerFb r)) || collBad s ctx d

/-- The group as it is created: ACTIVE, every sequence number 0 (R201). -/
def newGroup (s : State) (ctx : Nat) (d : GroupDesc) : Group :=
  { state := 1, ctx := ctx, desc := some d, tree := if fabricWide s d then some (collTree s d.group) else none }

/-- The staging of R187 and R320 fits in each combining router's 64 KiB. -/
def stagingOk (s : State) (g : Group) (d : GroupDesc) : Bool :=
  (combining d).all fun r => decide (reservedAt s r + reserved g d r ≤ 65536)

/-- The parameter fields of RED_GROUP_CREATE (R247). -/
def groupFields (d : GroupDesc) : List (Nat × Nat × Nat) :=
  [(0, 1, 1), (1, 1, d.group), (2, 1, d.kind + 4 * d.mode + 8 * d.op + 64 * d.result), (3, 1, d.elem), (4, 1, d.outFmt),
    (5, 1, d.rm + 8 * b2n d.sat + 16 * d.nbuf + 64 * d.vis),
    (6, 2, (d.anchor % 1024).toNat + 1024 * d.depth + 8192 * d.prio), (8, 1, d.root), (9, 1, d.resCtr),
    (10, 2, d.source), (12, 4, d.length), (16, 4, d.resultLs), (24, 8, d.resultDva), (32, 8, d.flagDva),
    (64, 512, d.members.foldl (fun a n => a ||| 2 ^ n) 0)]

/-- RED_GROUP_CREATE (R182-R187). -/
def execRedGroupCreate (h : Hdr) (g : GroupDesc) (s : State) : Out :=
  command 0x50 h (groupFields g) (fun s => groupBad s h.ctx g)
    (fun s =>
      let x := newGroup s h.ctx g
      if (s.group g.group).state ≠ 0 || !stagingOk s x g then finishSt s h.ring h.seq stRESOURCE 0
      else finishSt (s.setGroup g.group x) h.ring h.seq stDONE 0) s

/-- RED_GROUP_DESTROY (R200). -/
def execRedGroupDestroy (h : Hdr) (group : Nat) (force : Bool) (s : State) : Out :=
  command 0x51 h [(0, 1, 1), (1, 1, group), (2, 1, b2n force)]
    (fun s => (s.group group).state = 0 || (s.group group).ctx ≠ h.ctx)
    (fun s =>
      if (s.group group).state ≠ 3 && groupBusy s group && !force then finishSt s h.ring h.seq stRESOURCE 0
      else finishSt (destroyGroup s group) h.ring h.seq stDONE 0) s

end Sys2Proof.Machine
end

