-- ==== Sys2Proof/Machine/Mesh.lean ====
section
/-! DEFINITION. The mesh: ports, routes and detours, lanes and credits, arbiters, freezing and draining, the edge remap
table (R156-R171). -/

namespace Sys2Proof.Machine

/-! ### Ports and routes (R156, R157, R160, R163, R164) -/

/-- Coordinates of the router with local index `a` of an FB (R19). -/
def meshX (fb a : Nat) : Nat := 8 * (fb % 2) + a % 8
def meshY (fb a : Nat) : Nat := 8 * (fb / 2) + a / 8

def portKey (p : MPort) : Nat := 16 * (64 * p.fb + p.a) + p.p
def State.port (s : State) (p : MPort) : Port := tget {} s.msh.ports (portKey p)
def State.setPort (s : State) (p : MPort) (x : Port) : State :=
  { s with msh := { s.msh with ports := tset {} s.msh.ports (portKey p) x } }
def State.laneQ (s : State) (k : Nat) : List Flit := tget [] s.msh.lanes k
def State.setLaneQ (s : State) (k : Nat) (l : List Flit) : State :=
  { s with msh := { s.msh with lanes := tset [] s.msh.lanes k l } }

/-- The FBs of edge `e`, and whether its pairs lie along x (0 horizontal) or y (1 vertical) (R163). -/
def edgeEnds (e : Nat) : Nat × Nat × Nat :=
  match e with
  | 0 => (0, 1, 0)
  | 1 => (0, 2, 1)
  | 2 => (1, 3, 1)
  | _ => (2, 3, 0)

/-- Bundle `b` of pair `i` is up: in GULGEN at both ends. -/
def bundleUp (s : State) (e i b : Nat) : Bool :=
  let (p, q, v) := edgeEnds e
  let st (fb : Nat) : Nat := (tget {} s.die.bundles (32 * fb + 16 * v + 2 * i + b) : BundleEnd).st
  st p = 4 && st q = 4

def pairUp (s : State) (e i : Nat) : Bool := bundleUp s e i 0 || bundleUp s e i 1

/-- Edge that a mesh port crosses, if any: its number and the pair. -/
def edgeOf (p : MPort) : Option (Nat × Nat) :=
  let x := meshX p.fb p.a
  let y := meshY p.fb p.a
  if (p.p = 1 ∧ x = 7) ∨ (p.p = 3 ∧ x = 8) then some (if y < 8 then 0 else 3, y % 8)
  else if (p.p = 2 ∧ y = 7) ∨ (p.p = 0 ∧ y = 8) then some (if x < 8 then 1 else 2, x % 8)
  else none

/-- The remap table of an edge, and a pair's entry: its target, if remapped (R164). -/
def remapWord (s : State) (e : Nat) : W32 := tget 0x76543210 s.msh.pair e
def remapOf (s : State) (e i : Nat) : Option Nat :=
  let n := (remapWord s e).toNat / 16 ^ i % 16
  if 8 ≤ n then some (n % 8) else none

/-- A port has a link or an agent (CONNECTED). -/
def connected (s : State) (p : MPort) : Bool :=
  let x := meshX p.fb p.a
  let y := meshY p.fb p.a
  if p.p < 4 then
    (match p.p with
     | 0 => decide (0 < y)
     | 1 => decide (x < 15)
     | 2 => decide (y < 15)
     | _ => decide (0 < x)) &&
    (match edgeOf p with
     | some (e, i) => pairUp s e i
     | none => true)
  else if p.p < 8 then
    let sc := 4 * p.fb + 2 * (y % 8 / 4) + x % 8 / 4
    (tget {} s.die.scs sc : ScDie).st != 3
  else if p.p = 8 then true
  else if p.p = 9 then decide (p.a < 42) && (p.a != 36 || p.fb == 0 || p.fb == 3)
  else false

/-- The mesh port toward a larger (true) or smaller coordinate along an edge of pairs lying along y or x. -/
def along (vert up : Bool) : Nat := if vert then (if up then 2 else 0) else (if up then 1 else 3)

/-- The FB of a router by its number. -/
def quadOf (r : Nat) : Nat := r % 16 / 8 + 2 * (r / 128)

/-- A packet travels Y first: the quadrant its XY path turns in, neither its source's nor its destination's, is isolated
(R342). -/
def yFirst (s : State) (f : Flit) : Bool :=
  let k := f.dstRouter % 16 / 8 + 2 * (f.srcRouter / 128)
  s.iso k && k != quadOf f.srcRouter && k != quadOf f.dstRouter

/-- Output port at a router of a packet that is not on a detour, by XY (R160) or by YX (R342). -/
def xyPort (yx : Bool) (x y : Nat) (f : Flit) : Nat :=
  let dx := f.dstRouter % 16
  let dy := f.dstRouter / 16
  if yx && decide (y < dy) then 2 else if yx && decide (dy < y) then 0
  else if x < dx then 1 else if dx < x then 3 else if y < dy then 2 else if dy < y then 0 else f.dstPort

/-- A step on its path, or the first step of a detour where the pair ahead is remapped: the port and DETOUR. -/
def stepXy (s : State) (fb a : Nat) (f : Flit) : Nat × Bool :=
  let x := meshX fb a
  let y := meshY fb a
  let q := xyPort (yFirst s f) x y f
  match edgeOf ⟨fb, a, q⟩ with
  | none => (q, false)
  | some (e, i) =>
    match remapOf s e i with
    | none => (q, false)
    | some j => if i = j then (q, false) else (along (e = 0 || e = 3) (decide (i < j)), true)

/-- A step of a packet on a detour (R164): along the near side to pair j, across, and back along the far side to pair
i, where XY goes on.  `pin`, the port it came in by, tells which of its path's two edges it detours. -/
def stepDetour (s : State) (fb a pin : Nat) (f : Flit) : Nat × Bool :=
  let x := meshX fb a
  let y := meshY fb a
  let onX : Bool := if pin = 0 ∨ pin = 2 then !((pin = 0 && y = 8) || (pin = 2 && y = 7))
    else (pin = 3 && x = 8) || (pin = 1 && x = 7)
  if onX then
    let i := (if yFirst s f then f.dstRouter else f.srcRouter) / 16
    let e := if y < 8 then 0 else 3
    let east := decide (7 < f.dstRouter % 16)
    let near := if east then x = 7 else x = 8
    if near then
      match remapOf s e (i % 8) with
      | none => stepXy s fb a f
      | some j =>
        let t := y / 8 * 8 + j
        if y = t then (if east then 1 else 3, true) else (along true (decide (y < t)), true)
    else if y = i then stepXy s fb a f
    else (along true (decide (y < i)), true)
  else
    let i := (if yFirst s f then f.srcRouter else f.dstRouter) % 16
    let e := if x < 8 then 1 else 2
    let south := decide (7 < f.dstRouter / 16)
    let near := if south then y = 7 else y = 8
    if near then
      match remapOf s e (i % 8) with
      | none => stepXy s fb a f
      | some j =>
        let t := x / 8 * 8 + j
        if x = t then (if south then 2 else 0, true) else (along false (decide (x < t)), true)
    else if x = i then stepXy s fb a f
    else (along false (decide (x < i)), true)

/-- Output port of a flit, and the DETOUR bit it leaves with. -/
def routeFlit (s : State) (fb a pin : Nat) (f : Flit) : Nat × Bool :=
  if f.detour then stepDetour s fb a pin f else stepXy s fb a f

/-! ### Flits (R158, R159) -/

/-- The 64-bit control field that travels beside a flit's data (R159). -/
def Flit.control (f : Flit) : BitVec 64 :=
  let at_ (lo w v : Nat) : Nat := v % 2 ^ w * 2 ^ lo
  BitVec.ofNat 64 (at_ 60 3 f.rclass + at_ 48 12 f.tag + at_ 40 8 f.type + at_ 39 1 f.half + at_ 35 4 f.chunk +
    at_ 30 5 f.chunks + at_ 29 1 (b2n f.cancel) + at_ 28 1 (b2n f.cont) + at_ 27 1 (b2n f.detour) + at_ 25 2 f.prio +
    at_ 24 1 f.vn + at_ 20 4 f.srcPort + at_ 12 8 f.srcRouter + at_ 8 4 f.dstPort + at_ 0 8 f.dstRouter)

/-- The last flit of its packet. -/
def lastFlit (f : Flit) : Bool := f.cancel || f.chunks = 0 || (f.chunk + 1 = f.chunks && f.half = 1)

/-- Flits of the packet at a lane's head. -/
def packetLen : List Flit → Nat
  | [] => 0
  | f :: fs => if lastFlit f then 1 else 1 + packetLen fs

/-- The flits of a lane's packet that has not arrived whole, and those before it. -/
def partOf (q : List Flit) : List Flit := (q.reverse.takeWhile fun f => !lastFlit f).reverse
def wholeOf (q : List Flit) : List Flit := q.take (q.length - (partOf q).length)

/-! ### Lanes (R161) -/

/-- Lane of a flit. -/
def laneOf (f : Flit) : Nat := 6 * (f.vn % 2) + (if f.detour then 3 else 0) + min f.prio 2

/-- Depth of a lane of a port: bank and agent ports have no DETOUR lanes. -/
def laneDepth (port lane : Nat) : Nat :=
  let k := lane % 6
  if 3 ≤ k then (if port < 8 then 4 else 0) else if k = 0 then 4 else if port < 8 then 16 else 34

/-- Priority of a lane (R165). -/
def lanePrio (lane : Nat) : Nat := lane % 3

/-- The bank's or the agent's side of an output port. -/
def farPort (p : MPort) : MPort := { p with p := p.p + 2 }

/-- Key of the lane a flit takes at a port. -/
def laneKey (p : MPort) (f : Flit) : Nat := 12 * portKey p + laneOf f

/-- Whether a flit leaves through its destination port here. -/
def atDest (p : MPort) (f : Flit) : Bool := f.dstRouter = 16 * meshY p.fb p.a + meshX p.fb p.a && f.dstPort = p.p

/-- MESH_FLIT_ARRIVAL (R161, R169): a flit enters an input lane against a credit; of a cancelled packet it is
dropped. A bank that still owes a CANCEL sends that first. -/
def execMeshFlitArrival (p : MPort) (f : Flit) (s : State) : Out :=
  let k := laneKey p f
  if f.cancel then .next s -- a CANCEL flit arrives by CANCEL_FLIT_RECEIVE
  else if 9 < p.p then .next s -- no such port
  else if tget false s.msh.dropping k then
    .next (if lastFlit f then { s with msh := { s.msh with dropping := tset false s.msh.dropping k false } } else s)
  else if laneDepth p.p (laneOf f) ≤ (s.laneQ k).length then .next s -- the lane has no credit
  else if p.p = 8 && !(s.port (farPort p)).ends.isEmpty then .next s -- a CANCEL goes first
  else
    let s := s.setLaneQ k (s.laneQ k ++ [f])
    .next { s with msh := { s.msh with open_ := tset none s.msh.open_ k (if lastFlit f then none else some f) } }

/-! ### The arbiter (R165-R168) -/

/-- Priority of a grant. -/
def Grant.prio (g : Grant) : Nat := lanePrio (g.lane % 12)

/-- A granted packet may lose its grant here: no flit of a chunk waits for its second, and a flit has been sent. -/
def Grant.boundary (g : Grant) : Bool := !g.half && !g.first

/-- A flit takes a credit of the lane beyond the port: where a bank or an agent is its destination, response-network and
CONTROL flits and CANCEL flits are accepted without waiting (R162). -/
def takesCredit (p : Nat) (f : Flit) : Bool := decide (p < 8) || !(f.vn = 1 || f.prio = 0 || f.cancel)

/-- A port has credits for `n` more flits of a lane. -/
def creditLeft (x : Port) (p lane n : Nat) : Bool := decide (tget 0 x.used lane + n ≤ laneDepth p lane)

/-- A lane's flit as it leaves: on the route's detour or off it. -/
def leaving (s : State) (p : MPort) (lane : Nat) (f : Flit) : Flit :=
  { f with detour := (routeFlit s p.fb p.a (lane / 12 % 16) f).2 }

/-- What the port carries next of a grant's packet: one flit, and at a bank the two flits of a chunk together (R156). -/
def grantFlits (s : State) (p : MPort) (g : Grant) : List Flit :=
  match s.laneQ g.lane with
  | [] => []
  | f :: fs =>
    let f' := { leaving s p g.lane f with cont := g.cont }
    let alone := p.p ≠ 8 || f.half ≠ 0 || (f.vn = 0 && g.first) || f.chunks = 0 || f.cancel
    if alone then [f']
    else match fs with
      | [] => []
      | h :: _ => [f', leaving s p g.lane h]

/-- A grant can send: its flits are there, with their credits. -/
def canSend (s : State) (p : MPort) (x : Port) (g : Grant) : Bool :=
  match grantFlits s p g with
  | [] => false
  | f :: fs => !takesCredit p.p f || creditLeft x p.p (laneOf f) (fs.length + 1)

/-- Input lanes of the router whose head begins a packet for this port; the head behind a flit that was sent in this cycle
was none at the cycle's start (R166). -/
def heads (s : State) (p : MPort) (x : Port) (sent : Option Nat) : List Nat :=
  let busy (k : Nat) : Bool := sent = some k || [x.grant, x.suspG, x.suspB].any fun g => g.any fun g => g.lane = k
  (List.range 120).filterMap fun i =>
    let pin := i / 12
    let k := 12 * portKey ⟨p.fb, p.a, pin⟩ + i % 12
    match s.laneQ k with
    | [] => none
    | f :: _ => if !busy k && (routeFlit s p.fb p.a pin f).1 = p.p then some k else none

/-- Round robin: the first of the sorted lanes after the one that last began a packet. -/
def nextAfter (last : Nat) (ks : List Nat) : Option Nat := (ks.find? fun k => last < k).orElse fun _ => ks.head?

/-- The new or suspended packet of a priority that would be granted: a suspended one first. -/
def candidate (s : State) (p : MPort) (x : Port) (sent : Option Nat) (prio : Nat) : Option Grant :=
  let susp := if prio = 1 then x.suspG else if prio = 2 then x.suspB else none
  match susp with
  | some g => if canSend s p x g then some g else none
  | none =>
    if x.freeze then none
    else
      let ks := (heads s p x sent).filter fun k => lanePrio (k % 12) = prio && canSend s p x { lane := k }
      (nextAfter (tget 0 x.rr prio) ks).map fun k => { lane := k }

/-- The highest-priority candidate above a limit. -/
def bestAbove (s : State) (p : MPort) (x : Port) (sent : Option Nat) (limit : Nat) : Option Grant :=
  (List.range limit).findSome? (candidate s p x sent)

/-- Begin or resume a grant. -/
def Port.begin_ (x : Port) (g : Grant) : Port :=
  { x with
    suspG := if x.suspG = some g then none else x.suspG, suspB := if x.suspB = some g then none else x.suspB
    grant := some { g with cont := !g.first }, dec := some g.lane }

/-- A packet loses its grant at a chunk boundary (R167). -/
def Port.suspend (x : Port) (g : Grant) : Port :=
  if g.prio = 1 then { x with suspG := some g, grant := none } else { x with suspB := some g, grant := none }

/-- The decision for the next cycle, from the lane heads and the credits that were there at the start of this one, in
which lane `sent` sent a flit (R165-R167). A grant of which no flit has been sent is decided anew; a bank's output never
preempts. -/
def decide_ (s : State) (p : MPort) (x0 : Port) (sent : Option Nat) : Port :=
  let x := s.port p
  let y := { x with used := x0.used }
  let keep (z : Port) : Port := { z with used := x.used }
  let fresh (y : Port) : Port :=
    match bestAbove s p y sent 3 with
    | some h => keep (y.begin_ h)
    | none => keep { y with dec := none }
  match x.grant with
  | none => fresh y
  | some g =>
    if g.first && !x.freeze then fresh { y with grant := none }
    else
      match (if g.boundary && p.p ≠ 8 then bestAbove s p y sent g.prio else none) with
      | some h => keep ((y.suspend g).begin_ h)
      | none => keep { y with dec := if canSend s p y g then some g.lane else none }

/-- The grant after it has sent flits, of which `f` is the last. -/
def Grant.after (g : Grant) (f : Flit) (n : Nat) : Grant :=
  let g := { g with cont := false, last := some f }
  if g.first && f.vn = 0 then { g with first := false }
  else if g.half || n = 2 then { g with first := false, half := false, sent := g.sent + 1 }
  else { g with first := false, half := true }

/-- A hop that runs on one bundle, where a flit takes two cycles to cross (R163). -/
def halfRate (s : State) (p : MPort) : Bool :=
  match edgeOf p with
  | some (e, i) => bundleUp s e i 0 != bundleUp s e i 1
  | none => false

/-- Number of a port among the injection ports of its FB (R172 and the RGL_ registers): metered ports 0 to 292, then the
unmetered agents. -/
def injPort (p : MPort) : Nat :=
  let x := p.a % 8
  let y := p.a / 8
  if 4 ≤ p.p ∧ p.p < 8 then 64 * (2 * (y / 4) + x / 4) + 4 * (4 * (y % 4) + x % 4) + (p.p - 4)
  else if p.a < 24 then 269 + p.a
  else if p.a < 36 then 256 + (p.a - 24)
  else if p.a = 36 then 268
  else 293 + (p.a - 37)

/-- A destination discards the part that it holds of a cancelled packet and gives back its credits; it answers a write with a
retry response (R169). -/
def cancelAt (s : State) (p : MPort) (f : Flit) : State :=
  let r : Flit := { f with
    type := 0x0B, vn := 1, cancel := false, cont := false, detour := false, half := 0, chunk := 0, chunks := 0
    srcPort := f.dstPort, srcRouter := f.dstRouter, dstPort := f.srcPort, dstRouter := f.srcRouter
    data := List.replicate 128 0 }
  let k := laneKey (farPort p) f
  let x := s.port p
  let n := (partOf (s.laneQ k)).length
  let s := if p.p < 8 then s
    else (s.setLaneQ k (wholeOf (s.laneQ k))).setPort p { x with
      used := tset 0 x.used (laneOf f) (tget 0 x.used (laneOf f) - n) }
  if f.type = 0x01 then { s with msh := { s.msh with retries := s.msh.retries ++ [r] } } else s

/-- A response that has reached its requester whole ends its request: read data, an acknowledgement, an atomic's result. -/
def answeredAt (s : State) (p : MPort) (f : Flit) : State :=
  if lastFlit f && [0x08, 0x09, 0x0A].contains f.type then
    { s with msh := { s.msh with
      inj := s.msh.inj.filter fun i => !(i.fb = p.fb && i.port = injPort p && i.tag = f.tag) } }
  else s

/-- A flit has left through the output port of its destination (R162, R169): a request waits in the bank's or the agent's lane,
and the rest is accepted at once. -/
def deliverFlit (p : MPort) (s : State) (f : Flit) : State :=
  if p.p < 4 then s
  else if f.cancel then (if p.p < 8 then s else cancelAt s p f)
  else if f.vn = 1 then answeredAt s p f
  else if takesCredit p.p f && decide (8 ≤ p.p) then
    s.setLaneQ (laneKey (farPort p) f) (s.laneQ (laneKey (farPort p) f) ++ [f])
  else s

/-- What the port carries in this cycle: what was decided on during the last one, if it is still there (R166); and the lane
that it came from. -/
def carry (s : State) (p : MPort) : State × Option Nat :=
  let x := s.port p
  match x.dec, x.grant with
  | some k, some g =>
    if k ≠ g.lane || !canSend s p x g then (s.setPort p { x with out := none }, none)
    else
      let fs := grantFlits s p g
      match fs.getLast? with
      | none => (s.setPort p { x with out := none }, none)
      | some f =>
        let l := laneOf f
        let x := { x with
          out := some f, busy := halfRate s p
          used := if takesCredit p.p f then tset 0 x.used l (tget 0 x.used l + fs.length) else x.used
          rr := if g.first then tset 0 x.rr g.prio g.lane else x.rr
          grant := if lastFlit f then none else some (g.after f fs.length) }
        (fs.foldl (deliverFlit p) ((s.setLaneQ k ((s.laneQ k).drop fs.length)).setPort p x), some k)
  | _, _ => (s.setPort p { x with out := none }, none)

/-- A port that has suspended packets to end sends their CANCEL flits. -/
def sendEnd (s : State) (p : MPort) (f : Flit) (fs : List Flit) : State :=
  let x := s.port p
  let k := laneOf f
  if !takesCredit p.p f then deliverFlit p (s.setPort p { x with ends := fs, out := some f }) f
  else if creditLeft x p.p k 1 then
    s.setPort p { x with ends := fs, out := some f, busy := halfRate s p, used := tset 0 x.used k (tget 0 x.used k + 1) }
  else s.setPort p { x with out := none }

/-- One cycle of an output port: it carries, and decides for the next; while a flit takes its second cycle to cross, the port
carries nothing more. -/
def portCycle (s : State) (p : MPort) : State :=
  let x := s.port p
  if x.busy then
    let s := s.setPort p { x with busy := false, out := none }
    if x.ends.isEmpty || x.grant.isSome then s.setPort p (decide_ s p x none) else s
  else
    match x.ends, x.grant with
    | f :: fs, none => sendEnd s p f fs
    | _, _ =>
      let (s, sent) := carry s p
      let y := s.port p
      if y.busy then s.setPort p { y with dec := none } else s.setPort p (decide_ s p x sent)

/-! ### A bank's arbiter (R168, R169) -/

/-- Lines of a burst that a bank serves: the chunks of a write, what a read request asks for, or one. -/
def burstLines (f : Flit) : Nat :=
  if 0 < f.chunks then f.chunks else if f.type = 0x00 then 1 + Config.paramLines f.data % 16 else 1

/-- A packet that the bank holds whole at the head of a lane. -/
def heldPacket (s : State) (k : Nat) : Option Flit :=
  let q := s.laneQ k
  if (q.take (packetLen q)).any lastFlit then q.head? else none

/-- Any response packet that the bank has begun for a burst ends with a CANCEL flit, to be sent again whole. -/
def endResponse (s : State) (p : MPort) (f : Flit) : State :=
  let b := s.port (farPort p)
  let mine (r : Flit) : Bool := r.tag = f.tag && r.dstRouter = f.srcRouter && r.dstPort = f.srcPort
  match (List.range 3).findSome? fun i => (tget none s.msh.open_ (12 * portKey p + 6 + i)).filter mine with
  | none => s
  | some r =>
    let x := s.port p
    let s := s.setPort p { x with cancels := satInc 65535 x.cancels }
    s.setPort (farPort p) { b with ends := b.ends ++ [{ r with cancel := true, cont := false, data := List.replicate 128 0 }] }

/-- The burst that a bank serves next: GUARANTEED first, and one that waits to restart before the others of its lane. -/
def nextBurst (s : State) (p : MPort) (b : Port) : Option Grant :=
  let lane (l : Nat) : Nat := 12 * portKey (farPort p) + l
  if (heldPacket s (lane 1)).isSome then some { lane := lane 1 }
  else b.suspB.orElse fun _ => if (heldPacket s (lane 2)).isSome then some { lane := lane 2 } else none

/-- A bank serves a line of its burst. GUARANTEED may take it from a BEST_EFFORT burst, which restarts from its first line, at
most three times (R168); the packet leaves with its last line, and its credits return. -/
def bankCycle (s : State) (p : MPort) : State :=
  let far := farPort p
  let b := s.port far
  match b.grant with
  | none =>
    match nextBurst s p b with
    | none => s
    | some g => s.setPort far { b with grant := some g, suspB := if g.prio = 2 then none else b.suspB }
  | some g =>
    match heldPacket s g.lane with
    | none => s.setPort far { b with grant := none }
    | some f =>
      let urgent := (heldPacket s (12 * portKey far + 1)).isSome
      if burstLines f ≤ g.sent + 1 then
        let q := s.laneQ g.lane
        let x := s.port p
        let l := g.lane % 12
        let s := s.setPort p { x with used := tset 0 x.used l (tget 0 x.used l - packetLen q) }
        (s.setLaneQ g.lane (q.drop (packetLen q))).setPort far { b with grant := none }
      else if g.prio = 2 && urgent && decide (g.restarts < 3) then
        let x := s.port p
        let s := s.setPort p { x with restarts := satInc 65535 x.restarts }
        let s := s.setPort far { b with
          grant := some { lane := 12 * portKey far + 1 }, suspB := some { lane := g.lane, restarts := g.restarts + 1 } }
        if f.type = 0x00 then endResponse s p f else s
      else s.setPort far { b with grant := some { g with first := false, sent := g.sent + 1 } }

/-- A CANCEL that a bank owes enters its input lane of the router. -/
def bankEnds (s : State) (p : MPort) : State :=
  let b := s.port (farPort p)
  match b.ends with
  | [] => s
  | f :: fs =>
    let k := laneKey p f
    if laneDepth 8 (laneOf f) ≤ (s.laneQ k).length then s
    else
      let s := (s.setLaneQ k (s.laneQ k ++ [f])).setPort (farPort p) { b with ends := fs }
      { s with msh := { s.msh with open_ := tset none s.msh.open_ k none } }

/-- ARBITRATION_CYCLE (R165-R168, R170): of an output port, and of the bank beyond it. -/
def execArbitrationCycle (p : MPort) (s : State) : Out :=
  if !connected s p then .next s -- the port has no link
  else
    let s := portCycle s p
    .next (if p.p = 8 then bankEnds (bankCycle s p) p else s)

/-- CREDIT_RETURN (R161): `lane` of the downstream port; an agent that returns one has taken the lane's oldest flit, and a
bank returns those of a burst that it has served. -/
def execCreditReturn (p : MPort) (lane : Nat) (s : State) : Out :=
  let x := s.port p
  let n := tget 0 x.used lane
  let k := 12 * portKey (farPort p) + lane
  if n = 0 || p.p = 8 then .next s -- no credit of the lane is out, or the bank returns it
  else
    let s := if p.p = 9 then s.setLaneQ k ((s.laneQ k).drop 1) else s
    .next (s.setPort p { x with used := tset 0 x.used lane (n - 1) })

/-! ### Freezing and draining (R169, R170) -/

/-- Drop the rest of the packet at a lane's head, now and as it arrives. -/
def dropPacket (s : State) (k : Nat) : State :=
  let q := s.laneQ k
  let n := packetLen q
  let whole := (q.take n).any lastFlit
  let s := s.setLaneQ k (q.drop n)
  if whole then s else { s with msh := { s.msh with dropping := tset false s.msh.dropping k true } }

/-- End a packet that has been sent in part with CANCEL; its remaining flits are dropped. -/
def cancelSusp (s : State) (p : MPort) (g : Grant) : State :=
  match g.last with
  | none => s
  | some f =>
    let x := s.port p
    dropPacket (s.setPort p { x with
      cancels := satInc 65535 x.cancels
      ends := x.ends ++ [{ f with cancel := true, cont := false, data := List.replicate 128 0 }] }) g.lane

/-- Freeze a port: what is suspended there ends with CANCEL. -/
def freezePort (s : State) (p : MPort) : State :=
  let x := s.port p
  if x.freeze || !connected s p then s
  else
    let s := s.setPort p { x with freeze := true, suspG := none, suspB := none }
    ([x.suspG, x.suspB].filterMap id).foldl (fun s g => cancelSusp s p g) s

/-- Freeze a port whose hop retrains: the packet that holds its grant ends with CANCEL as well. -/
def freezeHop (s : State) (p : MPort) : State :=
  let own := !(s.port p).freeze && connected s p
  let s := freezePort s p
  let s := if own then s.setPort p { s.port p with hopFreeze := true } else s
  let x := s.port p
  match x.grant with
  | some g => if connected s p then cancelSusp (s.setPort p { x with grant := none, dec := none }) p g else s
  | none => s

/-- Clear a freeze, with no state of the arbiter kept from before. -/
def thawPort (s : State) (p : MPort) : State :=
  s.setPort p { s.port p with freeze := false, drained := false, rr := [], hopFreeze := false }

/-- A bundle of pair `i` has come back to GULGEN, and its retrain has not ended (R337, step 4). -/
def hopReturns (s : State) (e i : Nat) : Bool :=
  let (p, _, v) := edgeEnds e
  [0, 1].any fun b => bundleUp s e i b && (tget {} s.die.bundles (32 * p + 16 * v + 2 * i + b) : BundleEnd).retrain

/-- A hop that its retrain froze goes on with the other bundle alone once it has drained (R337, step 2). -/
def thawHop (s : State) (p : MPort) : State :=
  match edgeOf p with
  | some (e, i) =>
    if (s.port p).hopFreeze && (s.port p).drained && pairUp s e i && !hopReturns s e i then thawPort s p else s
  | none => s

/-- FREEZE_SET (R170): a write to a port that is not CONNECTED is discarded. -/
def execFreezeSet (p : MPort) (s : State) : Out := .next (if s.iso p.fb then s else freezePort s p)

/-- FREEZE_CLEAR (R170, R31). -/
def execFreezeClear (p : MPort) (s : State) : Out := .next (if connected s p && !s.iso p.fb then thawPort s p else s)

/-- Nothing in progress or suspended, every credit back. -/
def Port.quiet (x : Port) : Bool :=
  x.grant.isNone && x.suspG.isNone && x.suspB.isNone && x.ends.isEmpty && x.used.isEmpty && !x.busy

/-- PORT_DRAINED (R170, R337). -/
def execPortDrained (p : MPort) (s : State) : Out :=
  let x := s.port p
  if x.freeze && x.quiet then .next (thawHop (s.setPort p { x with drained := true }) p)
  else .next s -- the port is not frozen, or has not drained

/-- CANCEL_FLIT_RECEIVE (R169): at its destination the part held is discarded, and a cancelled write is answered with a
retry; elsewhere the flit ends its packet in the lane. -/
def execCancelFlitReceive (p : MPort) (f : Flit) (s : State) : Out :=
  let k := laneKey p f
  if !f.cancel then .next s -- the flit is no CANCEL
  else if atDest p f then .next (cancelAt s p f)
  else if 9 < p.p then .next s -- no such port
  else if laneDepth p.p (laneOf f) ≤ (s.laneQ k).length then .next s -- the lane has no credit
  else
    let s := s.setLaneQ k (s.laneQ k ++ [f])
    .next { s with msh := { s.msh with open_ := tset none s.msh.open_ k none } }

/-- RETRY_RESPONSE (R169): the requester at a port sends its write again. -/
def execRetryResponse (p : MPort) (tag : Nat) (s : State) : Out :=
  let here (f : Flit) : Bool :=
    f.tag = tag && f.dstRouter = 16 * meshY p.fb p.a + meshX p.fb p.a && f.dstPort = p.p
  match s.msh.retries.find? here with
  | none => .next s -- no retry was sent to the requester
  | some f =>
    let mine (i : Inj) : Bool := i.fb = p.fb && i.port = injPort p && i.tag = tag
    .next { s with msh := { s.msh with
      retries := removeOne f s.msh.retries
      inj := s.msh.inj.map fun i => if mine i then { i with sends := i.sends + 1 } else i } }

/-! ### The edge remap table (R164) -/

/-- The pair a pair's hop goes through: itself, or the nearest with a bundle up that is not remapped, the lower on a
tie. -/
def remapTarget (s : State) (e i : Nat) : Option Nat :=
  if pairUp s e i then none
  else (List.range 8).findSome? fun d =>
    if d = 0 then none
    else if d ≤ i ∧ pairUp s e (i - d) then some (i - d)
    else if i + d < 8 ∧ pairUp s e (i + d) then some (i + d)
    else none

/-- The edge's table as the bundles are. -/
def remapTable (s : State) (e : Nat) : W32 :=
  BitVec.ofNat 32 ((List.range 8).foldl (fun a i =>
    a + 16 ^ i * (match remapTarget s e i with
      | some j => 8 + j
      | none => i)) 0)

/-- Ports of both routers of a pair toward the edge. -/
def pairPorts (e i : Nat) : List MPort :=
  let (p, q, v) := edgeEnds e
  if v = 0 then [⟨p, 8 * i + 7, 1⟩, ⟨q, 8 * i, 3⟩] else [⟨p, 56 + i, 2⟩, ⟨q, i, 0⟩]

/-- EDGE_REMAP (R164): the pairs whose entry changes, and their old and new targets, are frozen and drained.
DEDUCED: log entry 86. -/
def execEdgeRemap (e : Nat) (s : State) : Out :=
  let t := remapTable s e
  let nib (w : W32) (i : Nat) : Nat := w.toNat / 16 ^ i % 16
  let pairs := (List.range 8).flatMap fun i =>
    if nib t i = nib (remapWord s e) i then [] else [i, nib t i % 8, nib (remapWord s e) i % 8]
  let ports := pairs.flatMap (pairPorts e)
  if e < 4 && !pairs.isEmpty && ports.all fun p => !connected s p || ((s.port p).freeze && (s.port p).drained) then
    let s := { s with msh := { s.msh with pair := tset 0x76543210 s.msh.pair e t } }
    .next (ports.foldl thawPort s)
  else .next s -- no entry changes, or a port is not frozen and drained

end Sys2Proof.Machine
end

