-- ==== Sys2Proof/Machine/DieLoss.lean ====
section
/-! DEFINITION. Die loss (R339-R343): detection, freezing, isolation and containment, and what both readmissions share
(R344, R345). -/

namespace Sys2Proof.Machine

/-! ### Ports that face a die (R341) -/

/-- Mesh routers of an SC's 64 vertical ports, by local index. -/
def scRouters (j : Nat) : List Nat :=
  (List.range 16).map fun i => 8 * (4 * (j % 4 / 2) + i / 4) + 4 * (j % 2) + i % 4

/-- The edges that join an FB. -/
def edgesOf (k : Nat) : List Nat := (List.range 4).filter fun e => (edgeEnds e).1 = k || (edgeEnds e).2.1 = k

/-- Every port that faces a die. -/
def facing (d : Die) : List MPort :=
  match d with
  | .sc j => (scRouters j).flatMap fun a => (List.range 4).map fun v => ⟨j / 4, a, 4 + v⟩
  | .fb k => (edgesOf k).flatMap fun e => (List.range 8).flatMap (pairPorts e)

/-- Flits queued for a port are discarded, with what is still to come of their packets, and the port sends nothing
more. -/
def discardToward (s : State) (p : MPort) : State :=
  let s := (List.range 120).foldl (fun s i =>
    let k := 12 * portKey ⟨p.fb, p.a, i / 12⟩ + i % 12
    let mine (f : Flit) : Bool := (routeFlit s p.fb p.a (i / 12) f).1 == p.p
    let q := s.laneQ k
    if q.any mine then
      let open_ := q.getLast?.any fun f => mine f && !lastFlit f
      let s := s.setLaneQ k (q.filter fun f => !mine f)
      let s := { s with msh := { s.msh with open_ := if open_ then tset none s.msh.open_ k none else s.msh.open_ } }
      if open_ then { s with msh := { s.msh with dropping := tset false s.msh.dropping k true } } else s
    else s) s
  let x := s.port p
  s.setPort p { x with grant := none, dec := none, suspG := none, suspB := none, ends := [], used := [], out := none, busy := false }

/-- A packet that an input lane holds in part ends where it has been sent in part, with CANCEL (R169). -/
def cutLane (s : State) (p : MPort) (k : Nat) : State :=
  let q := s.laneQ k
  let part := partOf q
  let whole := wholeOf q
  let s := s.setLaneQ k whole
  let s := { s with msh := { s.msh with
    dropping := tset false s.msh.dropping k false, open_ := tset none s.msh.open_ k none } }
  if !whole.isEmpty then s
  else (List.range 10).foldl (fun s o =>
    let op : MPort := ⟨p.fb, p.a, o⟩
    let x := s.port op
    let on (g : Option Grant) : Bool := g.any fun g => g.lane = k
    let cut (g : Option Grant) : Option Grant := if on g then none else g
    if on x.grant || on x.suspG || on x.suspB then
      let sent := [x.grant, x.suspG, x.suspB].any fun g => g.any fun g => g.lane = k && !g.first
      let last : List Flit := match part.head?.orElse fun _ => x.out with
        | some f => if sent then [{ f with cancel := true, cont := false, data := List.replicate 128 0 }] else []
        | none => []
      s.setPort op { x with
        grant := cut x.grant, suspG := cut x.suspG, suspB := cut x.suspB
        dec := if x.dec = some k then none else x.dec
        ends := x.ends ++ last, cancels := if last.isEmpty then x.cancels else satInc 65535 x.cancels }
    else s) s

/-- Freeze a port that faces a lost die; what it holds of packets from the die is discarded. -/
def cutPort (s : State) (p : MPort) : State :=
  let s := discardToward s p
  let s := s.setPort p { s.port p with freeze := true }
  (List.range 12).foldl (fun s l => cutLane s p (12 * portKey p + l)) s

/-! ### Declaration (R340, R341) -/

/-- A die that is isolated, declared lost already, or out of service. -/
def dieOut (s : State) (d : Die) : Bool :=
  (s.die.lost.any fun e => e.1 = d) || (s.die.marked.any fun e => e.1 = d) ||
  (match d with
   | .fb k => s.iso k
   | .sc j => s.iso (j / 4) || !s.scAdmitted.getLsbD j)

/-- A die is lost: the ports that face it are frozen. The loss of FB0 is fatal (R340). -/
def declareLost (s : State) (d : Die) (cause : Nat) : State :=
  if !s.powered then s
  else if d = .fb 0 then coldStart s 2 false 0
  else if dieOut s d then s
  else
    let s := ((facing d).filter (connected s)).foldl cutPort s
    { s with die := { s.die with lost := s.die.lost ++ [(d, cause)] } }

/-- A reference source of an FB has failed (R331): FB3 takes its other one; an FB with none has lost its clock.
DEDUCED: log entry 89. -/
def referenceFails (s : State) (fb : Nat) : State :=
  let x := s.fbDie fb
  let x := if x.source = 2 then { x with altOk := false } else { x with primaryOk := false }
  let s := s.setFbDie fb x
  let next := if x.source = 2 then (if x.primaryOk then 1 else 0) else (if x.altOk then 2 else 0)
  if fb = 3 ∧ next ≠ 0 then
    ev (s.setFbDie fb { x with source := next, switches := satInc 65535 x.switches }) 0x0504 fb 0x11 0 next 0
  else declareLost s (.fb fb) 1

/-! ### Isolation (R341, R342) -/

/-- Cores of a die, and whether a DPA is homed in it. -/
def onDie (d : Die) (n : Nat) : Bool :=
  match d with
  | .fb k => n / 1024 = k
  | .sc j => n / 256 = j

/-- A bundle's end, and the end it joins (R163, R328). -/
def endKey (b : Bundle) : Nat := 32 * b.fb + 16 * b.s + 2 * b.i + b.b
def peerFb (b : Bundle) : Nat := if b.s = 0 then b.fb ^^^ 1 else b.fb ^^^ 2
def peerEnd (b : Bundle) : Bundle := { b with fb := peerFb b }
def State.bend (s : State) (b : Bundle) : BundleEnd := tget {} s.die.bundles (endKey b)
def State.setBend (s : State) (b : Bundle) (x : BundleEnd) : State :=
  { s with die := { s.die with bundles := tset {} s.die.bundles (endKey b) x } }

/-- Every bundle of an FB's two edges. -/
def bundlesOf (k : Nat) : List Bundle := (List.range 32).map fun i => ⟨k, i / 16, i % 16 / 2, i % 2⟩

/-- Cached lines of an FB are lost with it (R341 and the case of chapter 05). -/
def dropLines (s : State) (k : Nat) : State :=
  (s.dram.lines.filter fun e => homeQ (256 * e.1) = k).foldl (fun s e => dropLine s e.1)
    { s with dram := { s.dram with writeBacks := s.dram.writeBacks.filter fun e => homeQ (256 * e.1) ≠ k } }

/-- Outbound reads through the links of FB3, and packets at metered ports, that its loss ends; its own requests end with
a die. -/
def dropFlight (s : State) (d : Die) : State :=
  let here (i : Inj) : Bool := match d with
    -- the XY path goes through the quadrant in the row of the port and the column of the home
    | .fb k => i.fb = k || homeFb i.dpa = k || i.fb / 2 * 2 + homeFb i.dpa % 2 = k
    | .sc j => i.fb = j / 4 && i.port / 64 = j % 4 && decide (i.port < 256)
  { s with
    rgl := { s.rgl with wait := s.rgl.wait.filter fun i => !here i }
    msh := { s.msh with inj := s.msh.inj.filter fun i => !here i } }

/-- The PCIe links of FB3 (R229) end with it: what they carried completes DIE_LOST. -/
def dropPcie (s : State) : State :=
  [1, 3].foldl (fun s l =>
    let rs := (s.link l).reads
    let s := rs.foldl (fun s r => readFails s r cREMOTE stDIELOST) (s.setLink l { s.link l with reads := [] })
    loseLink s l false) s

/-- Cores of a die run nothing more. -/
def stopDie (s : State) (d : Die) : State :=
  ((tkeys s.cores).filter (onDie d)).foldl (fun s n => s.modCore n fun c => { c with reset := true }) s

/-- FB `k` (1 to 3) is marked isolated. DEDUCED: log entry 90. -/
def isolateFb (s : State) (k cause : Nat) : State :=
  let s := startIso s k cause
  let s := dropLines (stopDie s (.fb k)) k
  let s := (bundlesOf k).foldl (fun s b =>
    let down (s : State) (b : Bundle) : State := s.setBend b { s.bend b with st := 7, rounds := 0 }
    down (down s b) (peerEnd b)) s
  let s := linksDown s ((List.range 24).map (24 * k + ·))
  let s := s.setLantern k {}
  let s := if k = 3 then dropPcie s else s
  -- records that it had not sent are lost (R412)
  let own (r : Ev) : Bool := r.source / 2 ^ 14 = k
  let s := { s with evt := { s.evt with
    held := s.evt.held.filter fun r => !own r, loss := s.evt.loss || s.evt.held.any own } }
  let y := s.fbDie 3
  if k = 1 then s.setFbDie 3 { y with primaryOk := false }
  else if k = 2 then s.setFbDie 3 { y with altOk := false }
  else s

/-- An SC is marked isolated. -/
def isolateSc (s : State) (j cause : Nat) : State :=
  admitSc (stopDie (s.setSc j { s.sc j with st := 3, cause := cause }) (.sc j)) j false

/-- Mark a die isolated (R341): the inventory changes, requests to it complete DIE_LOST, and Y-first routing takes
effect, for it follows from the isolation. FB3 cannot be reached once FB1 and FB2 are both isolated (R342). -/
def markIsolated (s : State) (d : Die) (cause : Nat) : State :=
  let s := { s with die := { s.die with
    lost := s.die.lost.filter fun e => e.1 ≠ d, marked := s.die.marked ++ [(d, cause)] } }
  let s := match d with
    | .fb k => isolateFb s k cause
    | .sc j => isolateSc s j cause
  let s := unhold (dropFlight s d)
  let s := if d ≠ .fb 3 ∧ s.iso 1 ∧ s.iso 2 then declareLost s (.fb 3) 1 else s
  updateDegraded (redigest s)

/-! ### Containment (R341, R343) -/

/-- An ACTIVE group has a member on the die, or its tree runs through it. DEDUCED: log entry 93. -/
def groupOn (d : Die) (g : Group) : Bool :=
  g.state = 1 && g.desc.any fun x => x.members.any (onDie d) || (match d with
    | .fb k => (treeRouters x).any fun r => routerFb r = k
    | .sc _ => false)

/-- Launches that run on the die, or were commanded there. -/
def launchOn (d : Die) (l : Launch) : Bool :=
  (l.waiting ++ l.taken).any (onDie d) || (match d with
    | .fb k => l.ring / 16 = k
    | .sc _ => false)

/-- Contexts that have work on the die (R343). -/
def workOn (s : State) (d : Die) : List Nat :=
  let own (r : Nat) : Bool := match d with
    | .fb k => r / 16 = k
    | .sc _ => false
  let car (fb : Nat) : Bool := match d with
    | .fb k => fb = k
    | .sc _ => false
  dedup ((s.host.launches.filter (launchOn d)).map (·.ctx) ++
    (s.host.rings.filter fun e => own e.1 && e.2.enable).map (·.2.ctx) ++
    (s.host.inflight.filter fun c => own c.ring).map (·.ctx) ++
    (s.car.slots.filterMap fun e => if car (e.1 / 48) then e.2.job.map (·.ctx) else none) ++
    (s.car.queue.filter fun e => car e.1).map (·.2.2.ctx) ++
    (s.mil.groups.filter fun e => groupOn d e.2).map (·.2.ctx))

/-- A core of a lost die: nothing of it is left but its mapping. -/
def dropCore (s : State) (n : Nat) : State :=
  let ids := (s.core n).aops.map (·.id)
  let s := clearCore s n
  let s := ids.foldl (fun s id => forget s (.aop n id)) (forget s (.thread n 0))
  let s := dropZlr s fun w => match w with
    | .thread m _ | .aop m _ => m = n
    | _ => false
  let s := setReqs s (s.fab.reqs.map fun r => if r.n = n then { r with dead := true } else r)
  s.setCore n { phys := (s.core n).phys }

/-- Commands and Carter descriptors of an isolated FB end DIE_LOST, with no record (R343). -/
def dropFbWork (s : State) (k : Nat) : State :=
  let s := (tkeys s.car.slots).foldl (fun s key =>
    if key / 48 = k then
      let car := key % 48 / 4
      let sl := key % 4
      carFree s k car sl
    else s) s
  let s := { s with car := { s.car with queue := s.car.queue.filter fun e => e.1 ≠ k, disable := tdel s.car.disable k } }
  let s := (s.host.inflight.filter fun c => c.ring / 16 = k).foldl (fun s c =>
    let s := dropZlr (forget s (.cmd c.ring c.seq)) fun w => w == .cmd c.ring c.seq
    finishSt s c.ring c.seq stDIELOST 0) s
  { s with host := { s.host with
      rings := s.host.rings.filter fun e => e.1 / 16 ≠ k
      cqs := s.host.cqs.filter fun e => e.1 / 16 ≠ k
      held := s.host.held.filter fun e => e.1 / 16 ≠ k } }

/-- Translation state of an isolated FB is gone, and invalidations wait for it no longer. -/
def dropXlt (s : State) (k : Nat) : State :=
  let prune (i : Inval) : Inval := { i with
    fbs := i.fbs.filter (· ≠ k), ports := i.ports.filter fun e => e.1 ≠ k, old := i.old.filter fun e => e.1 ≠ k }
  advanceInval { s with xlt := { s.xlt with
    l1 := s.xlt.l1.filter fun e => e.1 / 512 ≠ k
    l2 := s.xlt.l2.filter fun e => e.1 / 4096 ≠ k
    walks := s.xlt.walks.filter fun w => w.fb ≠ k
    segSel := tdel s.xlt.segSel k
    inval := s.xlt.inval.map prune } }

/-- A group with work on the die goes FAULTED, and its root sends each surviving member a NOTICE (R200). -/
def noticeGroup (s : State) (d : Die) (gi : Nat) : State :=
  let ms := ((s.group gi).desc.map (·.members)).getD []
  let s := faultGroup s gi stDIELOST 0
  let g := s.group gi
  let s := s.setGroup gi { g with waits := g.waits.filter fun w => !onDie d w.member }
  (ms.filter fun n => !onDie d n).foldl (fun s n => fly s (.notice n) ⟨gi, 0, 0, 0, [], 1⟩) s

/-- DATA0 of DIE_LOST and DIE_REFUSED. -/
def dieNo (d : Die) : Nat :=
  match d with
  | .fb k => 256 * k
  | .sc j => 1 + 256 * j

/-- An SC's Reeve begins its readmission (R344). -/
def beginReadmit (s : State) (j : Nat) : State :=
  s.setSc j { s.sc j with st := 4, proto := 0, resets := satInc 255 (s.sc j).resets }

/-- Contain the loss of a marked die: dependent work completes DIE_LOST, contexts stop, groups are FAULTED, and FB0 logs
it. An SC lost twice within a Meridian window is newly bad (R344). -/
def contain (s : State) (d : Die) (cause : Nat) : State :=
  let s := { s with die := { s.die with marked := s.die.marked.filter fun e => e.1 ≠ d } }
  let s := (workOn s d).foldl State.stopCtx s
  let s := ((tkeys s.mil.groups).filter fun g => groupOn d (s.group g)).foldl (fun s g => noticeGroup s d g) s
  let s := (s.host.launches.filter (launchOn d)).foldl (fun s l => launchDone s l (some stDIELOST)) s
  let s := ((tkeys s.cores).filter (onDie d)).foldl dropCore s
  let s := match d with
    | .fb k => dropXlt (dropFbWork s k) k
    | .sc _ => s
  let s := ev s 0x0500 0 0x11 0 (dieNo d) cause
  match d with
  | .fb _ => pumpAll s
  | .sc j =>
    let w := windowOf s 0
    let x := s.sc j
    let twice := decide (cause ≠ 6) && x.lossWin == some w
    let s := if cause = 6 then s else s.setSc j { x with lossWin := some w }
    let s := if twice then newlyBad s ⟨8, j, 0⟩ else s
    if (s.die.readmit.contains (.sc j)) then
      let s := { s with die := { s.die with readmit := s.die.readmit.filter (· ≠ .sc j) } }
      pumpAll (if twice then s else beginReadmit s j)
    else pumpAll s

/-- An isolated SC whose isolation is complete, and which no record keeps out. -/
def mayReadmit (s : State) (j : Nat) : Bool :=
  (s.sc j).st = 3 && !s.iso (j / 4) && !s.boot.disabled.contains ⟨8, j, 0⟩ &&
  !(s.die.marked.any fun e => e.1 = .sc j) && !(s.die.lost.any fun e => e.1 = .sc j)

/-- Cores of an SC in service leave reset: each fetches its monitor (R111, R344, R366). -/
def releaseSc (s : State) (j : Nat) : State :=
  (List.range 256).foldl (fun s i =>
    let n := 256 * j + i
    if inService s n then s.setCore n { phys := (s.core n).phys, reset := false } else s) s

end Sys2Proof.Machine
end

