-- ==== Sys2Proof/Machine/BootRows.lean ====
section
/-! DEFINITION. Start requests, steps, core release and monitors (R109, R111, R112, R347-R352, R366, R367), and the
activation of staged firmware (R382). -/

namespace Sys2Proof.Machine

/-! ### Requests (R347, R351) -/

/-- A write of BOOT_CTRL.START: discarded and logged with another KEY, with START = 3, and while a start runs. -/
def startRequest (s : State) (start key : Nat) : State :=
  if !s.powered then s
  else if key ≠ 0x57A7 ∨ start = 3 ∨ starting s then
    regDiscard s (regOff 0 0x01 0x08) 0 (BitVec.ofNat 64 (start + 2 ^ 16 * key))
  else if start = 1 then warmStart s
  else coldStart s 4 false 0

/-- WARM_START_REQUEST. -/
def execWarmStartRequest (key : BitVec 16) (s : State) : Out := .next (startRequest s 1 key.toNat)

/-- COLD_START_REQUEST. -/
def execColdStartRequest (key : BitVec 16) (s : State) : Out := .next (startRequest s 2 key.toNat)

/-- The completion record of an activation is written if its ring takes it; then a warm start begins. -/
def activate (s : State) : State := warmStart s

/-- FW_STAGE_ACTIVATE (R382). -/
def execFwStageActivate (h : Hdr) (s : State) : Out :=
  fwStage 4 h [] (fun _ => false) [3]
    (fun s => activate (flushHeld 32 (finishSt s h.ring h.seq stDONE 0) [(s.ring h.ring).cq])) s

/-! ### Steps (R349, R352) -/

/-- The warm entry has ended, or it has failed (STEP_FAIL = 8). -/
def entryEnds (s : State) (us : Nat) (r : StepReport) : State :=
  if r.fail then coldStart s 5 true 8
  else enterStep (warmReset { s with boot := { s.boot with stepUs := tset 0 s.boot.stepUs 0 us } }) 2

/-- The step that runs ends after `us` µs. -/
def runStep (s : State) (us : Nat) (r : StepReport) : State :=
  let p := s.boot.phase
  if p = 11 then entryEnds s us r
  else stepEnds { s with boot := { s.boot with stepUs := tset 0 s.boot.stepUs p us } } p r

/-- START_STEP_END: step 7 ends once every SC has been released. -/
def execStartStepEnd (us : Nat) (r : StepReport) (s : State) : Out :=
  if s.powered && starting s && decide (us ≤ stepLimit s.boot.warm s.boot.phase) &&
      (s.boot.phase != 7 || s.boot.release.isEmpty) then .next (runStep s us r)
  else .next s -- no step runs, its limit has passed, or SCs wait for their release

/-- START_STEP_TIMEOUT: a failure of the step (R352). DEDUCED: log entry 83. -/
def execStartStepTimeout (us : Nat) (s : State) : Out :=
  if s.powered && starting s && decide (stepLimit s.boot.warm s.boot.phase < us) then
    .next (runStep s us { fail := true, firmware := false, fbFail := [], bad := [], passed := [], temps := [] })
  else .next s -- no step runs, or its limit has not passed

/-- SC_RELEASE (R366). -/
def execScRelease (sc : Nat) (s : State) : Out :=
  if s.boot.phase = 7 ∧ s.boot.release.head? = some sc then
    .next (releaseSc { s with boot := { s.boot with release := s.boot.release.tail } } sc)
  else .next s -- the SC is not the next to be released

/-! ### The monitor's fetch (R111, R112, R367) -/

/-- A read of scratch at a core's boot: the bytes, or a failure; none where it is held. DEDUCED: log entry 103. -/
def bootRead (s : State) (a n : Nat) (e : Ecc) : State × Option (List Byte) :=
  match granaryEcc s a e [] with
  | (s, some _) => (s, none)
  | (s, none) =>
    match memRead s a n with
    | (s, .ok bs) => (s, some bs)
    | (s, .error _) => (s, none)

/-- A descriptor that R111 and R112 accept: LENGTH, IMAGE and ENTRY. -/
def goodDescriptor (s : State) (d : List Byte) : Option (Nat × Nat × Nat) :=
  let f (o n : Nat) : Nat := leNat ((d.drop o).take n)
  let len := f 4 4
  let img := f 8 8
  if f 0 4 = 1 && len % 8 = 0 && 8 ≤ len && len ≤ 16384 && img % 256 = 0 && scrBase ≤ img && rangeBacked s img len &&
      f 16 2 % 8 = 0 && f 16 2 < len && f 18 14 = 0 then some (len, img, f 16 2)
  else none

/-- CORE_BOOT_FAIL of a core that stays in reset: 1 its descriptor, 2 its image. -/
def bootFail (s : State) (n what : Nat) : State :=
  ev (s.modCore n fun c => { c with reset := true }) 0x0200 (coreFb n) (coreBlock n) (n % 256) n what

/-- A descriptor that breaks R111 is a firmware failure of step 7 (R352). -/
def bootBroken (s : State) (n what : Nat) : State :=
  let s := bootFail s n what
  if s.boot.phase = 7 then nextSlot s 7 else s

/-- An uncorrectable read leaves the core in reset, and an event names it (R112): Reeve-0 rewrites the lines and releases
the core once more; the second takes the logical number out of service (R367). DEDUCED: log entry 85. -/
def bootUnc (s : State) (n what : Nat) : State :=
  let again := s.boot.retried.contains n
  let s := bootFail { s with boot := { s.boot with retried := s.boot.retried ++ [n] } } n what
  if again then updateDegraded (redigest s)
  else
    let s := if what = 1 then
        (List.range 8).foldl (fun s i =>
          let m := n / 8 * 8 + i
          writeScratch s (0xF000000000 + 32 * m) (descriptor s m)) s
      else writeScratch s monitorDpa s.boot.alm.monitor
    s.modCore n fun c => { c with reset := false }

/-- The core copies its image and starts thread 0 at ENTRY, with every register zero. -/
def startMonitor (s : State) (n entry : Nat) (img : List Byte) : State :=
  let c := s.core n
  s.setCore n { phys := c.phys, ls := c.ls, reset := false, is_ := Memory.writeN [] 0 img,
                thr := [(0, { st := .ready, pc := BitVec.ofNat 16 entry })] }

/-- A core's fetch of its monitor. -/
def fetchMonitor (s : State) (n : Nat) (ecc imgEcc : Ecc) : State :=
  match bootRead s (0xF000000000 + 32 * n) 32 ecc with
  | (s, none) => bootUnc s n 1
  | (s, some d) =>
    match goodDescriptor s d with
    | none => bootBroken s n 1
    | some (len, img, entry) =>
      match bootRead s img len imgEcc with
      | (s, none) => bootUnc s n 2
      | (s, some bs) => startMonitor s n entry bs

/-- A core that has been released and whose monitor has not started. -/
def booting (s : State) (n : Nat) : Bool :=
  !(s.core n).reset && !(s.core n).monFault && (s.thr n 0).st = .off && inService s n

/-- BOOT_DESCRIPTOR_FETCH. -/
def execBootDescriptorFetch (n : Nat) (ecc imgEcc : Ecc) (s : State) : Out :=
  if booting s n then .next (fetchMonitor s n ecc imgEcc)
  else .next s -- the core is in reset, or its monitor has started

/-- Physical cores of an SC in service that stand behind no logical core. -/
def freeCores (s : State) (sc : Nat) : List Nat :=
  let used := (List.range 256).map fun i => physCore s (256 * sc + i)
  (goodCores s sc).filter fun p => !used.contains p

/-- A core that is newly bad: its logical number moves to the lowest free physical core, or out of service (R367). -/
def moveCore (s : State) (n : Nat) : State :=
  let p := physCore s n
  let s := newlyBad (ev s 0x0203 (coreFb n) (coreBlock n) (n % 256) n p) ⟨1, n / 256, p⟩
  let s := match (freeCores s (n / 256)).head? with
    | some p => s.setCore n { phys := if p = n % 256 then none else some p, reset := false }
    | none => s.setCore n { phys := some noCore }
  updateDegraded (redigest s)

/-- CORE_READY_TIMEOUT (R367). -/
def execCoreReadyTimeout (n : Nat) (s : State) : Out :=
  if booting s n then .next (moveCore s n)
  else .next s -- the core is in reset, or its monitor has started

/-- MONITOR_FAULT_RESET (R109, R248): the core's kernel threads, tiles and local store are lost, and it refetches
its monitor. DESIGN CHOICE: log entry 99. -/
def execMonitorFaultReset (n : Nat) (s : State) : Out :=
  if (s.core n).monFault && !reeveDown s (coreFb n) then
    let s := dropCore s n
    .next (pumpAll (s.setCore n { phys := (s.core n).phys, reset := false }))
  else .next s -- the core's monitor has not faulted, or its Reeve is down

end Sys2Proof.Machine
end

