-- ==== Sys2Proof/Machine/DieRows.lean ====
section
/-! DEFINITION. Bundles, discovery, detection, isolation and readmission of dies (chapter 14). -/

namespace Sys2Proof.Machine

/-! ### Bundles (R329, R335-R337) -/

/-- The edge of a bundle. -/
def edgeOfB (b : Bundle) : Nat :=
  if b.s = 0 then (if b.fb < 2 then 0 else 3) else (if b.fb % 2 = 0 then 1 else 2)

/-- The FB of higher index on an edge. -/
def farFb (e : Nat) : Nat := (edgeEnds e).2.1

/-- DATA0 of a bundle's events. -/
def bundleNo (b : Bundle) : Nat := b.s + 2 ^ 8 * b.i + 2 ^ 16 * b.b
def bundleEvent (s : State) (b : Bundle) (code d1 : Nat) : State := ev s code b.fb 0x11 0 (bundleNo b) d1

/-- A bundle's retrain is over at both of its ends. -/
def retrainOver (s : State) (b : Bundle) : State :=
  let s := s.setBend b { s.bend b with retrain := false }
  s.setBend (peerEnd b) { s.bend (peerEnd b) with retrain := false }

/-- A bundle goes DOWN; where no bundle of its edge is left the FB of higher index is lost (R164, R336, R340). -/
def bundleDown (s : State) (b : Bundle) : State :=
  let x := s.bend b
  let s := bundleEvent (retrainOver (s.setBend b { x with st := 7 }) b) b 0x0502 x.inuse.toNat
  let e := edgeOfB b
  let s := (pairPorts e b.i).foldl thawHop s
  let all := (bundlesOf b.fb).filter fun c => c.s = b.s
  if all.all fun c => (s.bend c).st = 7 || (s.bend (peerEnd c)).st = 7 then declareLost s (.fb (farFb e)) 3 else s

/-- A bundle retrains (R337): its hop's ports are frozen, and both ends enter RETRAIN. -/
def bundleRetrain (s : State) (b : Bundle) (trigger : Nat) : State :=
  let s := (pairPorts (edgeOfB b) b.i).foldl freezeHop s
  let go (s : State) (b : Bundle) : State :=
    let x := s.bend b
    s.setBend b { x with st := 6, rounds := 0, retrains := satInc 65535 x.retrains, nakRun := 0, retrain := true }
  bundleEvent (go (go s b) (peerEnd b)) b 0x0503 (Config.retrainTrigger trigger)

/-- GULGEN_FRAME_RECEIVE (R329): a frame of another version is not read (R10). DEDUCED: log entry 142. -/
def execGulgenFrameReceive (b : Bundle) (version fseq ack : Nat) (nak crcOk : Bool) (s : State) : Out :=
  let x := s.bend b
  let ours := crcOk && version = 1
  if x.st ≠ 4 then .next s -- the bundle is not in GULGEN
  else
    let (s, m) := readMer s b.fb
    let win := m.toNat / 1000000
    let bad := (if x.crcWin = win then x.crcErr else 0) + b2n !crcOk
    let x := { x with crcErr := min 255 bad, crcWin := win }
    let x := if ours && fseq = x.rxSeq then { x with rxSeq := (x.rxSeq + 1) % 4096, nakOwed := false }
      else { x with nakOwed := true }
    -- the header of a discarded frame is not read
    let x := if !ours then x
      else if nak then
        { x with acked := ack % 4096, nakRun := if x.nakSeq = ack % 4096 && x.nakRun ≠ 0 then x.nakRun + 1 else 1,
                 nakSeq := ack % 4096, txSeq := (ack + 1) % 4096 }
      else { x with acked := ack % 4096, nakRun := 0 }
    let s := s.setBend b x
    if 16 < bad then .next (bundleRetrain s b 1)
    else if 8 ≤ x.nakRun then .next (bundleRetrain s b 0)
    else .next s

/-- The Tithe unit of a lane, or of a lane clock as 18 or 19 (R354). -/
def laneUnit (b : Bundle) (lane : Nat) : TitheUnit := ⟨4, b.fb, b.s + 2 ^ 8 * b.i + 2 ^ 16 * b.b + 2 ^ 24 * lane⟩

/-- LANE_TEST_DONE (R335, R355): LOCAL is what passed and is not marked bad; what failed for the first time is newly
bad. -/
def execLaneTestDone (b : Bundle) (good : BitVec 18) (ckGood : BitVec 2) (s : State) : Out :=
  let x := s.bend b
  if !([1, 2, 6].contains x.st) then .next s -- no lane test runs on the bundle
  else
    let off (lane : Nat) : Bool := s.boot.disabled.contains (laneUnit b lane) || s.boot.fuse.contains (laneUnit b lane)
    let mask (w base : Nat) : Nat := (List.range w).foldl (fun m i => if off (base + i) then m + 2 ^ i else m) 0
    let fails := ((List.range 18).filter fun i => !good.getLsbD i && !off i) ++
      ((List.range 2).filter fun i => !ckGood.getLsbD i && !off (18 + i)).map (18 + ·)
    let s := fails.foldl (fun s i => newlyBad s (laneUnit b i)) s
    .next (s.setBend b { x with
      st := 3, rounds := 0, mine := good &&& ~~~(BitVec.ofNat 18 (mask 18 0)), mineCk := ckGood &&& ~~~(BitVec.ofNat 2 (mask 2 18)) })

/-- Number of lanes set. -/
def popcount18 (m : BitVec 18) : Nat := ((List.range 18).filter m.getLsbD).length

/-- BUNDLE_MASK_RECEIVED (R336, steps 2 to 4). -/
def execBundleMaskReceived (b : Bundle) (peer : BitVec 18) (peerCk : BitVec 2) (s : State) : Out :=
  let x := s.bend b
  if x.st ≠ 3 ∧ x.st ≠ 5 then .next s -- the bundle agrees on no lane set
  else
    let inuse := x.mine &&& peer
    let ck := x.mineCk &&& peerCk
    let s := s.setBend b { x with
      peer := peer, peerCk := peerCk, inuse := inuse, ck := if ck.getLsbD 0 || !ck.getLsbD 1 then 0 else 1 }
    .next (if popcount18 inuse < 16 ∨ ck = 0 then bundleDown s b else s)

/-- BUNDLE_REPORT_RECEIVED (R336, steps 5 to 7): the width is 16. DEDUCED: log entry 92. -/
def execBundleReportReceived (b : Bundle) (inuse : BitVec 18) (width : Nat) (s : State) : Out :=
  let x := s.bend b
  if x.st ≠ 3 ∧ x.st ≠ 5 then .next s -- the bundle agrees on no lane set
  else if inuse = x.inuse ∧ width = 16 then
    let s := s.setBend b { x with st := 4, rxSeq := 0, txSeq := 0, acked := 0, nakRun := 0, nakOwed := false, crcErr := 0 }
    -- after a retrain the hop is frozen once more (R337, step 4)
    .next (if hopReturns s (edgeOfB b) b.i then (pairPorts (edgeOfB b) b.i).foldl freezeHop s else s)
  else if x.rounds < 3 then
    let f := s.fbDie b.fb
    let s := s.setFbDie b.fb { f with disputes := satInc 255 f.disputes }
    .next (bundleEvent (s.setBend b { x with st := 5, rounds := x.rounds + 1 }) b 0x0501 (x.rounds + 1))
  else .next (bundleDown s b)

/-- BUNDLE_RETRAIN_DONE (R337, step 4): both ends are in GULGEN and the hop, frozen once more, has drained: it resumes,
but for a port that was frozen by its own register. DEDUCED: log entry 91. -/
def execBundleRetrainDone (b : Bundle) (s : State) : Out :=
  let e := edgeOfB b
  if bundleUp s e b.i b.b && (s.bend b).retrain &&
      (pairPorts e b.i).all fun p => (s.port p).freeze && (s.port p).drained then
    .next ((pairPorts e b.i).foldl (fun s p => if (s.port p).hopFreeze then thawPort s p else s) (retrainOver s b))
  else .next s -- the bundle has not retrained, or its hop is not frozen and drained

/-- BUNDLE_RETRAIN_TIMEOUT (R337). -/
def execBundleRetrainTimeout (b : Bundle) (s : State) : Out :=
  if [2, 3, 5, 6].contains (s.bend b).st && !starting s then .next (bundleDown s b)
  else .next s -- the bundle does not retrain

/-! ### Capability records (R333, R334) -/

/-- A number in a record. -/
def recField (r : List Byte) (o n : Nat) : Nat := leNat ((r.drop o).take n)

/-- The check that a record fails: 4 the record, 5 a die the combination does not list; 0 none. -/
def recordCheck (s : State) (d : Die) (r : List Byte) : Nat :=
  let f := recField r
  let (kind, idx) := match d with
    | .fb k => (0, k)
    | .sc j => (1, j)
  if r.length = 64 && f 0 1 = 1 && f 1 1 % 16 = kind && f 3 1 = idx && f 4 1 % 16 ≤ 1 && 1 ≤ f 4 1 / 16 &&
      (r.drop 10).all (· == 0) then
    match s.boot.alm.combos[s.boot.combo]? with
    | some c => if c.dies.contains (kind, f 1 1 / 16, f 2 1) then 0 else 5
    | none => 5
  else 4

/-- An SC's record is admitted, and it goes on to its self-test; or it is refused (R334), in a readmission for good
(R344). -/
def scRecord (s : State) (j : Nat) (r : List Byte) : State :=
  let x := s.sc j
  let c := recordCheck s (.sc j) r
  let x := { x with gen := recField r 1 1 / 16 }
  if c = 0 then s.setSc j { x with proto := 1 }
  else
    let s := ev (s.setSc j { x with proto := 0, st := 5, cause := c }) 0x0505 0 0x11 0 (dieNo (.sc j)) c
    if x.st = 4 then newlyBad s ⟨8, j, 0⟩ else s

/-- DIE_CAPABILITY_RECORD (R334): while a die is tested, at a start or a readmission. -/
def execDieCapabilityRecord (die : Die) (record : List Byte) (s : State) : Out :=
  match die with
  | .sc j =>
    if (s.sc j).st = 1 ∨ (s.sc j).st = 4 then .next (scRecord s j record)
    else .next s -- the SC is not under test
  | .fb k =>
    if s.boot.phase = 4 || s.die.readmit.contains (.fb k) then
      let c := recordCheck s (.fb k) record
      if c = 0 then .next (s.setFbDie k { s.fbDie k with record := true })
      else .next (ev s 0x0505 0 0x11 0 (dieNo (.fb k)) c)
    else .next s -- the FB is not under test

/-! ### Detection (R331, R339, R340) -/

/-- REFERENCE_SOURCE_SWITCH (R331). -/
def execReferenceSourceSwitch (fb : Nat) (s : State) : Out :=
  .next (if !s.powered || s.iso fb then s else referenceFails s fb)

/-- What follows a clock declared lost: a reference, a bundle's lane clock, or an SC's clock. -/
def clockLost (s : State) (fb kind idx : Nat) : State :=
  match kind with
  | 0 => referenceFails s fb
  | 1 =>
    let b : Bundle := ⟨fb, idx / 16, idx % 16 / 2, idx % 2⟩
    if (s.bend b).st = 4 then bundleRetrain s b 2 else s
  | _ => declareLost s (.sc (4 * fb + idx % 4)) 1

/-- CLOCK_MONITOR_WINDOW (R339): two windows in succession that deviate by more than 25 % lose the clock. DEDUCED:
log entry 97. -/
def execClockMonitorWindow (fb kind idx edges nominal : Nat) (s : State) : Out :=
  let k := (fb, kind, idx)
  let off := decide (nominal < 4 * ((edges - nominal) + (nominal - edges)))
  let set (l : List (Nat × Nat × Nat)) : State := { s with die := { s.die with bad := l } }
  let rest := s.die.bad.filter (· ≠ k)
  if !s.powered || s.iso fb then .next s
  else if !off then .next (set rest)
  else if s.die.bad.contains k then .next (clockLost (set rest) fb kind idx)
  else .next (set (rest ++ [k]))

/-- HEARTBEAT_SEND (R339): what is sent changes nothing of the sender. -/
def execHeartbeatSend (_die : Die) (s : State) : Out := .next s

/-- HEARTBEAT_LOST (R339, R340). -/
def execHeartbeatLost (die : Die) (s : State) : Out := .next (declareLost s die 2)

/-- DIE_ISOLATE_MARK (R341). -/
def execDieIsolateMark (die : Die) (s : State) : Out :=
  match s.die.lost.find? fun e => e.1 = die with
  | some e => .next (markIsolated s die e.2)
  | none => .next s -- the die has not been declared lost

/-- DIE_LOSS_CONTAINMENT (R341, R343). -/
def execDieLossContainment (die : Die) (s : State) : Out :=
  match s.die.marked.find? fun e => e.1 = die with
  | some e => .next (contain s die e.2)
  | none => .next s -- the die has not been marked isolated

/-! ### Readmission (R344, R345) -/

/-- SC_RESET (R344): an admitted SC is isolated first. -/
def scResetBit (s : State) (sc : Nat) : State :=
  if !s.powered || s.iso (sc / 4) then s
  else if s.scAdmitted.getLsbD sc && !dieOut s (.sc sc) then
    let s := declareLost s (.sc sc) 6
    { s with die := { s.die with readmit := s.die.readmit ++ [.sc sc] } }
  else if mayReadmit s sc then beginReadmit s sc
  else s

/-- DEDUCED: log entry 95. -/
def execScReset (sc : Nat) (s : State) : Out := .next (scResetBit s sc)

/-- SC_AUTO_READMIT (R344). -/
def execScAutoReadmit (sc : Nat) (s : State) : Out :=
  if mayReadmit s sc && (s.fbDie (sc / 4)).autoReadmit && !reeveDown s (sc / 4) then .next (beginReadmit s sc)
  else .next s -- the SC is not isolated, or its readmission waits for a write

/-- An SC is back: its ports thaw and its cores fetch their monitors; logical core numbers stay (R344). DEDUCED: log entry 96. -/
def readmitSc (s : State) (sc bonds : Nat) : State :=
  let (fb, u) := scUnit sc
  let s := admitSc (startSc (setRail (s.setSc sc { s.sc sc with st := 2, cause := 0, bonds := bonds, proto := 1 }) fb u 1) sc) sc true
  releaseSc ((facing (.sc sc)).foldl thawPort s) sc

/-- SC_READMIT_COMPLETE (R338, R344): at most 32 bad bonds on any port and direction, and its record admitted. -/
def execScReadmitComplete (sc : Nat) (pass : Bool) (cause bonds : Nat) (s : State) : Out :=
  let x := s.sc sc
  if x.st ≠ 4 then .next s -- the SC is not being readmitted
  else if pass && decide (bonds ≤ 32) && x.proto = 1 then .next (updateDegraded (redigest (readmitSc s sc bonds)))
  else
    let cause := if !pass then cause % 16 else if 32 < bonds then 3 else 4
    .next (newlyBad (s.setSc sc { x with st := 5, cause := cause }) ⟨8, sc, 0⟩)

/-- READMIT of an FB: its edges' bundles come up in UCIe mode, and its SCs are tested (R345). -/
def readmitFb (s : State) (k : Nat) : State :=
  if k = 0 || !s.iso k || s.die.readmit.contains (.fb k) || (s.die.marked.any fun e => e.1 = Die.fb k) then s
  else
    let s := { s with die := { s.die with readmit := s.die.readmit ++ [Die.fb k] } }
    let s := (bundlesOf k).foldl (fun s b =>
      if s.iso (peerFb b) then s
      else (s.setBend b { st := 1 }).setBend (peerEnd b) { s.bend (peerEnd b) with st := 1, rounds := 0 }) s
    let s := s.setFbDie k { s.fbDie k with record := false }
    (List.range 4).foldl (fun s j => s.setSc (4 * k + j) { st := 1 }) s

/-- FB_READMIT (R345). -/
def execFbReadmit (k : Nat) (s : State) : Out := .next (readmitFb s k)

/-- A quadrant's device memory and an FB's scratch read zero, with nothing LOST. -/
def zeroQuadrant (s : State) (k : Nat) : State :=
  let mine (a : Nat) : Bool := (isDev a || isScr a) && homeFb a = k
  { s with
    mem := s.mem.filter fun e => !mine e.1
    dram := { s.dram with
      lost := s.dram.lost.filter fun e => !mine (256 * e.1)
      lostBursts := s.dram.lostBursts.filter fun e => !mine (64 * e.1)
      badBursts := s.dram.badBursts.filter fun e => !mine (64 * e.1) } }

/-- The registers of FB `k` take their Reset column again; its Granary starts OFF with W = 0 (R345). -/
def resetFb (s : State) (k : Nat) : State :=
  let bank (s : State) (b : Nat) : State :=
    let x := s.bank k b
    s.setBank k b { phys := x.phys, degraded := x.degraded, disabled := x.disabled }
  let s := (List.range 64).foldl bank (s.setGrn k {})
  let s := s.setHbm k {}
  let s := { s with
    rgl := { s.rgl with buckets := s.rgl.buckets.filter fun e => e.1 / 8 / 293 ≠ k, sel := tdel s.rgl.sel k }
    sec := { s.sec with wdog := tdel s.sec.wdog k }
    clk := { s.clk with
      fmax := tdel s.clk.fmax k, pll := tset false s.clk.pll k true
      baseStop := tdel s.clk.baseStop k, reeveStop := tdel s.clk.reeveStop k }
    evt := { s.evt with local_ := s.evt.local_.filter fun e => e.1 / 4 ≠ k } }
  (List.range 8).foldl (fun s d => setRail s k d 1) s

/-- FB `k` is back (R345, steps 1 to 7). DEDUCED: log entry 98. -/
def fbBack (s : State) (k : Nat) : State :=
  let s := { s with
    fbReady := s.fbReady ||| BitVec.twoPow 4 k
    die := { s.die with fbIso := s.die.fbIso &&& ~~~(BitVec.twoPow 4 k) } }
  let s := resetFb s k
  let s := s.setFbDie k {
    record := true, source := if k = 3 && s.iso 1 then 2 else 1
    primaryOk := !(decide (k = 3) && s.iso 1), altOk := decide (k = 3) && !s.iso 2 }
  let y := s.fbDie 3
  let s := if k = 1 then s.setFbDie 3 { y with primaryOk := true } else if k = 2 then s.setFbDie 3 { y with altOk := true } else s
  let s := setFreq s k 0 (targetFreq s k 0)
  let s := zeroQuadrant s k
  let s := (List.range 64).foldl (fun s c => s.setChan k c {}) s
  let stack (s : State) (i : Nat) : State :=
    startStack (s.setStack (2 * k + i) { state := 1, refresh2x := true }) (2 * k + i) (tget 0 s.thm.temp (8 * k + 5 + i))
      { fail := false, firmware := false, fbFail := [], bad := [], passed := [], temps := [] }
  let s := writeC0Pages ((List.range 2).foldl stack s)
  let s := (List.range 4).foldl (fun s j =>
    let sc := 4 * k + j
    let s := testSc s sc []
    if s.scAdmitted.getLsbD sc then releaseSc s sc else s) s
  let s := (List.range 24).foldl (fun s i => enableLink s (24 * k + i)) s
  updateDegraded (redigest ((facing (.fb k)).foldl thawPort s))

/-- FB_READMIT_COMPLETE (R345): the FB needs an admitted record; a failure leaves it isolated with CAUSE 4. -/
def execFbReadmitComplete (k : Nat) (pass : Bool) (s : State) : Out :=
  if !s.die.readmit.contains (.fb k) then .next s -- the FB is not being readmitted
  else
    let s := { s with die := { s.die with readmit := s.die.readmit.filter fun d => d ≠ Die.fb k } }
    if pass && (s.fbDie k).record then .next (fbBack s k)
    else
      let s := s.setFbDie k { s.fbDie k with isoCause := 4 }
      let s := (bundlesOf k).foldl (fun s b =>
        (s.setBend b { s.bend b with st := 7 }).setBend (peerEnd b) { s.bend (peerEnd b) with st := 7 }) s
      .next ((List.range 4).foldl (fun s j => s.setSc (4 * k + j) { s.sc (4 * k + j) with st := 0 }) s)

end Sys2Proof.Machine
end

