-- ==== Sys2Proof/Machine/Scalar.lean ====
section
/-! DEFINITION. Scalar group (GRP 0x0) of chapter 04: R93 and its table. -/

namespace Sys2Proof.Machine

/-- sD = f sA sB. -/
def alu (f : Word → Word → Word) (n t pr d a b : Nat) (s : State) : Out :=
  coreStep n t pr false (fun _ => []) (pure_ n t fun th => th.ws d (f (th.rs a) (th.rs b))) s

/-- All 64 bits of pD = f sA sB. -/
def aluP (f : Word → Word → Bool) (n t pr d a b : Nat) (s : State) : Out :=
  coreStep n t pr false (fun _ => [])
    (pure_ n t fun th => th.wp d (if f (th.rs a) (th.rs b) then BitVec.allOnes 64 else 0)) s

/-- NOP (R93). -/
def execNopInstr (n t pr : Nat) (s : State) : Out := coreStep n t pr false (fun _ => []) (pure_ n t id) s

/-- ADD (R93): sD = sA + sB. -/
def execAdd (n t pr d a b : Nat) (s : State) : Out := alu (fun x y => x + y) n t pr d a b s

/-- SUB (R93): sD = sA - sB. -/
def execSub (n t pr d a b : Nat) (s : State) : Out := alu (fun x y => x - y) n t pr d a b s

/-- MUL (R93): low 64 bits of the product. -/
def execMul (n t pr d a b : Nat) (s : State) : Out := alu (fun x y => x * y) n t pr d a b s

/-- MULHU (R93): high 64 bits of the unsigned product. -/
def execMulhu (n t pr d a b : Nat) (s : State) : Out := alu (fun x y => BitVec.ofNat 64 (x.toNat * y.toNat / 2 ^ 64)) n t pr d a b s

/-- MULHS (R93): high 64 bits of the signed product. -/
def execMulhs (n t pr d a b : Nat) (s : State) : Out := alu (fun x y => BitVec.ofInt 64 (x.toInt * y.toInt / 2 ^ 64)) n t pr d a b s

/-- AND (R93): bitwise and. -/
def execAnd (n t pr d a b : Nat) (s : State) : Out := alu (fun x y => x &&& y) n t pr d a b s

/-- OR (R93): bitwise or. -/
def execOr (n t pr d a b : Nat) (s : State) : Out := alu (fun x y => x ||| y) n t pr d a b s

/-- XOR (R93): bitwise exclusive or. -/
def execXor (n t pr d a b : Nat) (s : State) : Out := alu (fun x y => x ^^^ y) n t pr d a b s

/-- SHL (R93): shift left by sB mod 64. -/
def execShl (n t pr d a b : Nat) (s : State) : Out := alu (fun x y => x <<< (y.toNat % 64)) n t pr d a b s

/-- SHR (R93): logical shift right by sB mod 64. -/
def execShr (n t pr d a b : Nat) (s : State) : Out := alu (fun x y => x >>> (y.toNat % 64)) n t pr d a b s

/-- SAR (R93): arithmetic shift right by sB mod 64. -/
def execSar (n t pr d a b : Nat) (s : State) : Out := alu (fun x y => x.sshiftRight (y.toNat % 64)) n t pr d a b s

/-- ADDI (R93): sD = sA + IMM. -/
def execAddi (n t pr d a : Nat) (imm : Int) (s : State) : Out :=
  coreStep n t pr false (fun _ => []) (pure_ n t fun th => th.ws d (th.rs a + BitVec.ofInt 64 imm)) s

/-- LI (R93): sD = IMM, sign-extended. -/
def execLi (n t pr d : Nat) (imm : Int) (s : State) : Out :=
  coreStep n t pr false (fun _ => []) (pure_ n t fun th => th.ws d (BitVec.ofInt 64 imm)) s

/-- LIH (R93): sD[63:36] = IMM[27:0], sD[35:0] kept. -/
def execLih (n t pr d imm : Nat) (s : State) : Out :=
  coreStep n t pr false (fun _ => [])
    (pure_ n t fun th => th.ws d (BitVec.ofNat 64 (imm % 2 ^ 28 * 2 ^ 36 + (th.rs d).toNat % 2 ^ 36))) s

/-- CMPEQ (R93). -/
def execCmpeq (n t pr d a b : Nat) (s : State) : Out := aluP (fun x y => x == y) n t pr d a b s

/-- CMPLT (R93): signed. -/
def execCmplt (n t pr d a b : Nat) (s : State) : Out := aluP (fun x y => decide (x.toInt < y.toInt)) n t pr d a b s

/-- CMPLTU (R93): unsigned. -/
def execCmpltu (n t pr d a b : Nat) (s : State) : Out := aluP (fun x y => decide (x.toNat < y.toNat)) n t pr d a b s

/-- PAND (R93): pD = pA and pB. -/
def execPand (n t pr d a b : Nat) (s : State) : Out :=
  coreStep n t pr false (fun _ => []) (pure_ n t fun th => th.wp d (th.rp a &&& th.rp b)) s

/-- POR (R93): pD = pA or pB. -/
def execPor (n t pr d a b : Nat) (s : State) : Out :=
  coreStep n t pr false (fun _ => []) (pure_ n t fun th => th.wp d (th.rp a ||| th.rp b)) s

/-- PNOT (R93): pD = not pA. -/
def execPnot (n t pr d a : Nat) (s : State) : Out :=
  coreStep n t pr false (fun _ => []) (pure_ n t fun th => th.wp d (~~~ th.rp a)) s

/-- BR (R93): PC = PC + 8 × IMM. -/
def execBr (n t pr : Nat) (imm : Int) (s : State) : Out :=
  coreStep n t pr false (fun _ => []) (fun s => .jump s ((s.thr n t).pc.toNat + 8 * imm)) s

/-- BRL (R93): sD = PC + 8, then the branch. -/
def execBrl (n t pr d : Nat) (imm : Int) (s : State) : Out :=
  coreStep n t pr false (fun _ => [])
    (fun s => .jump (s.modThr n t fun th => th.ws d (BitVec.ofNat 64 (th.pc.toNat + 8)))
      ((s.thr n t).pc.toNat + 8 * imm)) s

/-- JR (R93): PC = sA[15:0]; sA[2:0] must be zero, or ALIGN. -/
def execJr (n t pr a : Nat) (s : State) : Out :=
  coreStep n t pr false
    (fun s => [((s.thr n t).rs a |>.toNat |> (· % 8) |> (· != 0), cALIGN, ((s.thr n t).rs a).toNat % 2 ^ 16)])
    (fun s => .jump s (((s.thr n t).rs a).toNat % 2 ^ 16 : Nat)) s

/-- RDFLG (R82): sD = FLG. -/
def execRdflg (n t pr d : Nat) (s : State) : Out :=
  coreStep n t pr false (fun _ => []) (pure_ n t fun th => th.ws d th.flgWord) s

/-- CLRFLG (R82): FLG = FLG and not X[5:0]. -/
def execClrflg (n t pr x : Nat) (s : State) : Out :=
  coreStep n t pr false (fun _ => []) (pure_ n t fun th => { th with flg := th.flg &&& ~~~ (BitVec.ofNat 6 x) }) s

/-- RDID (R93): logical core in [11:0], thread in [19:16]. -/
def execRdid (n t pr d : Nat) (s : State) : Out :=
  coreStep n t pr false (fun _ => []) (pure_ n t fun th => th.ws d (BitVec.ofNat 64 (t * 2 ^ 16 + n))) s

/-- RDMER (R401): sD = the Meridian of the core's FB. -/
def execRdmer (n t pr d : Nat) (s : State) : Out :=
  coreStep n t pr false (fun _ => [])
    (fun s => let (s, v) := readMer s (coreFb n); .done (s.modThr n t fun th => th.ws d v)) s

end Sys2Proof.Machine
end

