-- ==== Sys2Proof/Machine/Vector.lean ====
section
/-! DEFINITION. Vector group (GRP 0x1) of chapter 04: R92, R95, R96 and the vector table. -/

namespace Sys2Proof.Machine

/-- An FP32 operation lane by lane into vD: enabled lanes written, their flags raised (R92). -/
def vecF (n t pr d : Nat) (f : Thread → Nat → Nat × Flg) (s : State) : Out :=
  coreStep n t pr true (fun _ => [])
    (pure_ n t fun th =>
      let rs := (List.range 64).map (f th)
      (th.wv d (maskLanes (th.rp pr) (th.rv d) (ofLanes (rs.map (·.1))))).orFlg (lanesFlags (th.rp pr) rs)) s

/-- An operation without flags. -/
def vecI (n t pr d : Nat) (f : Thread → Nat → Nat) (s : State) : Out :=
  vecF n t pr d (fun th i => (f th i, 0)) s

def fp2 (f : Nat → Nat → Nat × Flg) (a b : Nat) (th : Thread) (i : Nat) : Nat × Flg :=
  f (lane (th.rv a) i) (lane (th.rv b) i)
def int2 (f : W32 → W32 → W32) (a b : Nat) (th : Thread) (i : Nat) : Nat :=
  (f (BitVec.ofNat 32 (lane (th.rv a) i)) (BitVec.ofNat 32 (lane (th.rv b) i))).toNat

/-- VADDF: vD = vA + vB, FP32. -/
def execVaddf (n t pr d a b : Nat) (s : State) : Out := vecF n t pr d (fp2 fAdd a b) s

/-- VSUBF: vD = vA - vB, FP32. -/
def execVsubf (n t pr d a b : Nat) (s : State) : Out := vecF n t pr d (fp2 fSub a b) s

/-- VMULF: vD = vA × vB, FP32. -/
def execVmulf (n t pr d a b : Nat) (s : State) : Out := vecF n t pr d (fp2 fMul a b) s

/-- VMAXF: vD = maximum, FP32. -/
def execVmaxf (n t pr d a b : Nat) (s : State) : Out := vecF n t pr d (fp2 (fMaxMin false) a b) s

/-- VMINF: vD = minimum, FP32. -/
def execVminf (n t pr d a b : Nat) (s : State) : Out := vecF n t pr d (fp2 (fMaxMin true) a b) s

/-- VFMA: vD = vA × vB + vC, rounded once. -/
def execVfma (n t pr d a b c : Nat) (s : State) : Out :=
  vecF n t pr d (fun th i => fFma (lane (th.rv a) i) (lane (th.rv b) i) (lane (th.rv c) i)) s

/-- VADDI: 32-bit add. -/
def execVaddi (n t pr d a b : Nat) (s : State) : Out := vecI n t pr d (int2 (fun x y => x + y) a b) s

/-- VSUBI: 32-bit subtract. -/
def execVsubi (n t pr d a b : Nat) (s : State) : Out := vecI n t pr d (int2 (fun x y => x - y) a b) s

/-- VMULI: low 32 bits of the product. -/
def execVmuli (n t pr d a b : Nat) (s : State) : Out := vecI n t pr d (int2 (fun x y => x * y) a b) s

/-- VAND: and. -/
def execVand (n t pr d a b : Nat) (s : State) : Out := vecI n t pr d (int2 (fun x y => x &&& y) a b) s

/-- VOR: or. -/
def execVor (n t pr d a b : Nat) (s : State) : Out := vecI n t pr d (int2 (fun x y => x ||| y) a b) s

/-- VXOR: exclusive or. -/
def execVxor (n t pr d a b : Nat) (s : State) : Out := vecI n t pr d (int2 (fun x y => x ^^^ y) a b) s

/-- VSHL: shift left by vB mod 32. -/
def execVshl (n t pr d a b : Nat) (s : State) : Out := vecI n t pr d (int2 (fun x y => x <<< (y.toNat % 32)) a b) s

/-- VSHR: logical shift right by vB mod 32. -/
def execVshr (n t pr d a b : Nat) (s : State) : Out := vecI n t pr d (int2 (fun x y => x >>> (y.toNat % 32)) a b) s

/-- VSAR: arithmetic shift right by vB mod 32. -/
def execVsar (n t pr d a b : Nat) (s : State) : Out := vecI n t pr d (int2 (fun x y => x.sshiftRight (y.toNat % 32)) a b) s

/-- One lane's comparison: 0 EQ, 1 LT, 2 LE, 3 NE, of signed integers or of FP32 values. -/
def vcmpLane (cmp : Nat) (fp : Bool) (x y : Nat) : Bool :=
  let (eq, lt) : Bool × Bool :=
    if fp then (eqVal (dec32 x) (dec32 y), ltVal (dec32 x) (dec32 y))
    else (x == y, decide (sext 32 x < sext 32 y))
  match cmp with
  | 0 => eq
  | 1 => lt
  | 2 => lt || eq
  | _ => !eq

/-- Write the enabled lanes' bits of a predicate (R92). -/
def maskBits (p old : Word) (f : Nat → Bool) : Word :=
  BitVec.ofNat 64 (packBits 1 ((List.range 64).map fun i => b2n (if laneOn p i then f i else old.getLsbD i)))

/-- VCMP: pD lane = compare; sets no flag. -/
def execVcmp (n t pr d a b cmp : Nat) (fp : Bool) (s : State) : Out :=
  coreStep n t pr true (fun _ => [(decide (3 < cmp), cILLEGAL, 0)])
    (pure_ n t fun th =>
      th.wp d (maskBits (th.rp pr) (th.rp d) fun i => vcmpLane cmp fp (lane (th.rv a) i) (lane (th.rv b) i))) s

/-- VSEL: vD = vA where the bit of pC is 1, else vB. -/
def execVsel (n t pr d a b c : Nat) (s : State) : Out :=
  vecI n t pr d (fun th i => if laneOn (th.rp c) i then lane (th.rv a) i else lane (th.rv b) i) s

/-- VBCAST: every lane of vD = low 32 bits of sA. -/
def execVbcast (n t pr d a : Nat) (s : State) : Out := vecI n t pr d (fun th _ => (th.rs a).toNat % 2 ^ 32) s

/-- VEXT: sD = lane X[5:0] of vA, zero-extended; acts on bit 0 of pPR (R92). -/
def execVext (n t pr d a ln : Nat) (s : State) : Out :=
  coreStep n t pr false (fun _ => [])
    (pure_ n t fun th => th.ws d (BitVec.ofNat 64 (lane (th.rv a) (ln % 64)))) s

/-- VPERM: vD lane i = vA lane (vB lane i mod 64). -/
def execVperm (n t pr d a b : Nat) (s : State) : Out :=
  vecI n t pr d (fun th i => lane (th.rv a) (lane (th.rv b) i % 64)) s

/-- One level of the adder tree of R95. -/
def pairSums : List (Nat × Flg) → List (Nat × Flg)
  | x :: y :: r => (let (v, f) := fAdd x.1 y.1; (v, f ||| x.2 ||| y.2)) :: pairSums r
  | r => r

/-- VSUMF (R95): lane 0 of vD = the fixed tree sum, the other lanes 0; masked-off lanes enter as +0. -/
def execVsumf (n t pr d a : Nat) (s : State) : Out :=
  coreStep n t pr true (fun _ => [])
    (pure_ n t fun th =>
      let p := th.rp pr
      let xs := (List.range 64).map fun i => ((if laneOn p i then lane (th.rv a) i else 0), (0 : Flg))
      let r := (pairSums (pairSums (pairSums (pairSums (pairSums (pairSums xs)))))).headD (0, 0)
      let rs := r :: List.replicate 63 ((0 : Nat), (0 : Flg))
      (th.wv d (maskLanes p (th.rv d) (ofLanes (rs.map (·.1))))).orFlg r.2) s

/-- Seed and base index of a conversion, read only under SR (R96). -/
def cvtSeed (th : Thread) (o : CvtOpt) : Word × Word :=
  if o.rm = 4 then (th.rs o.k, th.rs (o.k + 1)) else (0, 0)

/-- Checks shared by the conversions (R96): K above 62 is ILLEGAL, RM 5 to 7 is FORMAT. -/
def cvtChecks (o : CvtOpt) (fmtBad : Bool) : List Check :=
  [(decide (62 < o.k), cILLEGAL, 0), (decide (4 < o.rm), cFORMAT, 0), (fmtBad, cFORMAT, 0)]

/-- The formats VCVT takes: conversion formats that are not blocks (R96). -/
def isElemFmt (c : Nat) : Bool := (ffmt c).isSome || (ifmt c).isSome

/-- The exact value of lane i of a packed source (R40, R96). -/
def srcVal (c : Nat) (v : VReg) (i : Nat) : Val := decElem c (elemAt (fmtBits c) v.toNat i)

/-- VCVT (R92, R96; DEDUCED, log entry 30): lane i's conversion raises its flags where bit i of pPR is 1, and takes logical index base + i; narrower targets are packed from bit 0, the rest zero. -/
def execVcvt (n t pr d a : Nat) (o : CvtOpt) (s : State) : Out :=
  coreStep n t pr true (fun _ => cvtChecks o (!isElemFmt o.src || !isElemFmt o.tgt))
    (pure_ n t fun th =>
      let (seed, base) := cvtSeed th o
      let rs := (List.range 64).map fun i =>
        encode o.tgt o.rm o.sat seed (base + BitVec.ofNat 64 i) (srcVal o.src (th.rv a) i)
      let v : VReg := BitVec.ofNat 2048 (packBits (fmtBits o.tgt) (rs.map (·.1)))
      (th.wv d (maskLanes (th.rp pr) (th.rv d) v)).orFlg (lanesFlags (th.rp pr) rs)) s

/-- Whether any lane of the destination is written. -/
def anyLane (p : Word) : Bool := p != 0

/-- VQMX (R51, R96): two blocks; element bytes at the low end, the scale of block b in byte 248 + b. -/
def execVqmx (n t pr d a : Nat) (o : CvtOpt) (s : State) : Out :=
  coreStep n t pr true (fun _ => cvtChecks o (o.src != 1 || (mxElem o.tgt).isNone))
    (pure_ n t fun th =>
      let (seed, base) := cvtSeed th o
      let vs := (List.range 64).map fun i => dec32 (lane (th.rv a) i)
      let (c0, e0, f0) := quantMx o.tgt o.rm seed base (vs.take 32)
      let (c1, e1, f1) := quantMx o.tgt o.rm seed (base + 32) (vs.drop 32)
      let v : VReg := BitVec.ofNat 2048
        (packBits (fmtBits o.tgt) (e0 ++ e1) + 2 ^ (8 * 248) * c0 + 2 ^ (8 * 249) * c1)
      (th.wv d (maskLanes (th.rp pr) (th.rv d) v)).orFlg (if anyLane (th.rp pr) then f0 ||| f1 else 0)) s

/-- VQ4 (R52, R96): vA to vA+3 hold 256 values; the 144-byte block goes to bytes 0-143, the rest zero. -/
def execVq4 (n t pr d a : Nat) (o : CvtOpt) (s : State) : Out :=
  coreStep n t pr true
    (fun _ => (decide (12 < a), cILLEGAL, 0) :: cvtChecks o (o.src != 1 || o.tgt != 0x20))
    (pure_ n t fun th =>
      let (seed, base) := cvtSeed th o
      let vs := (List.range 256).map fun i => dec32 (lane (th.rv (a + i / 64)) (i % 64))
      let (sc, ss, es, f) := quantQ o.rm seed base vs
      let v : VReg := BitVec.ofNat 2048 (packQ sc ss es)
      (th.wv d (maskLanes (th.rp pr) (th.rv d) v)).orFlg (if anyLane (th.rp pr) then f else 0)) s

end Sys2Proof.Machine
end

