-- ==== Sys2Proof/Machine/Fetch.lean ====
section
/-! DEFINITION. The issue of instructions (R83, R86, R434): what a decoded word does, and which threads issue. -/

namespace Sys2Proof.Machine

/-- An instruction's own meaning. -/
def runCore (i : Instr) (s : State) : Out :=
  match i with
  | .nopInstr n t pr => execNopInstr n t pr s
  | .add n t pr d a b => execAdd n t pr d a b s
  | .sub n t pr d a b => execSub n t pr d a b s
  | .addi n t pr d a imm => execAddi n t pr d a imm s
  | .mul n t pr d a b => execMul n t pr d a b s
  | .mulhu n t pr d a b => execMulhu n t pr d a b s
  | .mulhs n t pr d a b => execMulhs n t pr d a b s
  | .and n t pr d a b => execAnd n t pr d a b s
  | .or n t pr d a b => execOr n t pr d a b s
  | .xor n t pr d a b => execXor n t pr d a b s
  | .shl n t pr d a b => execShl n t pr d a b s
  | .shr n t pr d a b => execShr n t pr d a b s
  | .sar n t pr d a b => execSar n t pr d a b s
  | .li n t pr d imm => execLi n t pr d imm s
  | .lih n t pr d imm => execLih n t pr d imm s
  | .cmpeq n t pr d a b => execCmpeq n t pr d a b s
  | .cmplt n t pr d a b => execCmplt n t pr d a b s
  | .cmpltu n t pr d a b => execCmpltu n t pr d a b s
  | .pand n t pr d a b => execPand n t pr d a b s
  | .por n t pr d a b => execPor n t pr d a b s
  | .pnot n t pr d a => execPnot n t pr d a s
  | .br n t pr imm => execBr n t pr imm s
  | .brl n t pr d imm => execBrl n t pr d imm s
  | .jr n t pr a => execJr n t pr a s
  | .rdflg n t pr d => execRdflg n t pr d s
  | .clrflg n t pr x => execClrflg n t pr x s
  | .rdid n t pr d => execRdid n t pr d s
  | .rdmer n t pr d => execRdmer n t pr d s
  | .vaddf n t pr d a b => execVaddf n t pr d a b s
  | .vsubf n t pr d a b => execVsubf n t pr d a b s
  | .vmulf n t pr d a b => execVmulf n t pr d a b s
  | .vfma n t pr d a b c => execVfma n t pr d a b c s
  | .vminf n t pr d a b => execVminf n t pr d a b s
  | .vmaxf n t pr d a b => execVmaxf n t pr d a b s
  | .vaddi n t pr d a b => execVaddi n t pr d a b s
  | .vsubi n t pr d a b => execVsubi n t pr d a b s
  | .vmuli n t pr d a b => execVmuli n t pr d a b s
  | .vand n t pr d a b => execVand n t pr d a b s
  | .vor n t pr d a b => execVor n t pr d a b s
  | .vxor n t pr d a b => execVxor n t pr d a b s
  | .vshl n t pr d a b => execVshl n t pr d a b s
  | .vshr n t pr d a b => execVshr n t pr d a b s
  | .vsar n t pr d a b => execVsar n t pr d a b s
  | .vcmp n t pr d a b cmp fp => execVcmp n t pr d a b cmp fp s
  | .vsel n t pr d a b c => execVsel n t pr d a b c s
  | .vbcast n t pr d a => execVbcast n t pr d a s
  | .vext n t pr d a lane => execVext n t pr d a lane s
  | .vperm n t pr d a b => execVperm n t pr d a b s
  | .vsumf n t pr d a => execVsumf n t pr d a s
  | .vcvt n t pr d a o => execVcvt n t pr d a o s
  | .vqmx n t pr d a o => execVqmx n t pr d a o s
  | .vq4 n t pr d a o => execVq4 n t pr d a o s
  | .tmma n t pr tile fa fb a b sc c => execTmma n t pr tile fa fb a b sc c s
  | .tzero n t pr tile exact anchor => execTzero n t pr tile exact anchor s
  | .trd n t pr tile o d x c => execTrd n t pr tile o d x c s
  | .tlda n t pr tile fmt d c => execTlda n t pr tile fmt d c s
  | .trel n t pr tile => execTrel n t pr tile s
  | .tsave n t pr tile a c => execTsave n t pr tile a c s
  | .tload n t pr tile a c => execTload n t pr tile a c s
  | .lds n t pr d a size => execLds n t pr d a size s
  | .sts n t pr a b size => execSts n t pr a b size s
  | .ldv n t pr d a => execLdv n t pr d a s
  | .stv n t pr a b => execStv n t pr a b s
  | .ldg n t pr d a size => execLdg n t pr d a size s
  | .stg n t pr a b size vis => execStg n t pr a b size vis s
  | .cpin n t pr a b c k => execCpin n t pr a b c k s
  | .cpout n t pr a b c k vis => execCpout n t pr a b c k vis s
  | .cpin2 n t pr d a b c k => execCpin2 n t pr d a b c k s
  | .cpout2 n t pr d a b c k vis => execCpout2 n t pr d a b c k vis s
  | .ldqb n t pr d a b c k => execLdqb n t pr d a b c k s
  | .atom n t pr d a b c op vis => execAtom n t pr d a b c op vis s
  | .pref n t pr a => execPref n t pr a s
  | .twait n t pr c imm => execTwait n t pr c imm s
  | .twaitr n t pr c a => execTwaitr n t pr c a s
  | .tset n t pr c a => execTset n t pr c a s
  | .tget n t pr d c => execTget n t pr d c s
  | .bar n t pr mask => execBar n t pr mask s
  | .bell n t pr a b k => execBell n t pr a b k s
  | .fence n t pr vis => execFence n t pr vis s
  | .waitg n t pr a b cmp => execWaitg n t pr a b cmp s
  | .yield n t pr => execYield n t pr s
  | .exit n t pr => execExit n t pr s
  | .ecall n t pr code => execEcall n t pr code s
  | .rput n t pr a b c k vis => execRput n t pr a b c k vis s
  | .rget n t pr a b c k vis => execRget n t pr a b c k vis s
  | .ratom n t pr a b c op k vis => execRatom n t pr a b c op k vis s
  | .mred n t pr a b c k => execMred n t pr a b c k s
  | .xsend n t pr a b c k => execXsend n t pr a b c k s
  | .xrecv n t pr a b c => execXrecv n t pr a b c s
  | .thctlStart n t pr a b c => execThctlStart n t pr a b c s
  | .thctlHold n t pr a => execThctlHold n t pr a s
  | .thctlResume n t pr a => execThctlResume n t pr a s
  | .thctlStop n t pr a => execThctlStop n t pr a s
  | .thrd n t pr d a b reg => execThrd n t pr d a b reg s
  | .thwr n t pr a b reg => execThwr n t pr a b reg s
  | .csrr n t pr d csr => execCsrr n t pr d csr s
  | .csrw n t pr a csr => execCsrw n t pr a csr s
  | .ifetch n t pr a b c k => execIfetch n t pr a b c k s
  | .waitev n t pr d => execWaitev n t pr d s
  | _ => .next s -- not an instruction of a core

/-- The unit an instruction uses (R86): 0 scalar, 1 vector, 2 tensor, 3 the port. -/
def unitOf (w : Nat) : Nat :=
  match bits w 63 60 with
  | 0 => 0
  | 1 => 1
  | 2 => 2
  | _ => 3

/-- The word at a thread's program counter. DEDUCED, log entry 161: a program counter that is no multiple of 8 (THCTL start
takes any) fetches the word it lies in. -/
def fetchWord (s : State) (n t : Nat) : Nat := Memory.readLe (s.core n).is_ ((s.thr n t).pc.toNat / 8 * 8) 8

/-- Issue the instruction at a thread's program counter: a program counter outside the thread's range and an
uncorrectable word fault at the fetch (R83, R434), a word that does not decode is ILLEGAL unless its predicate is
off, VEXT's among them (R92, R94). DEDUCED: log entry 134. -/
def issueThread (s : State) (n t : Nat) : State :=
  let th := s.thr n t
  let pc := th.pc.toNat
  let w := fetchWord s n t
  let run (r : Out) : State := match r with | .next s => s | _ => s
  if th.dfr.isSome then takeDeferred s n t
  else if !pcOk t pc then takeFault s n t (pcCause t) 0 (BitVec.ofNat 64 pc)
  else if tget false (s.core n).isBad (pc / 8) then takeFault (logLocal s n pc) n t cLOCAL 0 (BitVec.ofNat 64 pc)
  else match decodeCore n t w with
    | some i => run (runCore i s)
    | none => run (coreStep n t (fPr w) (bits w 63 60 == 1 && bits w 59 52 != 0x13) (fun _ => [(true, cILLEGAL, 0)]) (fun s => .done s) s)

/-- READY threads in the order of R86: thread 0, then kernel threads after the one that issued most recently. -/
def issueOrder (c : Core) : List Nat :=
  let ks := (List.range 15).map fun i => (c.last + i) % 15 + 1
  (0 :: ks).filter fun t => (c.thread t).st = .ready

/-- The threads that issue in a cycle: at most two, with different units but for the scalar one; a thread that
yielded is passed over once (R86, R104 YIELD). -/
def chooseIssue (s : State) (n : Nat) : List Nat :=
  let c := s.core n
  let order := (issueOrder c).filter fun t => !(c.thread t).skip
  match order with
  | [] => []
  | t :: ts =>
    let u := unitOf (fetchWord s n t)
    match ts.find? fun x => let v := unitOf (fetchWord s n x); u = 0 || v = 0 || u != v with
    | some x => [t, x]
    | none => [t]

/-- Mark the kernel thread that issued. -/
def noteIssued (s : State) (n t : Nat) : State :=
  if t = 0 then s else s.modCore n fun c => { c with last := t }

/-- Issue is stopped at a core: it is in reset, the emergency level is 3 (R394), or its cluster's clock is stopped
(R399). -/
def issueStopped (s : State) (n : Nat) : Bool :=
  (s.core n).reset || emergency s = 3 || !clusterRuns s (n / 256) ((s.core n).phys.getD (n % 256) / 16)

/-- ISSUE_CYCLE (R86): a core in reset, one whose issue is stopped, or one whose monitor has stopped, issues nothing. -/
def execIssueCycle (n : Nat) (s : State) : Out :=
  if issueStopped s n then .next s
  else
    let ts := chooseIssue s n
    let s := s.modCore n fun c =>
      { c with thr := (List.range 16).foldl (fun tb t =>
          if (tget ({} : Thread) tb t).skip then tmod {} tb t fun x => { x with skip := false } else tb) c.thr }
    .next (ts.foldl (fun s t => if (s.thr n t).st = .ready then noteIssued (issueThread s n t) n t else s) s)

end Sys2Proof.Machine
end

