-- ==== Sys2Proof/Machine/PowerRows.lean ====
section
/-! DEFINITION. Power, temperature and the Meridian (chapter 17: R388-R397, R400-R408). -/

namespace Sys2Proof.Machine

def State.modPwr (s : State) (f : Pwr → Pwr) : State := { s with pwr := f s.pwr }
def State.modThm (s : State) (f : Thm → Thm) : State := { s with thm := f s.thm }

/-! ### The input (R388-R391) -/

/-- INPUT_RISING_40V (R388, R402): the Meridian starts at 0 and a cold start begins; cause 1 after a fall through
34.0 V (R347). -/
def execInputRising40v (s : State) : Out :=
  if s.pwr.input then .next s
  else
    let t := powerOff s
    .next (coldStart { t with pwr := { t.pwr with input := true }, boot := { t.boot with inputFell := s.boot.inputFell } }
      (b2n s.boot.inputFell) false 0)

/-- UNDERVOLTAGE_WARNING (R389): level 1 is requested, and the lowest sample of the episode is kept. -/
def execUndervoltageWarning (mv : Nat) (s : State) : Out :=
  if !s.pwr.input || decide (38000 < mv) then .next s
  else
    .next (lowerClocks (s.modPwr fun p => { p with
      uvWarn := true, uvMin := if p.uvWarn then min p.uvMin mv else mv, voltage := mv }))

/-- UNDERVOLTAGE_CLEAR (R389). -/
def execUndervoltageClear (durationUs : Nat) (s : State) : Out :=
  if s.pwr.uvWarn then .next (ev (s.modPwr fun p => { p with uvWarn := false }) 0x0700 0 0x03 0 s.pwr.uvMin durationUs)
  else .next s -- no undervoltage episode runs

/-- ORDERLY_RESET (R390): nothing is recorded, and every domain turns off. -/
def execOrderlyReset (s : State) : Out := .next (if s.pwr.input then powerOff s else s)

/-- OV_WARN_SET (R388). -/
def execOvWarnSet (mv : Nat) (s : State) : Out :=
  if !s.pwr.input || decide (mv < 52000) then .next s
  else if s.pwr.ovWarn then .next (s.modPwr fun p => { p with ovMax := max p.ovMax mv })
  else .next (ev (s.modPwr fun p => { p with ovWarn := true, ovMax := mv }) 0x0701 0 0x03 0 mv 0)

/-- OV_WARN_CLEAR (R388). -/
def execOvWarnClear (s : State) : Out := .next (s.modPwr fun p => { p with ovWarn := false })

/-- OVERVOLTAGE_SHUTDOWN (R391). -/
def execOvervoltageShutdown (s : State) : Out :=
  if s.pwr.input then .next ((railsLost s).modPwr fun p => { p with ovLatch := true }) else .next s

/-! ### The limiter (R396, R397) -/

/-- PWR_ALERT# is asserted: undervoltage, overvoltage shutdown or power limiting (R389, R391, R397, R422). DEDUCED:
log entry 76. -/
def alert (s : State) : Bool := s.pwr.uvWarn || s.pwr.ovLatch || decide (0 < s.pwr.limReq)

/-- The mean input power over the latest 1 ms (PWR_INPUT.MEAN_W). -/
def meanW (s : State) : Nat := s.pwr.samples.foldl (· + ·) 0 / 1000

/-- The readings of a 1 µs sample. -/
def Pwr.sample (x : Pwr) (p mv centiAmp : Nat) : Pwr :=
  { x with
    sampleW := p, voltage := mv, current := centiAmp, samples := (p :: x.samples).take 1000
    uvMin := if x.uvWarn then min x.uvMin mv else x.uvMin
    ovMax := if x.ovWarn then max x.ovMax mv else x.ovMax }

/-- The 500 µs hold runs, then windows of 100 µs; a full quiet window waits for its release step (DEDUCED, log entry 26). -/
def Pwr.count (x : Pwr) (quiet : Bool) : Pwr :=
  if x.limReq = 0 then x
  else if 0 < x.limHold then { x with limHold := x.limHold - 1 }
  else if x.limWin = 100 then x
  else
    let q := x.limQuiet && quiet
    if x.limWin = 99 && !q then { x with limWin := 0, limQuiet := true }
    else { x with limWin := x.limWin + 1, limQuiet := q }

/-- LIMITER_SAMPLE (R397). -/
def execLimiterSample (p mv centiAmp : Nat) (s : State) : Out :=
  if !s.pwr.input then .next s
  else
    let l := limitW s
    let s := s.modPwr fun x => x.sample p mv centiAmp
    if 93 * l < 100 * p ∧ s.pwr.limReq ≠ 3 then
      let s := s.modPwr fun x => { x with
        limReq := 3, limHold := 500, limWin := 0, limQuiet := true, limitTrips := satInc 65535 x.limitTrips }
      .next (ev (lowerClocks s) 0x0702 0 0x03 0 p l)
    else .next (s.modPwr fun x => x.count (decide (100 * p ≤ 88 * l)))

/-- LIMITER_RELEASE_STEP (R397). -/
def execLimiterReleaseStep (s : State) : Out :=
  if 0 < s.pwr.limReq ∧ s.pwr.limHold = 0 ∧ s.pwr.limWin = 100 then
    .next (s.modPwr fun x => { x with limReq := x.limReq - 1, limWin := 0, limQuiet := true })
  else .next s -- no quiet window of 100 microseconds has ended

/-! ### Budgets and the cap (R393, R396) -/

/-- A PWR_SET that waits has its FB's budget, and completes with the last (R396). -/
def budgetSent (s : State) (fb : Nat) : State :=
  s.host.parked.foldl (fun s e =>
    match e.2.2, s.cmd? e.1 e.2.1 with
    | .budget fbs, some c =>
      let left := fbs.filter fun k => k ≠ fb && !s.iso k
      if left.isEmpty then finishSt s e.1 e.2.1 stDONE 0 else park s c (.budget left)
    | _, _ => s) s

/-- The most a die is ever allocated, in W (R24): an FB 170, an SC 112. -/
def budgetLine (u : Nat) : Nat := if u = 0 then 170 else 112

/-- POWER_BUDGET_MESSAGE (R393, R24): no die gets more than its budget line. DEDUCED: log entry 173. -/
def execPowerBudgetMessage (fb bFb bSc0 bSc1 bSc2 bSc3 : Nat) (s : State) : Out :=
  if !s.powered || s.iso fb || reeveDown s 0 then .next s -- Reeve-0 sends the FB no message
  else
    let put (t : Tbl Nat) (u v : Nat) : Tbl Nat := tput t (8 * fb + u) (min v (budgetLine u))
    let s := s.modPwr fun p => { p with
      budget := put (put (put (put (put p.budget 0 bFb) 1 bSc0) 2 bSc1) 3 bSc2) 4 bSc3 }
    .next (budgetSent (lowerClocks s) fb)

/-- A cap within its bounds (R396). -/
def capOk (s : State) (w : Nat) : Bool := decide (1200 ≤ w) && decide (w ≤ s.pwr.ceilingW)

/-- PWR_SET (R396): the cap binds at once; the command completes after a round of budgets. -/
def execPwrSet (h : Hdr) (capW : Nat) (s : State) : Out :=
  command 0x72 h [(0, 1, 1), (2, 2, capW)] (fun s => !capOk s capW)
    (fun s =>
      let s := s.modPwr fun p => { p with capW := capW }
      match s.cmd? h.ring h.seq with
      | some c => park s c (.budget (upFbs s))
      | none => s) s

/-- POWER_CAP_EFFECTER_SET (R396): the same values are rejected. -/
def execPowerCapEffecterSet (capW : Nat) (s : State) : Out :=
  if capOk s capW && mctpServed s then .next (s.modPwr fun p => { p with capW := capW }) else .next s

/-! ### Rails (R392) -/

/-- RAIL_FAULT. -/
def execRailFault (fb d rail : Nat) (s : State) : Out :=
  if s.powered then .next (ev (setRail s fb d 3) 0x0703 fb 0x03 d d rail) else .next s

/-- STAGE1_SECTION_FAULT: the quadrant has no power; for quadrant 0 that is fatal (R340). DEDUCED: log entry 78. -/
def execStage1SectionFault (q : Nat) (s : State) : Out :=
  if !s.powered then .next s
  else if q = 0 then .next (coldStart s 2 false 0)
  else .next ((List.range 8).foldl (fun s d => setRail s q d 3) s)

/-! ### Temperature (R403-R407) -/

/-- Kind of die `d` of an FB: 0 FB, 1 SC, 2 stack, 3 Lantern. -/
def dieKind (d : Nat) : Nat := if d = 0 then 0 else if d < 5 then 1 else if d < 7 then 2 else 3

/-- Thresholds of R404 in °C: warning trips and clears, throttle trips and clears, shutdown. -/
def warnTrip (d : Nat) : Nat := match dieKind d with | 2 => 85 | 3 => 80 | _ => 95
def warnClear (d : Nat) : Nat := match dieKind d with | 2 => 80 | 3 => 75 | _ => 90
def throttleTrip (d : Nat) : Nat := match dieKind d with | 2 => 95 | 3 => 90 | _ => 105
def throttleClear (d : Nat) : Nat := match dieKind d with | 2 => 90 | 3 => 85 | _ => 100
def shutdownTrip (d : Nat) : Nat := match dieKind d with | 2 => 105 | 3 => 100 | _ => 120

def dieKey (fb d : Nat) : Nat := 8 * fb + d

/-- Stack `d` of an FB, and its state changed. -/
def stackNo (fb d : Nat) : Nat := 2 * fb + (d - 5)
def modStack (s : State) (fb d : Nat) (f : Stack → Stack) : State :=
  s.setStack (stackNo fb d) (f (s.stack (stackNo fb d)))

/-- DOME_DIGITISE (R403): the hottest sensor; for a stack the higher of it and the stack's own reading. -/
def execDomeDigitise (fb d : Nat) (readings : List Int) (s : State) : Out :=
  if !s.pwr.input then .next s
  else
    let t := readings.foldl (fun m x => max m x.toNat) 0
    let t := min 255 (if dieKind d = 2 then max t (s.stack (stackNo fb d)).temp else t)
    let k := dieKey fb d
    .next (s.modThm fun x => { x with
      temp := tset 0 x.temp k t, peak := tset 0 x.peak k (max t (tget 0 x.peak k)) })

/-- THM_WARN_TRIP (R404). -/
def execThmWarnTrip (fb d temp : Nat) (s : State) : Out :=
  if !s.powered || decide (temp < warnTrip d) || tget false s.thm.warn (dieKey fb d) then
    .next s -- the warning does not trip
  else
    let s := s.modThm fun x => { x with warn := tset false x.warn (dieKey fb d) true }
    if dieKind d = 2 then .next (modStack s fb d fun k => { k with refresh2x := true })
    else .next (ev s 0x0710 fb 0x04 d d temp)

/-- THM_WARN_CLEAR (R404). -/
def execThmWarnClear (fb d temp : Nat) (s : State) : Out :=
  if !s.powered || decide (warnClear d ≤ temp) || !(tget false s.thm.warn (dieKey fb d)) then
    .next s -- no warning clears
  else
    let s := s.modThm fun x => { x with warn := tset false x.warn (dieKey fb d) false }
    if dieKind d = 2 then .next (modStack s fb d fun k => { k with refresh2x := false }) else .next s

/-- A Lantern throttles, or no longer does: every link of it retrains (R303). DESIGN CHOICE: log entry 88. -/
def lanternThrottle (s : State) (q : Nat) : State :=
  (List.range 24).foldl (fun s i => toRetrain s (24 * q + i)) s

/-- The throttle action of a die starts or is withdrawn; THM_THROTTLE is logged (R404). -/
def setThrottle (s : State) (fb d : Nat) (on : Bool) : State :=
  let s := s.modThm fun x => { x with throttle := tset false x.throttle (dieKey fb d) on }
  let s := match dieKind d with
    | 2 => modStack s fb d fun k => { k with throttled := on }
    | 3 => lanternThrottle s fb
    | _ => s
  ev s 0x0711 fb 0x04 d d (b2n on)

/-- THROTTLE_ENTRY (R404). -/
def execThrottleEntry (fb d temp : Nat) (s : State) : Out :=
  if !s.powered || decide (temp < throttleTrip d) || tget false s.thm.throttle (dieKey fb d) then
    .next s -- the throttle does not trip
  else .next (setThrottle s fb d true)

/-- THROTTLE_EXIT (R404). -/
def execThrottleExit (fb d temp : Nat) (s : State) : Out :=
  if !s.powered || decide (throttleClear d ≤ temp) || !(tget false s.thm.throttle (dieKey fb d)) then
    .next s -- no throttle clears
  else .next (setThrottle s fb d false)

/-- THROTTLE_STEP (R405). -/
def execThrottleStep (fb d temp : Nat) (s : State) : Out :=
  if 4 < d then .next s -- the die has no throttle steps
  else
    let k := throttleStep s fb d
    let k' := if throttleTrip d ≤ temp then min 5 (k + 1) else if temp < throttleClear d then k - 1 else k
    .next (lowerClocks (s.modThm fun x => { x with step := tset 0 x.step (dieKey fb d) k' }))

/-- THERMAL_SHUTDOWN (R406). -/
def execThermalShutdown (fb d : Nat) (s : State) : Out :=
  if !s.powered then .next s
  else
    let (s, m) := readMer s 0
    .next ((railsLost s).modThm fun x => { x with
      thermtrip := true, tripValid := true, tripFb := fb, tripDie := d, tripTemp := shutdownTrip d, tripTime := m })

/-- AUTO_RESTART (R407): cause 3. -/
def execAutoRestart (s : State) : Out :=
  if s.thm.thermtrip && s.thm.autoHeld && s.pwr.input && !s.pwr.ovLatch && (s.thm.temp.all fun e => decide (e.2 < 70)) then
    .next (coldStart (s.modThm fun x => { x with thermtrip := false }) 3 false 0)
  else .next s -- no automatic restart is due

/-! ### The Meridian (R400-R402) -/

/-- Nearest integer of a / b. -/
def roundDiv (a : Int) (b : Nat) : Int := (2 * a + b) / (2 * b)

/-- A correction in parts per 10^9 of one edge, in 2^-32 ns. -/
def edgeCorr (ppb : Int) : Int := roundDiv (40 * 2 ^ 32 * ppb) (10 ^ 9)

/-- SLEW_PPB (R318, R400): what is left of the offset, at most 50,000 either way; 0 outside the FOLLOWER role. -/
def slewPpb (s : State) : Int :=
  if s.fab.role ≠ 2 then 0
  else max (-50000) (min 50000 (Int.tdiv (s.mer.slew * 10 ^ 9) (40 * 2 ^ 32)))

/-- A copy at an edge: one that is ahead adds nothing until FB0's value reaches it (R401). DEDUCED: log entry 79. -/
def copyEdge (held : Bool) (old master add : Nat) : Nat × Bool :=
  if held then (if old ≤ master then (master, false) else (old, true)) else ((old + add) % 2 ^ 96, false)

/-- MERIDIAN_EDGE (R400, R401, R126). -/
def execMeridianEdge (s : State) : Out :=
  if !s.pwr.input then .next s -- the always-on domains do not run
  else
    let sp := slewPpb s
    let inc : Int := 40 * 2 ^ 32 + edgeCorr (s.mer.tempPpb + sp)
    let add := inc.toNat + s.mer.stepNs * 2 ^ 32
    let acc (k : Nat) : Nat := (tget (0 : BitVec 96) s.mer.acc k).toNat
    let m0 := (acc 0 + add) % 2 ^ 96
    let copy (s : State) (k : Nat) : State :=
      if s.iso k then s
      else
        let (v, h) := if k = 0 then (m0, false) else copyEdge (tget false s.mer.hold k) (acc k) m0 add
        { s with mer := { s.mer with
            acc := tset 0 s.mer.acc k (BitVec.ofNat 96 v), hold := tset false s.mer.hold k h } }
    let s := [0, 1, 2, 3].foldl copy s
    let s := { s with mer := { s.mer with
      slew := s.mer.slew - edgeCorr sp
      steps := if 0 < s.mer.stepNs then satInc 65535 s.mer.steps else s.mer.steps
      stepNs := 0 } }
    .next (rollWindow s 0)

/-- TEMP_PPB_UPDATE (R400): the part's calibration curve. -/
def execTempPpbUpdate (reading : Int) (s : State) : Out :=
  if !s.pwr.input then .next s -- the always-on domains do not run
  else .next { s with mer := { s.mer with tempPpb := sext 32 (Config.tempPpb reading % 2 ^ 32).toNat } }

/-- A copy is brought level with FB0's (R401). -/
def levelCopy (s : State) (k : Nat) : State :=
  let a : BitVec 96 := tget 0 s.mer.acc 0
  let b : BitVec 96 := tget 0 s.mer.acc k
  if s.iso k || a = b || tget false s.mer.hold k then s
  else
    let s := { s with mer := { s.mer with
      acc := if b < a then tset 0 s.mer.acc k a else s.mer.acc
      hold := if b < a then s.mer.hold else tset false s.mer.hold k true
      resyncs := tset 0 s.mer.resyncs k (satInc 65535 (tget 0 s.mer.resyncs k)) } }
    ev s 0x0606 k 0x06 0 k ((max a.toNat b.toNat - min a.toNat b.toNat) / 2 ^ 32)

/-- MERIDIAN_COPY_CHECK (R401). -/
def execMeridianCopyCheck (s : State) : Out :=
  if !s.pwr.input then .next s -- the always-on domains do not run
  else .next ([1, 2, 3].foldl levelCopy s)

end Sys2Proof.Machine
end

