-- ==== Sys2Proof/Machine/Regulation.lean ====
section
/-! DEFINITION. Bandwidth regulation (chapter 07: R172-R181): token buckets at the metered ports, deliverable rates,
admission and scale factors. -/

namespace Sys2Proof.Machine

/-! ### Deliverable rates (R146, R147, R176), in 0.1 GB/s -/

/-- The base fabric's clock of an FB in 25 MHz: 48 at 1.2 GHz. DEDUCED: log entry 69. -/
def baseFreq (s : State) (fb : Nat) : Nat := tget 0 s.clk.freq (8 * fb)

/-- Raw rate of an edge: 153.6 GB/s for a pair with two bundles up, 76.8 with one, 0 remapped. -/
def edgeRaw (s : State) (e : Nat) : Nat :=
  (List.range 8).foldl (fun a i =>
    a + (if (remapOf s e i).isSome then 0 else 768 * (b2n (bundleUp s e i 0) + b2n (bundleUp s e i 1)))) 0

/-- Share of a PCIe link's 121.0 GB/s at its trained speed and width: the transfer rate in 0.5 GT/s × lanes.
DEDUCED: log entry 70. -/
def pcieShare (k : Link) : Nat :=
  if k.up then (tget 0 [(1, 5), (2, 10), (3, 16), (4, 32), (5, 64), (6, 128)] k.speed) * k.width else 0

/-- The deliverable rate D of resource `r` (R176). -/
def deliverable (s : State) (r : Nat) : Nat :=
  if r < 8 then (if s.iso (r / 2) then 0 else stackDeliv s r)
  else if r < 12 then
    if s.iso (r - 8) then 0 else 95 * 64 * 3072 * baseFreq s (r - 8) / (100 * 48)
  else if r < 20 then
    let e := (r - 12) / 2
    let (p, q, _) := edgeEnds e
    if s.iso p || s.iso q then 0 else 90 * edgeRaw s e * min (baseFreq s p) (baseFreq s q) / (100 * 48)
  else if r < 22 then
    92 * 1210 * (pcieShare (s.link (r - 20)) + pcieShare (s.link (r - 18))) / (100 * 128 * 16)
  else if r < 32 then 0
  else if r < 128 then
    let k : FLink := tget {} s.fab.links (r - 32)
    if k.st = 3 then tget 0 [(8, 1124), (6, 844), (4, 562), (2, 281)] k.width else 0
  else 0

/-! ### Scale factors (R178, R179) -/

/-- Charges of every class on a resource (A_r), and whether any class charges it. -/
def admitted (cs : Tbl (List (Nat × Nat))) (r : Nat) : Nat :=
  cs.foldl (fun a e => e.2.foldl (fun a c => if c.1 = r then a + c.2 else a) a) 0
def charged (cs : Tbl (List (Nat × Nat))) (r : Nat) : Bool := cs.any fun e => e.2.any fun c => c.1 = r

/-- 1,024 × f_r at rate `d`. -/
def factorOf (g : Rgl) (r d : Nat) : Nat :=
  if !charged g.charges r then 1024
  else
    let b : Nat := tget 0 g.base r
    min 1024 (if b = 0 then Config.zeroBase r else 1024 * d / b)

/-- A resource's rate is `d` now: its factor is recomputed, and GUARANTEE_SCALED is logged where it leaves or returns
to 1. A stack's registers show its rate from then on (R155). -/
def rescale (s : State) (r d : Nat) : State :=
  let old : Nat := tget 1024 s.rgl.factor r
  let new := factorOf s.rgl r d
  let s := if r < 8 then showStack s r else s
  let s := { s with rgl := { s.rgl with deliver := tset 0 s.rgl.deliver r d, factor := tset 1024 s.rgl.factor r new } }
  if (old < 1024) = (new < 1024) then s else ev s 0x0400 0 0x0A 0 r new

/-- 1,024 × f_c: the smallest factor over what a class charges. -/
def classFactor (g : Rgl) (c : Nat) : Nat :=
  (tget [] g.charges c).foldl (fun a x => min a (tget 1024 g.factor x.1)) 1024

/-! ### Buckets (R173-R175) -/

def bucketKey (fb port c : Nat) : Nat := 8 * (293 * fb + port) + c
def Inj.key (i : Inj) : Nat := bucketKey i.fb i.port i.cls

/-- A bucket after 80 ns. DESIGN CHOICE: log entry 114. -/
def Bucket.refill (b : Bucket) (f : Nat) : Bucket :=
  let f := if b.mode = 1 then f else 1024
  { b with level := min (256 * b.burst : Nat) (b.level + ((b.rate * 8 * f / 1024 : Nat) : Int)) }

/-- A packet enters the mesh at a priority, charged or not. -/
def enter (s : State) (i : Inj) (prio : Nat) (pay : Bool) : State :=
  let b : Bucket := tget {} s.rgl.buckets i.key
  { s with
    rgl := { s.rgl with
      buckets := if pay then tset {} s.rgl.buckets i.key { b with level := b.level - i.charge } else s.rgl.buckets }
    msh := { s.msh with
      inj := s.msh.inj ++ [{ i with prio := prio, sends := 1 }] } }

/-- A packet shares a 256-byte line with another of its port (R275). -/
def Inj.shares (i x : Inj) : Bool :=
  x.fb = i.fb && x.port = i.port && decide (i.dpa / 256 ≤ (x.dpa + x.bytes - 1) / 256) &&
  decide (x.dpa / 256 ≤ (i.dpa + i.bytes - 1) / 256)

/-- A packet at its port waits behind an earlier one of its class, and until those of its lines are answered (R175, R275).
DEDUCED: log entry 151. -/
def Inj.held (i : Inj) (s : State) : Bool :=
  (s.rgl.wait.any fun x => (x.fb = i.fb && x.port = i.port && x.cls = i.cls) || i.shares x) || s.msh.inj.any i.shares

/-- A packet at its metered port: it enters as its bucket's MODE says, or waits (R174, R175). DEDUCED: log entry 71.
-/
def admitInj (s : State) (i : Inj) : State :=
  let b : Bucket := tget {} s.rgl.buckets i.key
  if i.held s then { s with rgl := { s.rgl with wait := s.rgl.wait ++ [i] } }
  else if 293 ≤ i.port then enter s i 1 false
  else if b.mode = 0 then enter s i 2 false
  else if b.mode = 1 then (if 0 < b.level then enter s i 1 true else enter s i 2 false)
  else if 0 < b.level then enter s i 2 true
  else { s with rgl := { s.rgl with wait := s.rgl.wait ++ [i] } }

/-- The packets that wait are judged again, in order. -/
def releaseWaits (s : State) : State :=
  s.rgl.wait.foldl admitInj { s with rgl := { s.rgl with wait := [] } }

/-- PACKET_INJECTION (R172-R175): the class is the one its address takes (R121); the other agents' ports are not
metered and inject at GUARANTEED. A requester has reserved its response's space under the request's tag: while a request with
that tag is out it sends no other (R162). DEDUCED: log entry 45. -/
def execPacketInjection (fb port tag dpa bytes : Nat) (atomic : Bool) (s : State) : Out :=
  let i : Inj := ⟨fb, port, tag, dpa, bytes, (ratOf s dpa).rclass, if atomic then 64 else bytes, 2, 0⟩
  let out (x : Inj) : Bool := x.fb = fb && x.port = port && x.tag = tag
  if s.msh.inj.any out || s.rgl.wait.any out then .next s -- the tag is in use
  else .next (admitInj s i)

/-- BUCKET_REFILL (R173, R179). -/
def execBucketRefill (s : State) : Out :=
  let bs := (tkeys s.rgl.buckets).foldl
    (fun t k => tmod {} t k fun b => b.refill (classFactor s.rgl (k % 8))) s.rgl.buckets
  .next (releaseWaits { s with rgl := { s.rgl with buckets := bs } })

/-- SCALE_FACTOR_UPDATE (R179, R181): resource `r` delivers `d` now. -/
def execScaleFactorUpdate (r d : Nat) (s : State) : Out :=
  if d = deliverable s r then .next (rescale s r d)
  else .next s -- the resource's rate is another

/-! ### RGL_SET (R177, R178, R180) -/

/-- Metered ports of an FB from `a`, `n` of them; the PCIe port exists in FB0 and FB3. -/
def portsOf (fb a n : Nat) : List (Nat × Nat) :=
  ((List.range n).map fun k => (fb, a + k)).filter fun x => x.2 != 268 || fb = 0 || fb = 3

/-- The ports of PORTSET and INDEX. -/
def portSet (set index : Nat) : List (Nat × Nat) :=
  match set with
  | 0 => (List.range 4).flatMap fun q => portsOf q 0 256
  | 1 => portsOf (index / 4) (64 * (index % 4)) 64
  | 2 => (List.range 4).flatMap fun q => portsOf q 256 12
  | 3 => portsOf index 256 12
  | 4 => portsOf (3 * index) 268 1
  | 5 => (List.range 4).flatMap fun q => portsOf q 269 24
  | 6 => portsOf (index / 24) (269 + index % 24) 1
  | _ => (List.range 4).flatMap fun q => portsOf q 0 293

/-- BAD_PARAM (R177): the values an entry may not take. -/
def rglBad (e : RglEntry) : Bool :=
  let top := match e.portset with
    | 1 => 16
    | 3 => 4
    | 4 => 2
    | 6 => 96
    | _ => 1
  decide (3 ≤ e.mode) || decide (top ≤ e.index) || decide (e.burst < 16) || decide (32 < e.charges.length) ||
  (!e.charges.isEmpty && e.mode != 1) ||
  e.charges.any (fun c => decide (128 ≤ c.1) || (decide (22 ≤ c.1) && decide (c.1 < 32))) ||
  !decide (e.charges.map (·.1)).Nodup

/-- The admission check of R178, over every resource that a class charges. -/
def rglAdmits (s : State) (cs : Tbl (List (Nat × Nat))) : Bool :=
  (List.range 128).all fun r => !charged cs r || decide (100 * admitted cs r ≤ 85 * deliverable s r)

/-- Install an admitted entry. -/
def rglInstall (s : State) (e : RglEntry) : State :=
  let cs := tset [] s.rgl.charges e.cls e.charges
  let b : Bucket := { mode := e.mode, rate := e.rate, burst := e.burst, level := (256 * e.burst : Nat) }
  let bs := (portSet e.portset e.index).foldl (fun t p => tset {} t (bucketKey p.1 p.2 e.cls) b) s.rgl.buckets
  let base := (List.range 128).foldl
    (fun t r => tset 0 t r (if charged cs r then deliverable s r else 0)) s.rgl.base
  let s := { s with rgl := { s.rgl with charges := cs, buckets := bs, base := base } }
  releaseWaits ((List.range 128).foldl (fun t r => rescale t r (deliverable s r)) s)

/-- The parameter fields of RGL_SET (R247). -/
def rglFields (e : RglEntry) : List (Nat × Nat × Nat) :=
  [(0, 1, 1 + 16 * e.cls), (1, 1, e.mode + 4 * e.portset), (2, 1, e.index), (3, 1, e.charges.length), (4, 4, e.rate),
    (8, 2, e.burst)] ++
  (List.range e.charges.length).flatMap fun i =>
    let c := e.charges.getD i (0, 0)
    [(64 + 8 * i, 1, c.1), (68 + 8 * i, 4, c.2)]

/-- RGL_SET (R177, R178). -/
def execRglSet (h : Hdr) (e : RglEntry) (s : State) : Out :=
  command 0x71 h (rglFields e) (fun _ => rglBad e)
    (fun s =>
      if rglAdmits s (tset [] s.rgl.charges e.cls e.charges) then finishSt (rglInstall s e) h.ring h.seq stDONE 0
      else finishSt s h.ring h.seq 0x0500 0) s

end Sys2Proof.Machine
end

