-- ==== Sys2Proof/Machine/SecRows.lean ====
section
/-! DEFINITION. PLDM for Firmware Update (R383), JTAG (R385) and the Reeve watchdogs (R386). -/

namespace Sys2Proof.Machine

/-- Reeve-0 answers PLDM on the sideband: MCTP is served, and it runs. DEDUCED: log entry 101. -/
def pldmUp (s : State) : Bool :=
  let w : Wdog := tget {} s.sec.wdog 0
  mctpServed s && !w.down && !w.halted

/-- PLDM_REQUEST_UPDATE: the slot that is not running; slot A where recovery runs. -/
def execPldmRequestUpdate (s : State) : Out :=
  if !pldmUp s then .next s
  else if s.sec.stage ≠ 0 then .next { s with sec := { s.sec with updateMode := true } }
  else
    let s := stageOpen s (if s.boot.slot = 0 then 1 else 0) 2
    .next { s with sec := { s.sec with updateMode := false } }

/-- PLDM_IMAGE_TRANSFER: a byte already written in the session, or beyond the slot, has no effect. -/
def execPldmImageTransfer (off : Nat) (data : List Byte) (s : State) : Out :=
  if pldmUp s && s.sec.stage = 2 && decide (off + data.length ≤ slotSize) && !stageWritten s off data.length then
    .next (stageWrite s off data)
  else .next s

/-- PLDM_VERIFY_COMPLETE. -/
def execPldmVerifyComplete (s : State) : Out :=
  .next (if pldmUp s && s.sec.stage = 2 then (stageCommit s).1 else s)

/-- PLDM_ACTIVATE_FIRMWARE: self-contained activation. -/
def execPldmActivateFirmware (s : State) : Out :=
  .next (if pldmUp s && !starting s && s.sec.stage = 3 then activate s else s)

/-- PLDM_CANCEL_UPDATE. -/
def execPldmCancelUpdate (s : State) : Out :=
  .next (if pldmUp s && (s.sec.stage = 2 || s.sec.stage = 3) then stageCancel s else s)

/-- PLDM_GET_FIRMWARE_PARAMETERS: SEQ and version triples of each slot, the images' triples as the Almanac lists them. -/
def execPldmGetFirmwareParameters (s : State) : Out :=
  if !pldmUp s then .next s
  else
    let one (i : Nat) : Nat × Nat × List (Nat × Nat × Nat) := (i, slotSeq s i, ((s.fw i).alm.map (·.images)).getD [])
    .next { s with sec := { s.sec with params := [one 0, one 1] } }

/-- JTAG_ATTACH: the port is inert unless JTAG_EN is 1. -/
def execJtagAttach (s : State) : Out :=
  .next (if s.powered && s.sec.jtagEn then ev (extend s 6 (Config.runEvent 1 0)) 0x0811 0 0x29 0 0 0 else s)

/-- A Reeve's watchdog expires while the module runs (R386): its restart begins, or with the third expiry of a
window it halts. DEDUCED: log entry 100. -/
def watchdog (s : State) (fb : Nat) : State :=
  let w : Wdog := tget {} s.sec.wdog fb
  let now := windowOf s fb
  let n := (if w.windowNo = now then w.window else 0) + 1
  let w : Wdog := { w with
    expiries := satInc 65535 w.expiries, window := min 3 n, windowNo := now, halted := decide (3 ≤ n), down := decide (n < 3) }
  let s := extend { s with sec := { s.sec with wdog := tset {} s.sec.wdog fb w } } 6 (Config.runEvent 0 fb)
  ev s 0x0810 fb 0x29 0 fb (min 3 n)

/-- WATCHDOG_EXPIRY: in steps 2 and 3 it is a firmware failure of the step (R352). -/
def execWatchdogExpiry (fb : Nat) (s : State) : Out :=
  if !s.powered || s.iso fb || reeveDown s fb then .next s
  else if s.boot.phase = 2 ∨ s.boot.phase = 3 then .next (nextSlot s s.boot.phase)
  else .next (watchdog s fb)

/-- REEVE_RESTART_DONE: FW-executed commands go on; each takes effect once, for none is executed in part. DEDUCED:
log entry 102. -/
def execReeveRestartDone (fb : Nat) (s : State) : Out :=
  let w : Wdog := tget {} s.sec.wdog fb
  if w.down then .next { s with sec := { s.sec with wdog := tset {} s.sec.wdog fb { w with down := false } } }
  else .next s -- the Reeve does not restart

end Sys2Proof.Machine
end

