-- ==== Sys2Proof/Machine/Registers.lean ====
section
/-! DEFINITION. What a read of BAR0 returns (R3, R4, R30, R31): every register of every block, from the state it reports. -/

namespace Sys2Proof.Machine

/-- A field of a register at bit `lo`, saturating at its width. -/
def fld (lo w v : Nat) : Nat := min v (2 ^ w - 1) * 2 ^ lo
/-- A two's-complement field. -/
def sfld (lo w : Nat) (v : Int) : Nat := (v % (2 ^ w : Nat)).toNat * 2 ^ lo
/-- A mask of the indexes below `n` that satisfy `p`. -/
def maskOf (n : Nat) (p : Nat → Bool) : Nat := (List.range n).foldl (fun m i => if p i then m + 2 ^ i else m) 0
/-- Word `w` of a digest. -/
def digWord (d : BitVec 512) (w : Nat) : Nat := bits d.toNat (64 * w + 63) (64 * w)
/-- The index of a register of an array with a stride, if the offset is one of its `n` registers. -/
def idxOf (base stride n off : Nat) : Option Nat :=
  if base ≤ off ∧ (off - base) % stride = 0 ∧ (off - base) / stride < n then some ((off - base) / stride) else none
/-- The first register that an offset names, among those given; 0 for an offset that no table lists. -/
def firstReg (xs : List (Option Nat)) : Nat := ((xs.filterMap id).head?).getD 0
/-- An array register, or one alone. -/
def arr (base stride n off : Nat) (f : Nat → Nat) : Option Nat := (idxOf base stride n off).map f
def one (base off v : Nat) : Option Nat := if off = base then some v else none

/-! ### GLB_, BOOT_ and SEC_: FB0 only -/

def readGlb (s : State) (off : Nat) : Nat :=
  firstReg [
    one 0 off (fld 36 16 0x9610 + fld 28 8 Config.fb0Step + fld 24 4 1 + Config.vendorId % 2 ^ 16 * 2 ^ 8 + 1),
    one 8 off (fld 48 16 s.scAdmitted.toNat + fld 40 8 s.msReady.toNat + fld 36 4 s.lnReady.toNat + fld 32 4 s.fbReady.toNat +
      b2n s.degraded)]

def readBoot (s : State) (off : Nat) : Nat :=
  let b := s.boot
  firstReg [
    one 0 off (fld 32 32 b.starts + fld 16 4 b.stepFail + fld 12 4 b.cause + fld 9 1 (b2n b.escalated) +
      fld 8 1 (b2n s.lock) + fld 6 2 b.slot + fld 4 1 (b2n b.warm) + fld 0 4 b.phase),
    one 8 off (fld 8 1 (b2n b.recoveryNext)),
    one 0x10 off (fld 32 16 b.newBad + fld 31 1 (b2n (4096 ≤ b.soft.length)) +
      fld 16 13 (b.soft.filter fun u => 0 < u.passes).length + fld 0 13 b.soft.length),
    one 0x18 off b.readyTime.toNat,
    arr 0x40 8 8 off fun p => fld 0 32 (tget 0 b.stepUs p),
    arr 0x100 8 8 off fun w => digWord b.digest w]

def readSec (s : State) (off : Nat) : Nat :=
  let c := s.sec
  firstReg [
    one 0 off (fld 41 7 c.rollback + fld 40 1 (b2n c.ownerSet) + fld 32 4 c.stage + fld 2 1 (b2n c.enroll.isSome) +
      fld 1 1 (b2n c.ratify)),
    one 8 off (fld 16 8 c.laserLimit + b2n c.jtagEn),
    arr 0x40 8 8 off fun w => digWord c.vendorKey w,
    arr 0x80 8 8 off fun w => digWord c.ownerKey w,
    arr 0xC0 8 16 off fun i => digWord (if i < 8 then c.almVendor else c.almOwner) (i % 8),
    arr 0x200 8 64 off fun i => digWord (tget 0 c.meas (i / 8)) (i % 8),
    arr 0x400 8 4 off fun k =>
      let w : Wdog := tget {} c.wdog k
      fld 48 16 w.expiries + (if w.windowNo = windowOf s k then fld 40 2 w.window else 0) + b2n w.halted]

/-! ### PWR_, THM_, CLK_ and MER_ -/

def readPwr (s : State) (fb off : Nat) : Nat :=
  let p := s.pwr
  firstReg ((if fb = 0 then [
    one 0 off (fld 48 16 (meanW s) + fld 32 16 p.current + fld 16 16 p.voltage + fld 0 16 p.sampleW),
    one 8 off (fld 32 16 (limitW s) + fld 16 16 p.capW + fld 0 16 p.ceilingW),
    one 0x10 off (fld 48 16 p.uvMin + fld 32 16 p.limitTrips + fld 8 2 (emergency s) + fld 3 1 (b2n (alert s)) +
      fld 2 1 (b2n p.ovWarn) + fld 1 1 (b2n (0 < p.limReq)) + b2n p.uvWarn)] else []) ++
   [arr 0x100 8 8 off fun d => fld 48 16 (tget 0 p.budget (8 * fb + d)) + fld 32 16 (tget 0 p.draw (8 * fb + d)) + railOf s fb d])

def readThm (s : State) (fb off : Nat) : Nat :=
  let t := s.thm
  firstReg ((if fb = 0 then [
    one 0 off (b2n t.autoRestart),
    one 8 off (fld 63 1 (b2n t.tripValid) + fld 22 2 t.tripFb + fld 19 3 t.tripDie + fld 0 8 t.tripTemp),
    one 0x10 off t.tripTime.toNat] else []) ++
   [arr 0x100 8 8 off fun d =>
      let k := 8 * fb + d
      fld 24 8 (tget 0 t.peak k) + fld 16 8 (tget 0 t.temp k) + fld 8 3 (tget 0 t.step k) +
      (if tget false t.throttle k then 2 else if tget false t.warn k then 1 else 0)])

def readClk (s : State) (fb off : Nat) : Nat :=
  let c := s.clk
  firstReg [
    one 0 off (fld 0 6 (fmaxOf s fb)),
    one 8 off (fld 16 6 (if tget false c.baseStop fb then 0 else freqOf s fb 0) + b2n (tget false c.pll fb)),
    arr 0x10 8 4 off fun j =>
      let sc := 4 * fb + j
      let on := s.scAdmitted.getLsbD sc
      fld 32 6 (ceilingOf s fb (j + 1)) + fld 28 2 (if on then tget 0 c.scState sc else 2) + fld 24 3 (dutyOf s fb (j + 1)) +
      fld 0 17 (if on then runningOf s sc else 0)]

def readMerReg (s : State) (fb off : Nat) : Nat :=
  firstReg [
    one 0 off (readMer s fb).2.toNat,
    one 8 off (sfld 32 32 (slewPpb s) + sfld 0 32 s.mer.tempPpb),
    one 0x10 off (fld 48 16 s.mer.steps + fld 32 16 (tget 0 s.mer.resyncs fb) + b2n (fb = 0))]

/-! ### GRN_ and HBM_ -/

/-- The layouts of GRN_RAT_STAGE_BASE and GRN_RAT_STAGE_ATTR. -/
def ratBaseWord (r : Rat) : Nat := fld 20 20 r.base
def ratAttrWord (r : Rat) : Nat :=
  fld 40 20 r.limit + fld 15 1 (b2n r.valid) + fld 12 1 (b2n r.peerWr) + fld 8 2 r.vis + fld 4 3 r.rclass + fld 0 3 r.policy

/-- LOST addresses of an FB, with the 2,048 lines of each UNBACKED way of a bank. -/
def lostLines (s : State) (fb : Nat) : Nat :=
  (s.dram.lost.filter fun e => homeFb (256 * e.1) = fb).length +
  2048 * (s.dram.banks.filter fun e => e.1 / 64 = fb).foldl (fun a e => a + e.2.unbacked.length) 0

def readGrn (s : State) (fb off : Nat) : Nat :=
  let g := s.grn fb
  let c := s.dram.ratCmd
  firstReg ([
    one 0 off (fld 1 1 (b2n g.scrub) + b2n g.enable),
    one 8 off (fld 42 22 (s.dram.lines.filter fun e => e.2.dirty && homeQ (256 * e.1) = fb).length +
      fld 20 22 (lostLines s fb) + fld 13 7 (s.dram.banks.filter fun e => e.1 / 64 = fb && e.2.degraded).length +
      fld 8 5 (maxScratch s fb) + fld 3 5 g.w + fld 0 3 g.state),
    one 0x10 off (fld 0 5 g.part),
    one 0x38 off (ratAttrWord { s.dram.ratDefault with limit := 0, valid := false }),
    arr 0x100 8 64 off fun b =>
      let x := s.bank fb b
      fld 25 7 (physBank s fb b) + fld 24 1 (b2n x.degraded) + fld 16 5 (goodWays x) + fld 0 16 x.disabled.toNat,
    arr 0x300 8 64 off fun b => (List.range 16).foldl (fun a w => a + fld (3 * w) 3 (tget 0 (s.bank fb b).ce w)) 0,
    arr 0x500 16 64 off fun i => ratBaseWord (tget {} s.dram.rat i),
    arr 0x508 16 64 off fun i => ratAttrWord (tget {} s.dram.rat i)] ++
   (if fb = 0 then [
    one 0x20 off (bits c.stageBase.toNat 39 20 * 2 ^ 20),
    one 0x28 off (c.stageAttr &&& 0x0FFFFF0000009377).toNat,
    one 0x30 off (fld 48 16 c.result + fld 8 1 (b2n c.busy) + fld 0 7 c.index)] else []))

/-- Fewest spare rows left in any bank of a stack. -/
def spareMin (s : State) (k : Nat) : Nat :=
  let mine := s.dram.rowDone.filter fun e => stackOf (rowAddr e.1) = k
  spares k - mine.foldl (fun m e => max m (repaired s (rowBank e.1))) 0

def readHbm (s : State) (fb off : Nat) : Nat :=
  let h := s.hbm fb
  let inState (k st : Nat) : Nat := ((List.range 32).filter fun c => (s.chan fb (32 * k + c)).state = st).length
  firstReg [
    one 0 off (fld 16 1 (b2n h.scrub) + fld 0 16 h.srIdle),
    arr 0x10 8 2 off fun i =>
      let x := s.stack (2 * fb + i)
      fld 48 16 (tget 0 s.rgl.deliver (2 * fb + i)) + fld 36 6 (inState i 3) + fld 30 6 (inState i 1) + fld 24 1 (b2n x.refresh2x) +
      fld 16 8 x.temp + fld 8 8 (spareMin s (2 * fb + i)) + fld 0 3 x.state,
    one 0x20 off (fld 0 16 (tget 0 s.rgl.deliver (2 * fb) + tget 0 s.rgl.deliver (2 * fb + 1))),
    one 0x28 off (fld 40 24 (s.dram.lostBursts.filter fun e => homeQ (64 * e.1) = fb).length + fld 20 20 h.rowsRepaired +
      fld 0 20 h.rowsUnrepaired),
    one 0x30 off (fld 63 1 (b2n h.ueValid) + fld 62 1 (b2n h.ueOverflow) + h.ueAddr % 2 ^ 34 * 2 ^ 6),
    arr 0x100 8 64 off fun c =>
      let x := s.chan fb c
      fld 48 16 x.deliv + fld 40 8 x.laneErr + fld 32 8 x.lanes + fld 16 16 x.ce + fld 4 12 x.ue + fld 0 3 x.state]

/-! ### MSH_, RGL_ and MIL_ -/

/-- Ports of an FB that satisfy `p`. -/
def frozenPorts (s : State) (fb : Nat) (p : Port → Bool) : Nat :=
  (s.msh.ports.filter fun e => e.1 / 1024 = fb && p e.2).length

def readMsh (s : State) (fb off : Nat) : Nat :=
  firstReg [
    one 0 off (fld 32 10 (frozenPorts s fb (·.freeze)) + fld 16 10 (frozenPorts s fb fun x => x.freeze && !x.drained) +
      b2n ((edgesOf fb).any fun e => (List.range 8).any fun i => (remapOf s e i).isSome)),
    arr 0x100 8 4 off fun e =>
      fld 48 1 (b2n ((List.range 8).all fun i => !pairUp s e i)) + fld 32 16 (maskOf 16 fun i => bundleUp s e (i / 2) (i % 2)) +
      (remapWord s e).toNat,
    arr 0x1000 8 1024 off fun i =>
      let p : MPort := ⟨fb, i / 16, i % 16⟩
      let x := if i % 16 < 10 then s.port p else {}
      fld 32 16 x.restarts + fld 16 16 x.cancels + fld 5 1 (b2n x.suspB.isSome) + fld 4 1 (b2n x.suspG.isSome) +
      fld 2 1 (b2n (connected s p)) + fld 1 1 (b2n (x.freeze && x.drained)) + b2n x.freeze]

def readRgl (s : State) (fb off : Nat) : Nat :=
  let g := s.rgl
  let low := (List.range 128).foldl (fun m r => min m (tget 1024 g.factor r)) 1024
  let (port, cls) := tget (0, 0) g.sel fb
  let b : Bucket := tget {} g.buckets (bucketKey fb port cls)
  firstReg ([
    one 0 off (fld 16 1 (b2n (low < 1024)) + fld 0 11 low),
    one 0x10 off (fld 16 9 port + fld 0 3 cls),
    one 0x18 off (if 292 < port then 0
      else fld 62 2 b.mode + fld 38 24 b.rate + fld 26 12 b.burst + sfld 0 26 b.level)] ++
   (if fb = 0 then [
    arr 0x100 8 128 off fun r => fld 40 24 (deliverable s r) + fld 16 24 (admitted g.charges r) + fld 0 11 (tget 1024 g.factor r),
    arr 0x500 8 128 off fun r => fld 0 24 (tget 0 g.base r),
    arr 0x1000 8 256 off fun i =>
      match (tget [] g.charges (i / 32))[i % 32]? with
      | some c => fld 63 1 1 + fld 32 8 c.1 + fld 0 24 c.2
      | none => 0] else []))

/-- Groups that combine at a router that satisfies `p`. -/
def groupsAt (s : State) (p : Nat → Bool) : List (Nat × Group) :=
  s.mil.groups.filter fun e => e.2.state ≠ 0 && (match e.2.desc with
    | some d => (combining d).any p
    | none => false)

def readMil (s : State) (fb off : Nat) : Nat :=
  let here := groupsAt s fun r => routerFb r = fb
  firstReg ([
    one 0 off (fld 32 9 here.length + fld 16 9 (here.filter fun e => e.2.state = 3).length + fld 0 16 (tget 0 s.mil.stageCe fb)),
    arr 0x100 8 64 off fun a =>
      let r := rtr (meshX fb a) (meshY fb a)
      fld 40 9 (groupsAt s fun q => q = r).length + fld 0 17 (reservedAt s r)] ++
   (if fb = 0 then [
    arr 0x1000 16 256 off fun i =>
      let g := s.group i
      match g.desc with
      | some d => fld 48 16 g.status + fld 40 8 d.root + fld 38 2 d.result + fld 31 7 g.ctx + fld 18 13 d.members.length +
          fld 15 3 d.depth + fld 9 6 d.elem + fld 6 3 d.op + fld 5 1 d.mode + fld 3 2 d.kind + fld 0 3 g.state
      | none => fld 0 3 g.state,
    arr 0x1008 16 256 off fun i => fld 32 32 (s.group i).nextBell.toNat + (s.group i).nextSeq.toNat] else []))

/-! ### XLT_, HST_, CMD_ and CAR_ -/

def ringCfgWord (r : RingRegs) : Nat :=
  fld 9 6 r.vector + fld 5 2 r.link + fld 1 4 r.log2 + b2n r.enable

/-- Words of the descriptor in a slot. -/
def segWord (s : State) (ctx i w : Nat) : Nat :=
  match s.seg ctx i with
  | some d => ((descWords d).getD w (0, 0, 0)).2.2
  | none => 0

def readXlt (s : State) (fb off : Nat) : Nat :=
  let x := s.xlt
  let sel := tget (0, 0) x.segSel fb
  let inval := match x.inval with
    | none => 0
    | some i => if i.fbs.contains fb || i.ports.any fun e => e.1 = fb then 1 else if fb = 0 ∧ !i.links.isEmpty then 2 else 0
  firstReg ([
    one 0 off (fld 48 16 (x.walkCount / 2 ^ 16) + fld 32 3 inval + fld 19 13 (x.l2.filter fun e => e.1 / 4096 = fb).length +
      fld 12 7 (walksIn s fb 0) + fld 0 5 (walksIn s fb 1)),
    one 0x40 off (fld 4 7 sel.1 + fld 0 4 sel.2),
    arr 0x48 8 4 off fun w => if 31 < sel.1 then 0 else segWord s sel.1 sel.2 w] ++
   (if fb = 0 then [
    one 0x10 off (x.ring.base / 4096 * 4096),
    one 0x18 off (ringCfgWord x.ring),
    one 0x20 off x.ring.head.toNat,
    one 0x28 off x.ring.tail.toNat,
    one 0x30 off (fld 16 32 x.nextId.toNat + fld 0 9 x.fq.length),
    arr 0x200 8 64 off fun i => (tget (0 : Word) x.c0seg i).toNat,
    arr 0x400 8 32 off fun c =>
      fld 32 16 (x.faults.filter fun f => f.ctx = c).length + fld 16 16 (maskOf 16 fun i => (s.seg c i).isSome) +
      (if c = 0 then b2n s.lock else fld 0 3 (s.ctx c).state)] else []))

/-- WIDTH of a number of lanes. -/
def widthCode (n : Nat) : Nat := if n = 0 then 0 else Nat.log2 n + 1

def readHst (s : State) (fb off : Nat) : Nat :=
  let p := if fb = 0 then 0 else 1
  let k (h : Nat) : Link := s.link (p + 2 * h)
  let win (i : Nat) : Link × Nat := (k (i / 16), i % 16)
  let vec (h v : Nat) : Msix := tget {} (k h).msix v
  firstReg ([
    arr 0 8 2 off fun h => fld 48 16 (k h).retrains + fld 12 4 (k h).speed + fld 8 4 (widthCode (k h).width) +
      fld 1 1 (b2n (k h).retraining) + b2n (k h).up,
    one 0x10 off (fld 2 1 (b2n (tget true s.host.winOwn p)) + fld 1 1 (b2n (tget false s.host.ro p)) +
      b2n (tget false s.host.bifurcate p)),
    arr 0x20 8 2 off fun h => bits (k h).bar2 39 30 * 2 ^ 30,
    arr 0x30 8 2 off fun h => fld 16 16 (k h).ridMask.toNat + (k h).rid.toNat,
    arr 0x100 16 32 off fun i => (tget (0 : Word) (win i).1.winBase (win i).2).toNat,
    arr 0x108 16 32 off fun i => (tget (0 : Word) (win i).1.winLimit (win i).2).toNat,
    arr 0x40000 16 64 off fun v => (vec 0 v).addr,
    arr 0x40008 16 64 off fun v => fld 0 32 (vec 0 v).data + fld 32 1 (b2n (vec 0 v).masked),
    arr 0x60000 16 64 off fun v => (vec 1 v).addr,
    arr 0x60008 16 64 off fun v => fld 0 32 (vec 1 v).data + fld 32 1 (b2n (vec 1 v).masked),
    arr 0x41000 0x20000 2 off fun h => maskOf 64 (k h).pend.contains] ++
   (if fb = 0 then [one 0x18 off (fld 32 32 (maskOf 32 fun c => (s.ctx c).state = 2) + fld 1 1 (b2n s.host.lost) + b2n s.host.armed)]
    else []))

/-- CMD_RING_STATUS.STATE. DEDUCED: log entry 128. -/
def ringState (s : State) (r : Nat) : Nat :=
  let x := s.ring r
  let cs := ringFlight s r
  if !x.enable then 0 else if x.halted then 4 else if (s.ctx x.ctx).state = 2 then 5
  else if cs.any fun c => isSerial c.op then 3 else if cs.isEmpty then 1 else 2

def ringWord (r : Ring) : Nat :=
  fld 24 3 r.link + fld 16 6 r.cq + fld 12 4 r.log2 + fld 5 7 r.ctx + fld 2 1 (b2n r.priv) + fld 1 1 (b2n r.loc) + b2n r.enable
def cqWord (c : CqRing) : Nat := fld 16 3 c.link + fld 10 6 c.vector + fld 6 4 c.log2 + fld 1 1 (b2n c.loc) + b2n c.enable

def readCmd (s : State) (fb off : Nat) : Nat :=
  let r (i : Nat) : Ring := s.ring (16 * fb + i)
  let c (i : Nat) : CqRing := s.cq (16 * fb + i)
  firstReg [
    one 0 off (fld 32 6 (fbFlight s fb) + fld 16 16 (maskOf 16 fun i => (r i).halted) +
      fld 0 16 (maskOf 16 fun i => !(ringFlight s (16 * fb + i)).isEmpty)),
    arr 0x100 0x40 16 off fun i => (r i).base,
    arr 0x108 0x40 16 off fun i => ringWord (r i),
    arr 0x110 0x40 16 off fun i => fld 32 32 (r i).tail.toNat + (r i).head.toNat,
    arr 0x118 0x40 16 off fun i => fld 32 32 (r i).nextSeq.toNat + fld 4 4 (ringFlight s (16 * fb + i)).length +
      ringState s (16 * fb + i),
    arr 0x800 0x40 16 off fun i => (c i).base,
    arr 0x808 0x40 16 off fun i => cqWord (c i),
    arr 0x810 0x40 16 off fun i => fld 32 32 (c i).tail.toNat + (c i).head.toNat]

def readCar (s : State) (fb off : Nat) : Nat :=
  let mine := s.car.slots.filter fun e => e.1 / 48 = fb && e.2.state ≠ 0
  let queued (p : Nat) : Nat := (s.car.queue.filter fun e => e.1 = fb && e.2.1 = p).length
  let dis : BitVec 12 := tget 0 s.car.disable fb
  let slot (i : Nat) : CarSlot := s.slot fb (i / 4) (i % 4)
  firstReg [
    one 0 off (fld 32 8 (mine.filter fun e => e.2.state = 2).length + fld 24 8 (queued 2) + fld 16 8 (queued 1) +
      fld 8 8 (queued 0) + fld 0 6 mine.length),
    one 8 off dis.toNat,
    arr 0x100 8 12 off fun n => fld 24 40 (tget 0 s.car.written (12 * fb + n) / 65536) + fld 6 1 (b2n (dis.getLsbD n)) +
      fld 3 3 (mine.filter fun e => e.1 % 48 / 4 = n).length + fld 0 2 (n / 4),
    arr 0x200 0x10 48 off fun i => match (slot i).job with
      | some j => fld 32 32 j.seq.toNat + fld 24 8 j.op + fld 18 6 j.ring + fld 11 7 j.ctx + fld 0 3 (slot i).state
      | none => 0,
    arr 0x208 0x10 48 off fun i => match (slot i).job with
      | some j => j.chunks % 2 ^ 32 * 2 ^ 32 + (slot i).delivered j % 2 ^ 32
      | none => 0]

/-! ### FAB_, DIE_ and EVT_ -/

def linkCtlWord (k : FLink) : Nat := fld 12 7 k.rawCtx + fld 8 4 k.maxW + b2n k.enable
def merCfgWord (f : Fab) : Nat := fld 16 2 f.role + fld 8 7 f.altParent + fld 0 7 f.parent

def readFab (s : State) (fb off : Nat) : Nat :=
  let f := s.fab
  let n := s.lantern fb
  firstReg ([
    one 0x30 off (fld 20 12 n.ucieUp.toNat + fld 17 1 (b2n n.lightB) + fld 16 1 (b2n n.lightA) + fld 8 8 n.reject + b2n n.admitted),
    arr 0x100 0x20 24 off fun a => linkCtlWord (s.flink (24 * fb + a)),
    arr 0x108 0x20 24 off fun a =>
      let k := s.flink (24 * fb + a)
      fld 32 24 k.retrains + fld 16 14 k.partner + fld 8 7 k.partnerLink,
    arr 0x110 0x20 24 off fun a =>
      let k := s.flink (24 * fb + a)
      fld 40 24 k.naks + fld 24 16 k.uncorr + fld 16 8 k.good.toNat + fld 8 4 k.width + fld 0 3 k.st] ++
   (if fb = 0 then [
    one 0 off (fld 16 1 (b2n f.idValid) + fld 0 14 f.id),
    one 8 off (fld 0 20 f.e2eTimeout),
    one 0x10 off (fld 16 7 (linksUp s).length + fld 0 16 f.dropped),
    one 0x20 off (merCfgWord f),
    one 0x28 off (sfld 8 32 f.offset + fld 7 1 (b2n f.synced) + fld 0 7 f.activeParent),
    arr 0x10000 8 1024 off fun i => (tget (0 : Word) f.coll i).toNat,
    arr 0x12000 8 256 off fun g =>
      let c : Nat × BitVec 13 × W32 := tget (0, 0, 0) f.collSts g
      fld 48 16 c.1 + fld 32 13 c.2.1.toNat + c.2.2.toNat,
    arr 0x40000 8 16384 off fun m => (tget (0 : Word) f.route m).toNat] else []))

def readDie (s : State) (fb off : Nat) : Nat :=
  let x := s.fbDie fb
  let bend (i : Nat) : BundleEnd := tget {} s.die.bundles (32 * fb + i)
  firstReg ([
    one 0 off (fld 40 8 ((List.range 32).filter fun i => (bend i).st = 4).length + fld 32 8 x.disputes +
      (List.range 4).foldl (fun a j => a + fld (12 + 3 * j) 3 (s.sc (4 * fb + j)).st) 0),
    one 8 off (fld 4 1 (b2n x.autoReadmit)),
    arr 0x10 8 4 off fun j =>
      let d := s.sc (4 * fb + j)
      fld 56 8 d.resets + fld 40 8 d.bonds + fld 28 4 d.cause + fld 20 4 d.gen + fld 16 4 d.proto + fld 0 3 d.st,
    one 0x40 off (fld 48 16 x.switches + fld 3 1 (b2n x.altOk) + fld 2 1 (b2n x.primaryOk) + fld 0 2 x.source),
    arr 0x100 0x10 32 off fun i =>
      let e := bend i
      fld 48 16 e.retrains + fld 40 8 e.crcErr + fld 30 2 e.rounds + fld 3 1 e.ck + fld 0 3 e.st,
    arr 0x108 0x10 32 off fun i =>
      let e := bend i
      fld 36 18 e.inuse.toNat + fld 18 18 e.peer.toNat + e.mine.toNat] ++
   (if fb = 0 then [one 0x48 off (
      (List.range 3).foldl (fun a i => a + fld (20 + 4 * i) 4 (s.fbDie (i + 1)).isoCause) 0 + s.die.fbIso.toNat)] else []))

def readEvt (s : State) (fb off : Nat) : Nat :=
  let e := s.evt
  firstReg ([
    one 0x40 off ((List.range 4).foldl (fun a v => a + fld (16 * v) 16 (tget 0 e.local_ (4 * fb + v))) 0)] ++
   (if fb = 0 then [
    one 0 off (fld 48 16 e.sbDropped + fld 24 24 e.dropped + fld 8 11 e.used + fld 0 8 e.sb.length),
    one 0x10 off (e.ring.base / 4096 * 4096),
    one 0x18 off (fld 15 2 e.ring.irqSev + ringCfgWord e.ring),
    one 0x20 off e.ring.head.toNat,
    one 0x28 off e.ring.tail.toNat,
    one 0x30 off (fld 0 2 e.minSev)] else []))

/-- The register at an offset of a block (R30): a block that an FB lacks reads zero. -/
def readReg (s : State) (fb block off : Nat) : Nat :=
  match block with
  | 0x00 => if fb = 0 then readGlb s off else 0
  | 0x01 => if fb = 0 then readBoot s off else 0
  | 0x02 => if fb = 0 then readSec s off else 0
  | 0x03 => readPwr s fb off
  | 0x04 => readThm s fb off
  | 0x05 => readClk s fb off
  | 0x06 => readMerReg s fb off
  | 0x07 => readGrn s fb off
  | 0x08 => readHbm s fb off
  | 0x09 => readMsh s fb off
  | 0x0A => readRgl s fb off
  | 0x0B => readMil s fb off
  | 0x0C => readXlt s fb off
  | 0x0D => if fb = 0 ∨ fb = 3 then readHst s fb off else 0
  | 0x0E => readCmd s fb off
  | 0x0F => readCar s fb off
  | 0x10 => readFab s fb off
  | 0x11 => readDie s fb off
  | 0x12 => readEvt s fb off
  | _ => 0

/-- A 64-bit read of BAR0 at a multiple of 8: of an isolated FB it returns zeros (R31). -/
def readBar0 (s : State) (off : Nat) : Word :=
  let fb := off / 2 ^ 24
  if s.iso fb then 0 else BitVec.ofNat 64 (readReg s fb (off % 2 ^ 24 / 2 ^ 19) (off % 2 ^ 19))

/-- What a read of `size` bytes at BAR0 offset `off` answers (R3): the register, or the half of it that a 32-bit read
addresses; a read that is narrower than 32 bits, or not naturally aligned, answers zeros. -/
def barRead (s : State) (off size : Nat) : Word :=
  if size = 8 ∧ off % 8 = 0 then readBar0 s off
  else if size = 4 ∧ off % 4 = 0 then BitVec.ofNat 64 (bits (readBar0 s (off / 8 * 8)).toNat (8 * (off % 8) + 31) (8 * (off % 8)))
  else 0

/-- The state after such a read: a read of MER_NOW is a read of that FB's Meridian (R401); no other register of BAR0 has
an effect of its own when it is read. -/
def afterBarRead (s : State) (off size : Nat) : State :=
  if (size = 4 ∨ size = 8) ∧ off % size = 0 ∧ off % 2 ^ 24 / 8 = 0x300000 / 8 ∧ !s.iso (off / 2 ^ 24) then
    (readMer s (off / 2 ^ 24)).1
  else s

end Sys2Proof.Machine
end

