-- ==== Sys2Proof/Machine/RegWrites.lean ====
section
/-! DEFINITION. Writes of BAR0 registers (R3-R7, R30, R31): fields by their access types. -/

namespace Sys2Proof.Machine

/-- A register write: FB, block, offset of the register; the register's value with the written bits in place; those
written bits alone, for RW1C and WO fields, and where they stand; the access's own offset and value, for a report; whether the writer is boot
code, and whether the write came on a PCIe link. -/
structure RegW where
  fb : Nat
  off : Nat
  v : Word
  wo : Word
  mask : Word
  at_ : Nat
  raw : Word
  boot : Bool
  pcie : Bool
  deriving DecidableEq, Repr

/-- A write that is discarded and logged; `inst` the unit's index (R432). -/
def discard (s : State) (w : RegW) (inst : Nat) : State := regDiscard s w.at_ inst w.raw

/-- A BL field (R5): set by boot code while the lock is clear; a write of another value is reported otherwise. -/
def blWrite (s : State) (w : RegW) (cur new : Nat) (set : State → State) : State :=
  if w.boot && !s.lock then set s
  else if cur = new then s
  else logEvent s 0x0002 (w.at_ / 2 ^ 24 % 4) (w.at_ % 2 ^ 24 / 2 ^ 19) 0 0 (BitVec.ofNat 64 w.at_) w.raw

/-- BOOT_CTRL: RECOVERY_NEXT, and a start request under KEY (R347, R351, R364). -/
def writeBoot (s : State) (w : RegW) : State :=
  if w.off ≠ 8 then s
  else
    let start := bits w.wo.toNat 1 0
    let t := { s with boot := { s.boot with recoveryNext := w.v.getLsbD 8 } }
    if start = 0 then t
    else if bits w.wo.toNat 31 16 ≠ 0x57A7 ∨ start = 3 ∨ starting s then discard s w 0
    else startRequest t start 0x57A7

/-- SEC_BOUNDS and SEC_ALMANAC_KEY: BL fields. -/
def writeSec (s : State) (w : RegW) : State :=
  let v := w.v.toNat
  if w.off = 8 then
    blWrite s w (s.sec.laserLimit * 2 + b2n s.sec.jtagEn) (bits v 23 16 * 2 + bits v 0 0) fun s =>
      { s with sec := { s.sec with laserLimit := bits v 23 16, jtagEn := bit v 0 } }
  else match idxOf 0xC0 8 16 w.off with
    | none => s
    | some i =>
      let put (d : BitVec 512) : BitVec 512 :=
        BitVec.ofNat 512 (d.toNat - digWord d (i % 8) * 2 ^ (64 * (i % 8)) + v * 2 ^ (64 * (i % 8)))
      let cur := digWord (if i < 8 then s.sec.almVendor else s.sec.almOwner) (i % 8)
      blWrite s w cur v fun s =>
        if i < 8 then { s with sec := { s.sec with almVendor := put s.sec.almVendor } }
        else { s with sec := { s.sec with almOwner := put s.sec.almOwner } }

/-- PWR_LIMIT.CEILING_W and THM_CTRL.AUTO_RESTART: BL fields. -/
def writePwr (s : State) (w : RegW) : State :=
  let c := bits w.v.toNat 15 0
  if w.fb = 0 ∧ w.off = 8 then
    blWrite s w s.pwr.ceilingW c fun s => { s with pwr := { s.pwr with ceilingW := c } }
  else s
def writeThm (s : State) (w : RegW) : State :=
  if w.fb = 0 ∧ w.off = 0 then
    blWrite s w (b2n s.thm.autoRestart) (b2n (w.v.getLsbD 0)) fun s =>
      { s with thm := { s.thm with autoRestart := w.v.getLsbD 0 } }
  else s

/-- GRN_: CTRL, PART, and in FB0 the staging registers and RAT_CMD. -/
def writeGrn (s : State) (w : RegW) : State :=
  let set (f : RatCmd → RatCmd) : State := { s with dram := { s.dram with ratCmd := f s.dram.ratCmd } }
  match w.off with
  | 0x00 =>
    let s := s.setGrn w.fb { s.grn w.fb with scrub := w.v.getLsbD 1 }
    if (s.grn w.fb).enable = w.v.getLsbD 0 then s else grnEnable s w.fb (w.v.getLsbD 0)
  | 0x10 => grnPart s w.fb w.v
  | 0x20 => if w.fb = 0 then set fun c => { c with stageBase := c.stageBase &&& ~~~w.mask ||| w.wo } else s
  | 0x28 => if w.fb = 0 then set fun c => { c with stageAttr := c.stageAttr &&& ~~~w.mask ||| w.wo } else s
  | 0x30 => if w.fb = 0 then ratUpdate s (w.v &&& ~~~(0x200 : Word) ||| w.wo &&& 0x200) w.at_ w.raw else s
  | _ => s

/-- HBM_CTRL, and HBM_UE_ADDR's RW1C bits. -/
def writeHbm (s : State) (w : RegW) : State :=
  let h := s.hbm w.fb
  if w.off = 0 then s.setHbm w.fb { h with scrub := w.v.getLsbD 16, srIdle := bits w.v.toNat 15 0 }
  else if w.off = 0x30 then
    s.setHbm w.fb { h with
      ueValid := h.ueValid && !w.wo.getLsbD 63, ueOverflow := h.ueOverflow && !w.wo.getLsbD 62 }
  else s

/-- MSH_PORT.FREEZE; a port that is not CONNECTED discards it (R170). -/
def writeMsh (s : State) (w : RegW) : State :=
  match idxOf 0x1000 8 1024 w.off with
  | none => s
  | some i =>
    let p : MPort := ⟨w.fb, i / 16, i % 16⟩
    let on := w.v.getLsbD 0
    if !connected s p || (s.port p).freeze = on then s
    else if on then freezePort s p else thawPort s p

/-- RGL_BKT_SEL. -/
def writeRgl (s : State) (w : RegW) : State :=
  if w.off = 0x10 then
    { s with rgl := { s.rgl with sel := tset (0, 0) s.rgl.sel w.fb (bits w.v.toNat 24 16, bits w.v.toNat 2 0) } }
  else s

/-- A ring's BASE: discarded while ENABLE is 1 (R223). -/
def ringBase (w : RegW) (r : RingRegs) : Option RingRegs :=
  if r.enable then none else some { r with base := bits w.v.toNat 63 12 * 4096 }

/-- A ring's configuration: with ENABLE = 1 as R223 and R416 say, otherwise its fields and a stop. -/
def ringCfgWrite (s : State) (w : RegW) (r : RingRegs) (sev : Bool) : Option RingRegs :=
  let v := w.v.toNat
  if bit v 0 then r.enableWrite s sev v
  else some { r with
    vector := bits v 14 9, link := bits v 6 5, log2 := bits v 4 1, enable := false
    irqSev := if sev then bits v 16 15 else r.irqSev }

/-- XLT_: the fault ring in FB0, XLT_SEG_SEL, and XLT_C0SEG (BL). -/
def writeXlt (s : State) (w : RegW) : State :=
  let g := s.xlt.ring
  let put (r : Option RingRegs) : State := match r with
    | some r => { s with xlt := { s.xlt with ring := r } }
    | none => discard s w 0
  if w.off = 0x40 then
    { s with xlt := { s.xlt with segSel := tset (0, 0) s.xlt.segSel w.fb (bits w.v.toNat 10 4, bits w.v.toNat 3 0) } }
  else if w.fb ≠ 0 then s
  else match w.off with
    | 0x10 => put (ringBase w g)
    | 0x18 => match ringCfgWrite s w g false with
      | some r => fringWritten s r
      | none => discard s w 0
    | 0x20 => if g.headOk 6 (w.v.setWidth 32) then put (some { g with head := w.v.setWidth 32 }) else discard s w 0
    | _ =>
      match idxOf 0x200 8 64 w.off with
      | none => s
      | some i =>
        blWrite s w (tget (0 : Word) s.xlt.c0seg i).toNat w.v.toNat fun s =>
          { s with xlt := { s.xlt with c0seg := tset 0 s.xlt.c0seg i w.v } }

/-- BAR2's base: a multiple of the BAR2 size (R232). -/
def writeBar2 (s : State) (w : RegW) (l : Nat) : State :=
  let b := bits w.v.toNat 39 30 * 2 ^ 30
  if b % 2 ^ (30 + (Config.bar2Log l).val) = 0 then s.setLink l { s.link l with bar2 := b } else discard s w l

/-- An MSI-X table entry, word 0 its address, word 1 its data and mask (PRESUMED, log entry 22); what is pending and no longer
masked is raised. -/
def writeMsix (s : State) (w : RegW) (l v k : Nat) : State :=
  let x := s.link l
  let e : Msix := tget {} x.msix v
  let n := w.v.toNat
  let e := if k = 0 then { e with addr := n / 4 * 4 } else { e with data := bits n 31 0, masked := bit n 32 }
  let s := s.setLink l { x with msix := tset {} x.msix v e }
  if !e.masked && x.pend.contains v then raiseMsix s l v else s

/-- HST_: options, preservation, BAR2, Requester ID, windows and MSI-X tables of FB0's and FB3's links. -/
def writeHst (s : State) (w : RegW) : State :=
  let p := if w.fb = 0 then 0 else 1
  let v := w.v.toNat
  match w.off with
  | 0x10 =>
    let bl (s : State) : State := blWrite s w
      (2 * b2n (tget true s.host.winOwn p) + b2n (tget false s.host.bifurcate p)) (2 * bits v 2 2 + bits v 0 0) fun s =>
        { s with host := { s.host with
            winOwn := tset true s.host.winOwn p (bit v 2), bifurcate := tset false s.host.bifurcate p (bit v 0) } }
    bl { s with host := { s.host with ro := tset false s.host.ro p (bit v 1) } }
  | 0x18 =>
    if w.fb = 0 then { s with host := { s.host with armed := bit v 0, lost := s.host.lost && !w.wo.getLsbD 1 } } else s
  | _ =>
    match idxOf 0x20 8 2 w.off, idxOf 0x30 8 2 w.off, idxOf 0x100 8 64 w.off, idxOf 0x40000 8 128 w.off,
        idxOf 0x60000 8 128 w.off with
    | some h, _, _, _, _ => writeBar2 s w (p + 2 * h)
    | _, some h, _, _, _ =>
      s.setLink (p + 2 * h) { s.link (p + 2 * h) with
        rid := BitVec.ofNat 16 v, ridMask := BitVec.ofNat 16 (v / 2 ^ 16) }
    | _, _, some i, _, _ => windowSet s (p + 2 * (i / 32)) (i % 32 / 2) (i % 2 = 1) w.pcie w.mask w.v w.raw w.at_
    | _, _, _, some i, _ => writeMsix s w p (i / 2) (i % 2)
    | _, _, _, _, some i => writeMsix s w (p + 2) (i / 2) (i % 2)
    | _, _, _, _, _ => s

/-- CMD_: rings and completion rings of an FB. -/
def writeCmd (s : State) (w : RegW) : State :=
  let base := bits w.v.toNat 63 12 * 4096
  match idxOf 0x100 0x40 16 w.off, idxOf 0x108 0x40 16 w.off, idxOf 0x800 0x40 16 w.off, idxOf 0x808 0x40 16 w.off,
      idxOf 0x810 0x40 16 w.off with
  | some i, _, _, _, _ =>
    let r := 16 * w.fb + i
    if (s.ring r).enable then discard s w r else s.setRing r { s.ring r with base := base }
  | _, some i, _, _, _ => ringWrite s (16 * w.fb + i) w.v
  | _, _, some i, _, _ =>
    let q := 16 * w.fb + i
    if (s.cq q).enable then discard s w q else s.setCq q { s.cq q with base := base }
  | _, _, _, some i, _ => cqWrite s (16 * w.fb + i) w.v
  | _, _, _, _, some i => cqHead s (16 * w.fb + i) (w.v.setWidth 32) w.at_ w.raw
  | _, _, _, _, _ => s

/-- CAR_CTRL.DISABLE. -/
def writeCar (s : State) (w : RegW) : State :=
  if w.off = 8 then
    { s with car := { s.car with disable := tset 0 s.car.disable w.fb (w.v.setWidth 12) } }
  else s

/-- FAB_LINK_CTL of a link: RAW_CTX, MAX_WIDTH and ENABLE (R301, R303, R316). A change of RAW_CTX discards the packets
received under the old one. -/
def writeLinkCtl (s : State) (w : RegW) (l : Nat) : State :=
  let v := w.v.toNat
  let width := bits v 11 8
  if !([8, 6, 4, 2].contains width) then discard s w (l % 24)
  else
    let k := s.flink l
    let s := if k.rawCtx = bits v 18 12 then s
      else wakeRaw (k.raw.foldl (fun s p => rxOwe s l p)
        (s.setFlink l { k with rawCtx := bits v 18 12, raw := [] })) l
    let s := if k.maxW = width then s else writeMaxWidth s l width w.v
    if k.enable = bit v 0 then s else if bit v 0 then enableLink s l else disableLink s l

/-- FAB_: link control, and in FB0 the rest. -/
def writeFab (s : State) (w : RegW) : State :=
  let v := w.v.toNat
  match idxOf 0x100 0x20 24 w.off with
  | some a => writeLinkCtl s w (24 * w.fb + a)
  | none =>
    if w.fb ≠ 0 then s
    else match w.off with
      | 0x00 => if (linksUp s).isEmpty then
            { s with fab := { s.fab with id := bits v 13 0, idValid := bit v 16 } }
          else discard s w 0
      | 0x08 => if bits v 19 0 = 0 then discard s w 0 else { s with fab := { s.fab with e2eTimeout := bits v 19 0 } }
      | 0x20 => followParent
        { s with fab := { s.fab with role := bits v 17 16, altParent := bits v 14 8, parent := bits v 6 0 } }
      | _ =>
        match idxOf 0x10000 8 1024 w.off, idxOf 0x40000 8 16384 w.off with
        | some i, _ => collSet s (i / 4) (i % 4) w.v w.at_ w.raw
        | _, some m => routeSet s m w.v w.at_ w.raw
        | _, _ => s

/-- DIE_CTRL and, in FB0, DIE_FB_ISO.READMIT (R344, R345). -/
def writeDie (s : State) (w : RegW) : State :=
  if w.off = 8 then
    let s := s.setFbDie w.fb { s.fbDie w.fb with autoReadmit := w.v.getLsbD 4 }
    (List.range 4).foldl (fun s j => if w.wo.getLsbD j then scResetBit s (4 * w.fb + j) else s) s
  else if w.off = 0x48 ∧ w.fb = 0 then
    (List.range 4).foldl (fun s k => if w.wo.getLsbD (8 + k) then readmitFb s k else s) s
  else s

/-- EVT_: the event ring and EVT_SB_CFG, in FB0 (R416, R417). -/
def writeEvt (s : State) (w : RegW) : State :=
  let g := s.evt.ring
  let put (r : Option RingRegs) : State := match r with
    | some r => { s with evt := { s.evt with ring := r } }
    | none => discard s w 0
  if w.fb ≠ 0 then s
  else match w.off with
    | 0x10 => put (ringBase w g)
    | 0x18 => put (ringCfgWrite s w g true)
    | 0x20 => if g.headOk 7 (w.v.setWidth 32) then put (some { g with head := w.v.setWidth 32 }) else discard s w 0
    | 0x30 => { s with evt := { s.evt with minSev := bits w.v.toNat 1 0 } }
    | _ => s

/-- Registers on which a write acts, all of whose fields that a write changes stand in bits 31:0. -/
def lowerHalf (block off : Nat) : Bool :=
  match block with
  | 0x05 => off = 0
  | 0x07 => off = 0 || off = 0x10 || off = 0x30
  | 0x0C => off = 0x18 || off = 0x20
  | 0x0E => (idxOf 0x108 0x40 16 off).isSome || (idxOf 0x808 0x40 16 off).isSome || (idxOf 0x810 0x40 16 off).isSome
  | 0x10 => off = 0 || off = 8 || off = 0x20 || (idxOf 0x100 0x20 24 off).isSome
  | 0x12 => off = 0x18 || off = 0x20
  | _ => false

/-- A write to a register of a block that its FB has (R30). A write of the upper 32 bits alone does nothing to a register
that has none but RO and RSVD fields there (R3, R4). DEDUCED: log entry 136. -/
def writeReg (s : State) (block : Nat) (w : RegW) : State :=
  if w.mask = 0xFFFFFFFF00000000 && lowerHalf block w.off then s
  else match block with
  | 0x01 => if w.fb = 0 then writeBoot s w else s
  | 0x02 => if w.fb = 0 then writeSec s w else s
  | 0x03 => writePwr s w
  | 0x04 => writeThm s w
  | 0x05 => if w.off = 0 then fmaxWrite s w.fb w.v else s
  | 0x07 => writeGrn s w
  | 0x08 => writeHbm s w
  | 0x09 => writeMsh s w
  | 0x0A => writeRgl s w
  | 0x0C => writeXlt s w
  | 0x0D => if w.fb = 0 ∨ w.fb = 3 then writeHst s w else s
  | 0x0E => writeCmd s w
  | 0x0F => writeCar s w
  | 0x10 => writeFab s w
  | 0x11 => writeDie s w
  | 0x12 => writeEvt s w
  | _ => s

/-- The write as its register takes it: a 32-bit write changes only the half it addresses (R3). -/
def regW (s : State) (off size : Nat) (v : Word) (boot pcie : Bool) : RegW :=
  let hi := off % 8 = 4
  let mask : Word := if size = 8 then BitVec.allOnes 64 else if hi then 0xFFFFFFFF00000000 else 0xFFFFFFFF
  let put : Word := (if hi then v <<< 32 else v) &&& mask
  { fb := off / 2 ^ 24, off := off % 2 ^ 19 / 8 * 8, v := (readBar0 s (off / 8 * 8) &&& ~~~mask) ||| put
    wo := put, mask := mask, at_ := off, raw := v, boot := boot, pcie := pcie }

/-- REGISTER_WRITE (R3-R5, R31): a write that is narrower than 32 bits or not aligned has no effect, and one to an isolated
FB is discarded. -/
def execRegisterWrite (off size : Nat) (v : Word) (boot pcie : Bool) (s : State) : Out :=
  if (size = 4 ∨ size = 8) ∧ off % size = 0 ∧ s.powered ∧ !s.iso (off / 2 ^ 24) then
    .next (writeReg s (off % 2 ^ 24 / 2 ^ 19) (regW s off size v boot pcie))
  else .next s

end Sys2Proof.Machine
end

