-- ==== Sys2Proof/Machine/Dispatch.lean ====
section
/-! DEFINITION. The dispatch of commands to their meanings: one arm per constructor. -/

namespace Sys2Proof.Machine

/-- The command's effect on everything but the queue. -/
def exec (i : Instr) (s : State) : Host.Outcome State Fault Refusal :=
  match i with
  | .inputRising40v => Sys2Proof.Machine.execInputRising40v s
  | .undervoltageWarning mv => Sys2Proof.Machine.execUndervoltageWarning mv s
  | .undervoltageClear durationUs => Sys2Proof.Machine.execUndervoltageClear durationUs s
  | .orderlyReset => Sys2Proof.Machine.execOrderlyReset s
  | .ovWarnSet mv => Sys2Proof.Machine.execOvWarnSet mv s
  | .ovWarnClear => Sys2Proof.Machine.execOvWarnClear s
  | .overvoltageShutdown => Sys2Proof.Machine.execOvervoltageShutdown s
  | .limiterSample p mv centiAmp => Sys2Proof.Machine.execLimiterSample p mv centiAmp s
  | .limiterReleaseStep => Sys2Proof.Machine.execLimiterReleaseStep s
  | .powerBudgetMessage fb bFb bSc0 bSc1 bSc2 bSc3 => Sys2Proof.Machine.execPowerBudgetMessage fb bFb bSc0 bSc1 bSc2 bSc3 s
  | .railFault fb d rail => Sys2Proof.Machine.execRailFault fb d rail s
  | .stage1SectionFault q => Sys2Proof.Machine.execStage1SectionFault q s
  | .pwrSet h capW => Sys2Proof.Machine.execPwrSet h capW s
  | .powerCapEffecterSet capW => Sys2Proof.Machine.execPowerCapEffecterSet capW s
  | .domeDigitise fb d readings => Sys2Proof.Machine.execDomeDigitise fb d readings s
  | .thmWarnTrip fb d temp => Sys2Proof.Machine.execThmWarnTrip fb d temp s
  | .thmWarnClear fb d temp => Sys2Proof.Machine.execThmWarnClear fb d temp s
  | .throttleEntry fb d temp => Sys2Proof.Machine.execThrottleEntry fb d temp s
  | .throttleExit fb d temp => Sys2Proof.Machine.execThrottleExit fb d temp s
  | .throttleStep fb d temp => Sys2Proof.Machine.execThrottleStep fb d temp s
  | .thermalShutdown fb d => Sys2Proof.Machine.execThermalShutdown fb d s
  | .autoRestart => Sys2Proof.Machine.execAutoRestart s
  | .meridianEdge => Sys2Proof.Machine.execMeridianEdge s
  | .tempPpbUpdate reading => Sys2Proof.Machine.execTempPpbUpdate reading s
  | .meridianCopyCheck => Sys2Proof.Machine.execMeridianCopyCheck s
  | .clockRaiseDone fb unit => Sys2Proof.Machine.execClockRaiseDone fb unit s
  | .clusterClockStop sc k => Sys2Proof.Machine.execClusterClockStop sc k s
  | .clusterWake sc k => Sys2Proof.Machine.execClusterWake sc k s
  | .scSleep sc => Sys2Proof.Machine.execScSleep sc s
  | .scWake sc => Sys2Proof.Machine.execScWake sc s
  | .baseFabricClockStop fb => Sys2Proof.Machine.execBaseFabricClockStop fb s
  | .baseFabricWake fb => Sys2Proof.Machine.execBaseFabricWake fb s
  | .reeveClockStop fb => Sys2Proof.Machine.execReeveClockStop fb s
  | .reeveWake fb => Sys2Proof.Machine.execReeveWake fb s
  | .fmaxWrite fb v => Sys2Proof.Machine.execFmaxWrite fb v s
  | .referenceSourceSwitch fb => Sys2Proof.Machine.execReferenceSourceSwitch fb s
  | .clockMonitorWindow fb kind idx edges nominal => Sys2Proof.Machine.execClockMonitorWindow fb kind idx edges nominal s
  | .heartbeatSend die => Sys2Proof.Machine.execHeartbeatSend die s
  | .heartbeatLost die => Sys2Proof.Machine.execHeartbeatLost die s
  | .dieIsolateMark die => Sys2Proof.Machine.execDieIsolateMark die s
  | .dieLossContainment die => Sys2Proof.Machine.execDieLossContainment die s
  | .scReset sc => Sys2Proof.Machine.execScReset sc s
  | .scAutoReadmit sc => Sys2Proof.Machine.execScAutoReadmit sc s
  | .scReadmitComplete sc pass cause bonds => Sys2Proof.Machine.execScReadmitComplete sc pass cause bonds s
  | .fbReadmit k => Sys2Proof.Machine.execFbReadmit k s
  | .fbReadmitComplete k pass => Sys2Proof.Machine.execFbReadmitComplete k pass s
  | .gulgenFrameReceive b version fseq ack nak crcOk => Sys2Proof.Machine.execGulgenFrameReceive b version fseq ack nak crcOk s
  | .bundleRetrainDone b => Sys2Proof.Machine.execBundleRetrainDone b s
  | .bundleRetrainTimeout b => Sys2Proof.Machine.execBundleRetrainTimeout b s
  | .laneTestDone b good ckGood => Sys2Proof.Machine.execLaneTestDone b good ckGood s
  | .bundleMaskReceived b peer peerCk => Sys2Proof.Machine.execBundleMaskReceived b peer peerCk s
  | .bundleReportReceived b inuse width => Sys2Proof.Machine.execBundleReportReceived b inuse width s
  | .edgeRemap e => Sys2Proof.Machine.execEdgeRemap e s
  | .dieCapabilityRecord die record => Sys2Proof.Machine.execDieCapabilityRecord die record s
  | .arbitrationCycle p => Sys2Proof.Machine.execArbitrationCycle p s
  | .meshFlitArrival p f => Sys2Proof.Machine.execMeshFlitArrival p f s
  | .creditReturn p lane => Sys2Proof.Machine.execCreditReturn p lane s
  | .cancelFlitReceive p f => Sys2Proof.Machine.execCancelFlitReceive p f s
  | .retryResponse p tag => Sys2Proof.Machine.execRetryResponse p tag s
  | .freezeSet p => Sys2Proof.Machine.execFreezeSet p s
  | .freezeClear p => Sys2Proof.Machine.execFreezeClear p s
  | .portDrained p => Sys2Proof.Machine.execPortDrained p s
  | .bucketRefill => Sys2Proof.Machine.execBucketRefill s
  | .packetInjection fb port tag dpa bytes atomic => Sys2Proof.Machine.execPacketInjection fb port tag dpa bytes atomic s
  | .rglSet h e => Sys2Proof.Machine.execRglSet h e s
  | .scaleFactorUpdate r d => Sys2Proof.Machine.execScaleFactorUpdate r d s
  | .granaryBankAccess dpa len wr data ecc bad => Sys2Proof.Machine.execGranaryBankAccess dpa len wr data ecc bad s
  | .bankAtomic dpa op b c => Sys2Proof.Machine.execBankAtomic dpa op b c s
  | .granaryPatrolScrub dpa ecc bad => Sys2Proof.Machine.execGranaryPatrolScrub dpa ecc bad s
  | .granaryEnable fb => Sys2Proof.Machine.execGranaryEnable fb s
  | .granaryDisable fb => Sys2Proof.Machine.execGranaryDisable fb s
  | .flushSweepEnd fb bad => Sys2Proof.Machine.execFlushSweepEnd fb bad s
  | .grnPartWrite fb v => Sys2Proof.Machine.execGrnPartWrite fb v s
  | .repartitionBankSwitch fb b bad => Sys2Proof.Machine.execRepartitionBankSwitch fb b bad s
  | .ratUpdate v => Sys2Proof.Machine.execRatUpdate v s
  | .ratUpdateDone bad => Sys2Proof.Machine.execRatUpdateDone bad s
  | .memoryRead dpa ecc laneErr => Sys2Proof.Machine.execMemoryRead dpa ecc laneErr s
  | .memoryWrite dpa data eccs => Sys2Proof.Machine.execMemoryWrite dpa data eccs s
  | .rowRepairDone dpa fixed bad => Sys2Proof.Machine.execRowRepairDone dpa fixed bad s
  | .memoryPatrolScrub dpa ecc laneErr => Sys2Proof.Machine.execMemoryPatrolScrub dpa ecc laneErr s
  | .stackTemperatureRead stack temp => Sys2Proof.Machine.execStackTemperatureRead stack temp s
  | .refreshInterval stack => Sys2Proof.Machine.execRefreshInterval stack s
  | .channelRetrainDone q c result lanes => Sys2Proof.Machine.execChannelRetrainDone q c result lanes s
  | .selfRefreshEntry stack => Sys2Proof.Machine.execSelfRefreshEntry stack s
  | .selfRefreshExit stack => Sys2Proof.Machine.execSelfRefreshExit stack s
  | .memoryZeroingDone => Sys2Proof.Machine.execMemoryZeroingDone s
  | .redGroupCreate h g => Sys2Proof.Machine.execRedGroupCreate h g s
  | .redGroupDestroy h group force => Sys2Proof.Machine.execRedGroupDestroy h group force s
  | .millPartialReceive router inp m ecc => Sys2Proof.Machine.execMillPartialReceive router inp m ecc s
  | .millResultReceive node m => Sys2Proof.Machine.execMillResultReceive node m s
  | .millDepositFlag group => Sys2Proof.Machine.execMillDepositFlag group s
  | .bellFlitReceive router inp group seq => Sys2Proof.Machine.execBellFlitReceive router inp group seq s
  | .releaseReceive node group seq => Sys2Proof.Machine.execReleaseReceive node group seq s
  | .noticeReceive group member => Sys2Proof.Machine.execNoticeReceive group member s
  | .ctxCreate h tctx raw link reach => Sys2Proof.Machine.execCtxCreate h tctx raw link reach s
  | .ctxDestroy h tctx => Sys2Proof.Machine.execCtxDestroy h tctx s
  | .segMap h tctx seg desc => Sys2Proof.Machine.execSegMap h tctx seg desc s
  | .segUnmap h tctx seg => Sys2Proof.Machine.execSegUnmap h tctx seg s
  | .xltInval h scope seg first count => Sys2Proof.Machine.execXltInval h scope seg first count s
  | .invalidationFlit fb => Sys2Proof.Machine.execInvalidationFlit fb s
  | .portEpochDrained fb port => Sys2Proof.Machine.execPortEpochDrained fb port s
  | .zeroLengthReadComplete link => Sys2Proof.Machine.execZeroLengthReadComplete link s
  | .walkComplete fb ctx seg page ecc => Sys2Proof.Machine.execWalkComplete fb ctx seg page ecc s
  | .faultRingWrite => Sys2Proof.Machine.execFaultRingWrite s
  | .faultResume h scope fid => Sys2Proof.Machine.execFaultResume h scope fid s
  | .faultAbort h scope fid => Sys2Proof.Machine.execFaultAbort h scope fid s
  | .faultRingEnable v => Sys2Proof.Machine.execFaultRingEnable v s
  | .faultRingDisable => Sys2Proof.Machine.execFaultRingDisable s
  | .faultRingHeadWrite v => Sys2Proof.Machine.execFaultRingHeadWrite v s
  | .perstAssert port => Sys2Proof.Machine.execPerstAssert port s
  | .perstDeassert port => Sys2Proof.Machine.execPerstDeassert port s
  | .hotReset link => Sys2Proof.Machine.execHotReset link s
  | .flr link => Sys2Proof.Machine.execFlr link s
  | .linkRetrainStart link => Sys2Proof.Machine.execLinkRetrainStart link s
  | .linkL0Return link speed width => Sys2Proof.Machine.execLinkL0Return link speed width s
  | .linkRetrainTimeout link => Sys2Proof.Machine.execLinkRetrainTimeout link s
  | .outboundReadTimeout link => Sys2Proof.Machine.execOutboundReadTimeout link s
  | .outboundReadCompletion link tag ok data => Sys2Proof.Machine.execOutboundReadCompletion link tag ok data s
  | .hostLossHold link => Sys2Proof.Machine.execHostLossHold link s
  | .hostLossSuspend link => Sys2Proof.Machine.execHostLossSuspend link s
  | .hostLossFinalStep link => Sys2Proof.Machine.execHostLossFinalStep link s
  | .recoverResume h tctx link => Sys2Proof.Machine.execRecoverResume h tctx link s
  | .recoverDiscard h tctx link => Sys2Proof.Machine.execRecoverDiscard h tctx link s
  | .doorbell link ring v => Sys2Proof.Machine.execDoorbell link ring v s
  | .windowDoorbell link ring v => Sys2Proof.Machine.execWindowDoorbell link ring v s
  | .commandWindowWrite link ring off data => Sys2Proof.Machine.execCommandWindowWrite link ring off data s
  | .bar2Read link rid off len => Sys2Proof.Machine.execBar2Read link rid off len s
  | .bar2Write link rid ro ido off data => Sys2Proof.Machine.execBar2Write link rid ro ido off data s
  | .barReservedAccess link off wr => Sys2Proof.Machine.execBarReservedAccess link off wr s
  | .hostWindowWrite link idx limit fromPcie v => Sys2Proof.Machine.execHostWindowWrite link idx limit fromPcie v s
  | .hostWindowEffective link => Sys2Proof.Machine.execHostWindowEffective link s
  | .regionRegister h region r w rid mask base size => Sys2Proof.Machine.execRegionRegister h region r w rid mask base size s
  | .regionRelease h region => Sys2Proof.Machine.execRegionRelease h region s
  | .commandPacketArrival ring data => Sys2Proof.Machine.execCommandPacketArrival ring data s
  | .ringEnable ring v => Sys2Proof.Machine.execRingEnable ring v s
  | .ringDisable ring => Sys2Proof.Machine.execRingDisable ring s
  | .cqEnable cq v => Sys2Proof.Machine.execCqEnable cq v s
  | .cqDisable cq => Sys2Proof.Machine.execCqDisable cq s
  | .cqHeadWrite cq v => Sys2Proof.Machine.execCqHeadWrite cq v s
  | .completionRecordWrite cq => Sys2Proof.Machine.execCompletionRecordWrite cq s
  | .commandTimeout ring seq => Sys2Proof.Machine.execCommandTimeout ring seq s
  | .nop h => Sys2Proof.Machine.execNop h s
  | .writeInline h dst data => Sys2Proof.Machine.execWriteInline h dst data s
  | .launch h threads imageLen image entry arg cores => Sys2Proof.Machine.execLaunch h threads imageLen image entry arg cores s
  | .launchCoreTake n => Sys2Proof.Machine.execLaunchCoreTake n s
  | .launchComplete ring seq => Sys2Proof.Machine.execLaunchComplete ring seq s
  | .kernelStop h ring target => Sys2Proof.Machine.execKernelStop h ring target s
  | .fenceCmd h => Sys2Proof.Machine.execFenceCmd h s
  | .wait h cmp addr value => Sys2Proof.Machine.execWait h cmp addr value s
  | .waitPollRead ring seq hostVal => Sys2Proof.Machine.execWaitPollRead ring seq hostVal s
  | .signal h op addr value => Sys2Proof.Machine.execSignal h op addr value s
  | .bellCmd h group bseq => Sys2Proof.Machine.execBellCmd h group bseq s
  | .query h page dst => Sys2Proof.Machine.execQuery h page dst s
  | .copy h fl src dst bytes => Sys2Proof.Machine.execCopy h fl src dst bytes s
  | .copyNd h fl side count0 src dst dims => Sys2Proof.Machine.execCopyNd h fl side count0 src dst dims s
  | .fill h fl plen dst bytes pattern => Sys2Proof.Machine.execFill h fl plen dst bytes pattern s
  | .carterSlotTake fb pool => Sys2Proof.Machine.execCarterSlotTake fb pool s
  | .carterChunkReadData fb car slot chunk data => Sys2Proof.Machine.execCarterChunkReadData fb car slot chunk data s
  | .carterChunkWriteAck fb car slot chunk => Sys2Proof.Machine.execCarterChunkWriteAck fb car slot chunk s
  | .carterComplete fb car slot => Sys2Proof.Machine.execCarterComplete fb car slot s
  | .attest h part dst dstLen nonce => Sys2Proof.Machine.execAttest h part dst dstLen nonce s
  | .fwStageOpen h slot => Sys2Proof.Machine.execFwStageOpen h slot s
  | .fwStageWrite h off len src => Sys2Proof.Machine.execFwStageWrite h off len src s
  | .fwStageCommit h => Sys2Proof.Machine.execFwStageCommit h s
  | .fwStageCancel h => Sys2Proof.Machine.execFwStageCancel h s
  | .fwStageActivate h => Sys2Proof.Machine.execFwStageActivate h s
  | .fwStageRatify h => Sys2Proof.Machine.execFwStageRatify h s
  | .ownerEnroll h len src => Sys2Proof.Machine.execOwnerEnroll h len src s
  | .pldmRequestUpdate => Sys2Proof.Machine.execPldmRequestUpdate s
  | .pldmImageTransfer off data => Sys2Proof.Machine.execPldmImageTransfer off data s
  | .pldmVerifyComplete => Sys2Proof.Machine.execPldmVerifyComplete s
  | .pldmActivateFirmware => Sys2Proof.Machine.execPldmActivateFirmware s
  | .pldmCancelUpdate => Sys2Proof.Machine.execPldmCancelUpdate s
  | .pldmGetFirmwareParameters => Sys2Proof.Machine.execPldmGetFirmwareParameters s
  | .pollForPlatformEventMessage => Sys2Proof.Machine.execPollForPlatformEventMessage s
  | .jtagAttach => Sys2Proof.Machine.execJtagAttach s
  | .watchdogExpiry fb => Sys2Proof.Machine.execWatchdogExpiry fb s
  | .reeveRestartDone fb => Sys2Proof.Machine.execReeveRestartDone fb s
  | .warmStartRequest key => Sys2Proof.Machine.execWarmStartRequest key s
  | .coldStartRequest key => Sys2Proof.Machine.execColdStartRequest key s
  | .startStepEnd us r => Sys2Proof.Machine.execStartStepEnd us r s
  | .startStepTimeout us => Sys2Proof.Machine.execStartStepTimeout us s
  | .scRelease sc => Sys2Proof.Machine.execScRelease sc s
  | .bootDescriptorFetch n ecc imgEcc => Sys2Proof.Machine.execBootDescriptorFetch n ecc imgEcc s
  | .coreReadyTimeout n => Sys2Proof.Machine.execCoreReadyTimeout n s
  | .monitorFaultReset n => Sys2Proof.Machine.execMonitorFaultReset n s
  | .issueCycle n => Sys2Proof.Machine.execIssueCycle n s
  | .asyncOperationComplete n id data => Sys2Proof.Machine.execAsyncOperationComplete n id data s
  | .tensorQueueDispatch n readout => Sys2Proof.Machine.execTensorQueueDispatch n readout s
  | .nopInstr n t pr => Sys2Proof.Machine.execNopInstr n t pr s
  | .add n t pr d a b => Sys2Proof.Machine.execAdd n t pr d a b s
  | .sub n t pr d a b => Sys2Proof.Machine.execSub n t pr d a b s
  | .addi n t pr d a imm => Sys2Proof.Machine.execAddi n t pr d a imm s
  | .mul n t pr d a b => Sys2Proof.Machine.execMul n t pr d a b s
  | .mulhu n t pr d a b => Sys2Proof.Machine.execMulhu n t pr d a b s
  | .mulhs n t pr d a b => Sys2Proof.Machine.execMulhs n t pr d a b s
  | .and n t pr d a b => Sys2Proof.Machine.execAnd n t pr d a b s
  | .or n t pr d a b => Sys2Proof.Machine.execOr n t pr d a b s
  | .xor n t pr d a b => Sys2Proof.Machine.execXor n t pr d a b s
  | .shl n t pr d a b => Sys2Proof.Machine.execShl n t pr d a b s
  | .shr n t pr d a b => Sys2Proof.Machine.execShr n t pr d a b s
  | .sar n t pr d a b => Sys2Proof.Machine.execSar n t pr d a b s
  | .li n t pr d imm => Sys2Proof.Machine.execLi n t pr d imm s
  | .lih n t pr d imm => Sys2Proof.Machine.execLih n t pr d imm s
  | .cmpeq n t pr d a b => Sys2Proof.Machine.execCmpeq n t pr d a b s
  | .cmplt n t pr d a b => Sys2Proof.Machine.execCmplt n t pr d a b s
  | .cmpltu n t pr d a b => Sys2Proof.Machine.execCmpltu n t pr d a b s
  | .pand n t pr d a b => Sys2Proof.Machine.execPand n t pr d a b s
  | .por n t pr d a b => Sys2Proof.Machine.execPor n t pr d a b s
  | .pnot n t pr d a => Sys2Proof.Machine.execPnot n t pr d a s
  | .br n t pr imm => Sys2Proof.Machine.execBr n t pr imm s
  | .brl n t pr d imm => Sys2Proof.Machine.execBrl n t pr d imm s
  | .jr n t pr a => Sys2Proof.Machine.execJr n t pr a s
  | .rdflg n t pr d => Sys2Proof.Machine.execRdflg n t pr d s
  | .clrflg n t pr x => Sys2Proof.Machine.execClrflg n t pr x s
  | .rdid n t pr d => Sys2Proof.Machine.execRdid n t pr d s
  | .rdmer n t pr d => Sys2Proof.Machine.execRdmer n t pr d s
  | .vaddf n t pr d a b => Sys2Proof.Machine.execVaddf n t pr d a b s
  | .vsubf n t pr d a b => Sys2Proof.Machine.execVsubf n t pr d a b s
  | .vmulf n t pr d a b => Sys2Proof.Machine.execVmulf n t pr d a b s
  | .vfma n t pr d a b c => Sys2Proof.Machine.execVfma n t pr d a b c s
  | .vmaxf n t pr d a b => Sys2Proof.Machine.execVmaxf n t pr d a b s
  | .vminf n t pr d a b => Sys2Proof.Machine.execVminf n t pr d a b s
  | .vaddi n t pr d a b => Sys2Proof.Machine.execVaddi n t pr d a b s
  | .vsubi n t pr d a b => Sys2Proof.Machine.execVsubi n t pr d a b s
  | .vmuli n t pr d a b => Sys2Proof.Machine.execVmuli n t pr d a b s
  | .vand n t pr d a b => Sys2Proof.Machine.execVand n t pr d a b s
  | .vor n t pr d a b => Sys2Proof.Machine.execVor n t pr d a b s
  | .vxor n t pr d a b => Sys2Proof.Machine.execVxor n t pr d a b s
  | .vshl n t pr d a b => Sys2Proof.Machine.execVshl n t pr d a b s
  | .vshr n t pr d a b => Sys2Proof.Machine.execVshr n t pr d a b s
  | .vsar n t pr d a b => Sys2Proof.Machine.execVsar n t pr d a b s
  | .vcmp n t pr d a b cmp fp => Sys2Proof.Machine.execVcmp n t pr d a b cmp fp s
  | .vsel n t pr d a b c => Sys2Proof.Machine.execVsel n t pr d a b c s
  | .vbcast n t pr d a => Sys2Proof.Machine.execVbcast n t pr d a s
  | .vext n t pr d a lane => Sys2Proof.Machine.execVext n t pr d a lane s
  | .vperm n t pr d a b => Sys2Proof.Machine.execVperm n t pr d a b s
  | .vsumf n t pr d a => Sys2Proof.Machine.execVsumf n t pr d a s
  | .vcvt n t pr d a o => Sys2Proof.Machine.execVcvt n t pr d a o s
  | .vqmx n t pr d a o => Sys2Proof.Machine.execVqmx n t pr d a o s
  | .vq4 n t pr d a o => Sys2Proof.Machine.execVq4 n t pr d a o s
  | .tmma n t pr tile fa fb a b sc c => Sys2Proof.Machine.execTmma n t pr tile fa fb a b sc c s
  | .tzero n t pr tile exact anchor => Sys2Proof.Machine.execTzero n t pr tile exact anchor s
  | .trd n t pr tile o d x c => Sys2Proof.Machine.execTrd n t pr tile o d x c s
  | .tlda n t pr tile fmt d c => Sys2Proof.Machine.execTlda n t pr tile fmt d c s
  | .trel n t pr tile => Sys2Proof.Machine.execTrel n t pr tile s
  | .tsave n t pr tile a c => Sys2Proof.Machine.execTsave n t pr tile a c s
  | .tload n t pr tile a c => Sys2Proof.Machine.execTload n t pr tile a c s
  | .lds n t pr d a size => Sys2Proof.Machine.execLds n t pr d a size s
  | .sts n t pr a b size => Sys2Proof.Machine.execSts n t pr a b size s
  | .ldv n t pr d a => Sys2Proof.Machine.execLdv n t pr d a s
  | .stv n t pr a b => Sys2Proof.Machine.execStv n t pr a b s
  | .ldg n t pr d a size => Sys2Proof.Machine.execLdg n t pr d a size s
  | .stg n t pr a b size vis => Sys2Proof.Machine.execStg n t pr a b size vis s
  | .cpin n t pr a b c k => Sys2Proof.Machine.execCpin n t pr a b c k s
  | .cpout n t pr a b c k vis => Sys2Proof.Machine.execCpout n t pr a b c k vis s
  | .cpin2 n t pr d a b c k => Sys2Proof.Machine.execCpin2 n t pr d a b c k s
  | .cpout2 n t pr d a b c k vis => Sys2Proof.Machine.execCpout2 n t pr d a b c k vis s
  | .ldqb n t pr d a b c k => Sys2Proof.Machine.execLdqb n t pr d a b c k s
  | .atom n t pr d a b c op vis => Sys2Proof.Machine.execAtom n t pr d a b c op vis s
  | .pref n t pr a => Sys2Proof.Machine.execPref n t pr a s
  | .twait n t pr c imm => Sys2Proof.Machine.execTwait n t pr c imm s
  | .twaitr n t pr c a => Sys2Proof.Machine.execTwaitr n t pr c a s
  | .tset n t pr c a => Sys2Proof.Machine.execTset n t pr c a s
  | .tget n t pr d c => Sys2Proof.Machine.execTget n t pr d c s
  | .bar n t pr mask => Sys2Proof.Machine.execBar n t pr mask s
  | .bell n t pr a b k => Sys2Proof.Machine.execBell n t pr a b k s
  | .fence n t pr vis => Sys2Proof.Machine.execFence n t pr vis s
  | .waitg n t pr a b cmp => Sys2Proof.Machine.execWaitg n t pr a b cmp s
  | .waitgPollRead n t hostVal => Sys2Proof.Machine.execWaitgPollRead n t hostVal s
  | .yield n t pr => Sys2Proof.Machine.execYield n t pr s
  | .exit n t pr => Sys2Proof.Machine.execExit n t pr s
  | .ecall n t pr code => Sys2Proof.Machine.execEcall n t pr code s
  | .rput n t pr a b c k vis => Sys2Proof.Machine.execRput n t pr a b c k vis s
  | .rget n t pr a b c k vis => Sys2Proof.Machine.execRget n t pr a b c k vis s
  | .ratom n t pr a b c op k vis => Sys2Proof.Machine.execRatom n t pr a b c op k vis s
  | .mred n t pr a b c k => Sys2Proof.Machine.execMred n t pr a b c k s
  | .xsend n t pr a b c k => Sys2Proof.Machine.execXsend n t pr a b c k s
  | .xrecv n t pr a b c => Sys2Proof.Machine.execXrecv n t pr a b c s
  | .thctlStart n t pr a b c => Sys2Proof.Machine.execThctlStart n t pr a b c s
  | .thctlHold n t pr a => Sys2Proof.Machine.execThctlHold n t pr a s
  | .thctlResume n t pr a => Sys2Proof.Machine.execThctlResume n t pr a s
  | .thctlStop n t pr a => Sys2Proof.Machine.execThctlStop n t pr a s
  | .thrd n t pr d a b reg => Sys2Proof.Machine.execThrd n t pr d a b reg s
  | .thwr n t pr a b reg => Sys2Proof.Machine.execThwr n t pr a b reg s
  | .csrr n t pr d csr => Sys2Proof.Machine.execCsrr n t pr d csr s
  | .csrw n t pr a csr => Sys2Proof.Machine.execCsrw n t pr a csr s
  | .ifetch n t pr a b c k => Sys2Proof.Machine.execIfetch n t pr a b c k s
  | .waitev n t pr d => Sys2Proof.Machine.execWaitev n t pr d s
  | .fabricFrameReceive l fseq ack nak fecOk crcOk => Sys2Proof.Machine.execFabricFrameReceive l fseq ack nak fecOk crcOk s
  | .linkControlPacket l cls credits => Sys2Proof.Machine.execLinkControlPacket l cls credits s
  | .linkEnable l => Sys2Proof.Machine.execLinkEnable l s
  | .linkDisable l => Sys2Proof.Machine.execLinkDisable l s
  | .maxWidthWrite l w => Sys2Proof.Machine.execMaxWidthWrite l w s
  | .detectPulse l => Sys2Proof.Machine.execDetectPulse l s
  | .partnerPulsesSeen l => Sys2Proof.Machine.execPartnerPulsesSeen l s
  | .trainingExchange l x => Sys2Proof.Machine.execTrainingExchange l x s
  | .lightLoss l => Sys2Proof.Machine.execLightLoss l s
  | .retrainTimeout l => Sys2Proof.Machine.execRetrainTimeout l s
  | .downBackoffEnd l => Sys2Proof.Machine.execDownBackoffEnd l s
  | .laserInputLoss q input => Sys2Proof.Machine.execLaserInputLoss q input s
  | .ucieModuleDown q m => Sys2Proof.Machine.execUcieModuleDown q m s
  | .lanternCapabilityRecord q record => Sys2Proof.Machine.execLanternCapabilityRecord q record s
  | .fabricRequestArrival l p => Sys2Proof.Machine.execFabricRequestArrival l p s
  | .fabricResponseArrival l p => Sys2Proof.Machine.execFabricResponseArrival l p s
  | .fabricErrorPacket l p => Sys2Proof.Machine.execFabricErrorPacket l p s
  | .fabricForward l p => Sys2Proof.Machine.execFabricForward l p s
  | .routeWaitTimeout id => Sys2Proof.Machine.execRouteWaitTimeout id s
  | .e2eTimeout port tag => Sys2Proof.Machine.execE2eTimeout port tag s
  | .collectiveChunkArrival l p => Sys2Proof.Machine.execCollectiveChunkArrival l p s
  | .collectiveChunkAck l p => Sys2Proof.Machine.execCollectiveChunkAck l p s
  | .collectiveChunkNack l p => Sys2Proof.Machine.execCollectiveChunkNack l p s
  | .chunkResendTimer group seq chunk dst => Sys2Proof.Machine.execChunkResendTimer group seq chunk dst s
  | .collectiveTimeout group => Sys2Proof.Machine.execCollectiveTimeout group s
  | .fabricBellArrival l p => Sys2Proof.Machine.execFabricBellArrival l p s
  | .fabricReleaseArrival l p => Sys2Proof.Machine.execFabricReleaseArrival l p s
  | .rawPacketArrival l p => Sys2Proof.Machine.execRawPacketArrival l p s
  | .meridianExchangeSend => Sys2Proof.Machine.execMeridianExchangeSend s
  | .meridianExchangeReceive t1 t2 t3 t4 => Sys2Proof.Machine.execMeridianExchangeReceive t1 t2 t3 t4 s
  | .fabIdWrite v => Sys2Proof.Machine.execFabIdWrite v s
  | .fabRouteWrite m v => Sys2Proof.Machine.execFabRouteWrite m v s
  | .fabCollWrite g w v => Sys2Proof.Machine.execFabCollWrite g w v s
  | .eventRaise e => Sys2Proof.Machine.execEventRaise e s
  | .stampReport fb stamp => Sys2Proof.Machine.execStampReport fb stamp s
  | .eventQueueRelease => Sys2Proof.Machine.execEventQueueRelease s
  | .eventRingWrite => Sys2Proof.Machine.execEventRingWrite s
  | .eventRingEnable v => Sys2Proof.Machine.execEventRingEnable v s
  | .eventRingDisable => Sys2Proof.Machine.execEventRingDisable s
  | .eventRingHeadWrite v => Sys2Proof.Machine.execEventRingHeadWrite v s
  | .registerWrite off size v boot pcie => Sys2Proof.Machine.execRegisterWrite off size v boot pcie s
  | .laserInputHasLight q input => Sys2Proof.Machine.execLaserInputHasLight q input s

end Sys2Proof.Machine
end

