-- ==== Sys2Proof/Safety.lean ====
section
/-! DEFINITION. What claims say of a command's run: that it completes and with which state, what it leaves alone, and
the invariant of the memories. -/

namespace Sys2Proof.Machine

/-! ### Completion -/

/-- A command completes: its meaning answers a next state of which `p` holds. -/
def Gives (i : Instr) (s : State) (p : State → Prop) : Prop := ∃ t, exec i s = .next t ∧ p t

/-! ### What one core's instruction may change -/

/-- Nothing but thread `t` of core `n` differs. -/
structure OnlyThread (s s' : State) (n t : Nat) : Prop where
  rest : { s' with cores := s.cores } = s
  cores : ∀ m, m ≠ n → s'.core m = s.core m
  core : { s'.core n with thr := (s.core n).thr } = s.core n
  threads : ∀ u, u ≠ t → s'.thr n u = s.thr n u

/-- Nothing outside core `n` differs. -/
structure OnlyCore (s s' : State) (n : Nat) : Prop where
  rest : { s' with cores := s.cores } = s
  cores : ∀ m, m ≠ n → s'.core m = s.core m

/-- The thread has gone on to its next instruction, unless the monitor asked to hold it (R83, R104). -/
structure Retired (x x' : Thread) : Prop where
  pc : x'.pc = x.pc + 8
  st : x'.st = if x.holdReq then .held else .ready
  wait : x'.wait = .nothing

/-- The registers of a thread are as before. -/
structure SameRegs (x x' : Thread) : Prop where
  s : ∀ j, x'.rs j = x.rs j
  v : ∀ j, x'.rv j = x.rv j
  p : ∀ j, x'.rp j = x.rp j
  c : ∀ j, x'.rc j = x.rc j
  flg : x'.flg = x.flg

/-- Scalar register `d` holds `v`, and every other register is as before. -/
structure ScalarSet (x x' : Thread) (d : Nat) (v : Word) : Prop where
  dest : x'.rs d = v
  s : ∀ j, j % 64 ≠ d % 64 → x'.rs j = x.rs j
  v : ∀ j, x'.rv j = x.rv j
  p : ∀ j, x'.rp j = x.rp j
  c : ∀ j, x'.rc j = x.rc j
  flg : x'.flg = x.flg

/-- Predicate register `d` holds `v`, p0 reading as all ones whatever is written to it (R81), and every other register
is as before. -/
structure PredSet (x x' : Thread) (d : Nat) (v : Word) : Prop where
  dest : x'.rp d = if d % 8 = 0 then BitVec.allOnes 64 else v
  p : ∀ j, j % 8 ≠ d % 8 → x'.rp j = x.rp j
  s : ∀ j, x'.rs j = x.rs j
  v : ∀ j, x'.rv j = x.rv j
  c : ∀ j, x'.rc j = x.rc j
  flg : x'.flg = x.flg

/-- Vector register `d` holds `v`, FLG has `f` added, and every other register is as before. -/
structure VectorSet (x x' : Thread) (d : Nat) (v : VReg) (f : Flg) : Prop where
  dest : x'.rv d = v
  v : ∀ j, j % 16 ≠ d % 16 → x'.rv j = x.rv j
  s : ∀ j, x'.rs j = x.rs j
  p : ∀ j, x'.rp j = x.rp j
  c : ∀ j, x'.rc j = x.rc j
  flg : x'.flg = x.flg ||| f

/-- Every lane of vector register `d` that mask `m` enables holds its value of `f`, the others are as before; FLG
gains the flags of the enabled lanes (R92); every other register is as before. -/
structure VectorLanes (x x' : Thread) (d : Nat) (m : Word) (f : Nat → Nat × Flg) : Prop where
  dest : ∀ i, i < 64 → lane (x'.rv d) i = if laneOn m i then (f i).1 % 2 ^ 32 else lane (x.rv d) i
  v : ∀ j, j % 16 ≠ d % 16 → x'.rv j = x.rv j
  s : ∀ j, x'.rs j = x.rs j
  p : ∀ j, x'.rp j = x.rp j
  c : ∀ j, x'.rc j = x.rc j
  flg : ∀ k, x'.flg.getLsbD k = true ↔
    x.flg.getLsbD k = true ∨ ∃ i, i < 64 ∧ laneOn m i = true ∧ (f i).2.getLsbD k = true

/-- Only the tally counter, FLG or predicate that an instruction names may differ: every scalar and vector register is
as before. -/
structure SameSV (x x' : Thread) : Prop where
  s : ∀ j, x'.rs j = x.rs j
  v : ∀ j, x'.rv j = x.rv j

/-- Every byte of device memory, of scratch and of host memory that the module wrote reads as before, in the arrays and
in the cache. -/
structure SameMemory (s s' : State) : Prop where
  mem : ∀ a, Memory.read s'.mem a = Memory.read s.mem a
  gmem : ∀ a, Memory.read s'.gmem a = Memory.read s.gmem a
  hostMem : ∀ a, Memory.read s'.hostMem a = Memory.read s.hostMem a

/-! ### The predicate of an instruction (R92) -/

/-- Core, thread and predicate register of a core instruction outside the vector group, VEXT among them. -/
def predOf : Instr → Option (Nat × Nat × Nat)
  | .nopInstr n t pr => some (n, t, pr)
  | .add n t pr _ _ _ => some (n, t, pr)
  | .sub n t pr _ _ _ => some (n, t, pr)
  | .addi n t pr _ _ _ => some (n, t, pr)
  | .mul n t pr _ _ _ => some (n, t, pr)
  | .mulhu n t pr _ _ _ => some (n, t, pr)
  | .mulhs n t pr _ _ _ => some (n, t, pr)
  | .and n t pr _ _ _ => some (n, t, pr)
  | .or n t pr _ _ _ => some (n, t, pr)
  | .xor n t pr _ _ _ => some (n, t, pr)
  | .shl n t pr _ _ _ => some (n, t, pr)
  | .shr n t pr _ _ _ => some (n, t, pr)
  | .sar n t pr _ _ _ => some (n, t, pr)
  | .li n t pr _ _ => some (n, t, pr)
  | .lih n t pr _ _ => some (n, t, pr)
  | .cmpeq n t pr _ _ _ => some (n, t, pr)
  | .cmplt n t pr _ _ _ => some (n, t, pr)
  | .cmpltu n t pr _ _ _ => some (n, t, pr)
  | .pand n t pr _ _ _ => some (n, t, pr)
  | .por n t pr _ _ _ => some (n, t, pr)
  | .pnot n t pr _ _ => some (n, t, pr)
  | .br n t pr _ => some (n, t, pr)
  | .brl n t pr _ _ => some (n, t, pr)
  | .jr n t pr _ => some (n, t, pr)
  | .rdflg n t pr _ => some (n, t, pr)
  | .clrflg n t pr _ => some (n, t, pr)
  | .rdid n t pr _ => some (n, t, pr)
  | .rdmer n t pr _ => some (n, t, pr)
  | .vext n t pr _ _ _ => some (n, t, pr)
  | .tmma n t pr _ _ _ _ _ _ _ => some (n, t, pr)
  | .tzero n t pr _ _ _ => some (n, t, pr)
  | .trd n t pr _ _ _ _ _ => some (n, t, pr)
  | .tlda n t pr _ _ _ _ => some (n, t, pr)
  | .trel n t pr _ => some (n, t, pr)
  | .tsave n t pr _ _ _ => some (n, t, pr)
  | .tload n t pr _ _ _ => some (n, t, pr)
  | .lds n t pr _ _ _ => some (n, t, pr)
  | .sts n t pr _ _ _ => some (n, t, pr)
  | .ldv n t pr _ _ => some (n, t, pr)
  | .stv n t pr _ _ => some (n, t, pr)
  | .ldg n t pr _ _ _ => some (n, t, pr)
  | .stg n t pr _ _ _ _ => some (n, t, pr)
  | .cpin n t pr _ _ _ _ => some (n, t, pr)
  | .cpout n t pr _ _ _ _ _ => some (n, t, pr)
  | .cpin2 n t pr _ _ _ _ _ => some (n, t, pr)
  | .cpout2 n t pr _ _ _ _ _ _ => some (n, t, pr)
  | .ldqb n t pr _ _ _ _ _ => some (n, t, pr)
  | .atom n t pr _ _ _ _ _ _ => some (n, t, pr)
  | .pref n t pr _ => some (n, t, pr)
  | .twait n t pr _ _ => some (n, t, pr)
  | .twaitr n t pr _ _ => some (n, t, pr)
  | .tset n t pr _ _ => some (n, t, pr)
  | .tget n t pr _ _ => some (n, t, pr)
  | .bar n t pr _ => some (n, t, pr)
  | .bell n t pr _ _ _ => some (n, t, pr)
  | .fence n t pr _ => some (n, t, pr)
  | .waitg n t pr _ _ _ => some (n, t, pr)
  | .yield n t pr => some (n, t, pr)
  | .exit n t pr => some (n, t, pr)
  | .ecall n t pr _ => some (n, t, pr)
  | .rput n t pr _ _ _ _ _ => some (n, t, pr)
  | .rget n t pr _ _ _ _ _ => some (n, t, pr)
  | .ratom n t pr _ _ _ _ _ _ => some (n, t, pr)
  | .mred n t pr _ _ _ _ => some (n, t, pr)
  | .xsend n t pr _ _ _ _ => some (n, t, pr)
  | .xrecv n t pr _ _ _ => some (n, t, pr)
  | .thctlStart n t pr _ _ _ => some (n, t, pr)
  | .thctlHold n t pr _ => some (n, t, pr)
  | .thctlResume n t pr _ => some (n, t, pr)
  | .thctlStop n t pr _ => some (n, t, pr)
  | .thrd n t pr _ _ _ _ => some (n, t, pr)
  | .thwr n t pr _ _ _ => some (n, t, pr)
  | .csrr n t pr _ _ => some (n, t, pr)
  | .csrw n t pr _ _ => some (n, t, pr)
  | .ifetch n t pr _ _ _ _ => some (n, t, pr)
  | .waitev n t pr _ => some (n, t, pr)
  | _ => none

/-- Core, thread and predicate register of a vector-group instruction other than VEXT. -/
def vectorOf : Instr → Option (Nat × Nat × Nat)
  | .vaddf n t pr _ _ _ => some (n, t, pr)
  | .vsubf n t pr _ _ _ => some (n, t, pr)
  | .vmulf n t pr _ _ _ => some (n, t, pr)
  | .vfma n t pr _ _ _ _ => some (n, t, pr)
  | .vmaxf n t pr _ _ _ => some (n, t, pr)
  | .vminf n t pr _ _ _ => some (n, t, pr)
  | .vaddi n t pr _ _ _ => some (n, t, pr)
  | .vsubi n t pr _ _ _ => some (n, t, pr)
  | .vmuli n t pr _ _ _ => some (n, t, pr)
  | .vand n t pr _ _ _ => some (n, t, pr)
  | .vor n t pr _ _ _ => some (n, t, pr)
  | .vxor n t pr _ _ _ => some (n, t, pr)
  | .vshl n t pr _ _ _ => some (n, t, pr)
  | .vshr n t pr _ _ _ => some (n, t, pr)
  | .vsar n t pr _ _ _ => some (n, t, pr)
  | .vcmp n t pr _ _ _ _ _ => some (n, t, pr)
  | .vsel n t pr _ _ _ _ => some (n, t, pr)
  | .vbcast n t pr _ _ => some (n, t, pr)
  | .vperm n t pr _ _ _ => some (n, t, pr)
  | .vsumf n t pr _ _ => some (n, t, pr)
  | .vcvt n t pr _ _ _ => some (n, t, pr)
  | .vqmx n t pr _ _ _ => some (n, t, pr)
  | .vq4 n t pr _ _ _ => some (n, t, pr)
  | _ => none

/-! ### When an instruction runs -/

/-- A vector instruction of thread `t` of core `n` runs: the thread is READY, no deferred fault waits for its next
boundary (R106), and the next instruction lies in its range (R83). -/
structure MayIssueV (s : State) (n t : Nat) : Prop where
  ready : (s.thr n t).st = .ready
  noDeferred : (s.thr n t).dfr = none
  next : pcOk t ((s.thr n t).pc.toNat + 8) = true

/-- Any other instruction runs: bit 0 of its predicate register is 1 as well (R92). -/
structure MayIssue (s : State) (n t pr : Nat) : Prop extends MayIssueV s n t where
  predicate : ((s.thr n t).rp pr).getLsbD 0 = true

/-- An instruction of thread `t` of core `n` retires with `p` of the thread before and after, and changes nothing
else. -/
def ThreadGives (s : State) (n t : Nat) (i : Instr) (p : Thread → Thread → Prop) : Prop :=
  Gives i s fun s' => OnlyThread s s' n t ∧ Retired (s.thr n t) (s'.thr n t) ∧ p (s.thr n t) (s'.thr n t)

/-- What the issue of an asynchronous operation of kind `kind` on counter `k` does (R89, R91): the thread goes on, its
registers unchanged, the operation is the newest of the core, and the queues of the tensor unit and the tiles are `tq`,
`rq` and `tiles`. -/
structure Issued (s s' : State) (n t k : Nat) (kind : AKind) (tq rq : List Nat) (tiles : Tbl Tile) : Prop where
  rest : { s' with cores := s.cores } = s
  cores : ∀ m, m ≠ n → s'.core m = s.core m
  threads : ∀ u, u ≠ t → s'.thr n u = s.thr n u
  retired : Retired (s.thr n t) (s'.thr n t)
  regs : SameRegs (s.thr n t) (s'.thr n t)
  op : (s'.core n).aops =
    (s.core n).aops ++ [⟨(s.core n).nextId, t, (s.thr n t).pc.toNat, k, kind, 0, 0, [], []⟩]
  core : s'.core n =
    { s.core n with
      thr := (s'.core n).thr, aops := (s'.core n).aops, nextId := (s.core n).nextId + 1, tq := tq, rq := rq,
      tiles := tiles }

/-- An agent has no access under way: none that its home or its link holds, and no read of host memory. -/
structure Fresh (s : State) (a : Agent) : Prop where
  held : ∀ h ∈ s.xlt.atHome, h.agent ≠ a
  reads : readsOf s a = []

/-- An instruction issues an operation that does not enter the tensor unit. -/
def Issues (s : State) (n t : Nat) (i : Instr) (k : Nat) (kind : AKind) : Prop :=
  Gives i s fun s' => Issued s s' n t k kind (s.core n).tq (s.core n).rq (s.core n).tiles

/-- A slot for one more operation of the thread and the core (R91). -/
def SlotFree (s : State) (n t : Nat) : Prop := opsOf (s.core n) t < 16 ∧ opsAll (s.core n) < 128

/-- None of a list of issue-time checks fails. -/
def Clear (cs : List Check) : Prop := ∀ c ∈ cs, c.1 = false

/-- What an access to local store of one core may change: the store and its check bits, and the thread. -/
structure OnlyStore (s s' : State) (n t : Nat) : Prop where
  rest : { s' with cores := s.cores } = s
  cores : ∀ m, m ≠ n → s'.core m = s.core m
  core : s'.core n = { s.core n with thr := (s'.core n).thr, ls := (s'.core n).ls, lsBad := (s'.core n).lsBad }
  threads : ∀ u, u ≠ t → s'.thr n u = s.thr n u
  bad : ∀ w, tget false (s'.core n).lsBad w = tget false (s.core n).lsBad w

/-- A range of a core's local store lies inside it, outside the monitor's region for a kernel thread, and holds no
uncorrectable word. -/
structure GoodRange (s : State) (n t a len : Nat) : Prop where
  inside : a + len ≤ lsTop
  allowed : inMon t a len = false
  good : badWord (s.core n).lsBad a len = none

/-- The byte of device memory that an access finds: of the dirty copy of a resident line, of a write-back that waits, or of
the array (R116, R149). -/
def view (s : State) (a : Nat) : Byte :=
  let waiting : Byte := match s.dram.writeBacks.reverse.find? fun e => e.1 = a / 256 with
    | some e => e.2.getD (a % 256) 0
    | none => Memory.read s.mem a
  match s.cline (a / 256) with
  | some c => if c.dirty then Memory.read s.gmem a else waiting
  | none => waiting

/-! ### Commands of rings -/

/-- A ring's command of an opcode, a header and parameter fields starts in `s`, leaving `s1`: its Reeve runs if firmware
executes it, its turn has come (R241), and its context is not STOPPED, or the opcode is privileged (R202). -/
def Starts (s s1 : State) (op : Nat) (h : Hdr) (fs : List (Nat × Nat × Nat)) : Prop :=
  (isFw op && reeveDown s (h.ring / 16)) = false ∧ beginCmd s h op fs = some s1 ∧
  ((s1.ctx h.ctx).state = 3 → isPriv op = true)

/-- A ring's command may start, and its context is not STOPPED unless the opcode is privileged. -/
def Startable (s : State) (op : Nat) (h : Hdr) (fs : List (Nat × Nat × Nat)) : Prop := ∃ s1, Starts s s1 op h fs

/-- A command is in flight no longer. -/
def Ended (t : State) (h : Hdr) : Prop := t.cmd? h.ring h.seq = none

/-- A command has completed with a status and an address: it is in flight no longer, its record is the newest of its
completion ring where its header or its status asks for one (R243, R252), and the other commands and rings are as
before. -/
structure Completed (s t : State) (h : Hdr) (op status d64 : Nat) : Prop where
  ended : Ended t h
  others : ∀ r q, r ≠ h.ring ∨ q ≠ h.seq → t.cmd? r q = s.cmd? r q
  record : tget [] t.host.held (s.ring h.ring).cq = tget [] s.host.held (s.ring h.ring).cq ++
    (if h.compl ≠ 0 ∨ status ≠ stDONE then
      [⟨h.ring, op, h.seq, status, 0, 0, d64, h.tag, decide (h.compl ≠ 1)⟩] else [])
  held : ∀ q, q ≠ (s.ring h.ring).cq → tget [] t.host.held q = tget [] s.host.held q

/-- A command completes with `status`, and of the host attachment changes nothing but commands in flight and records. -/
def CmdGives (s : State) (i : Instr) (h : Hdr) (op status : Nat) (p : State → Prop) : Prop :=
  Gives i s fun t =>
    Completed s t h op status 0 ∧
    { t.host with inflight := s.host.inflight, held := s.host.held, parked := s.host.parked } = s.host ∧ p t

/-- Only the host attachment differs. -/
def OnlyHost (s t : State) : Prop := { t with host := s.host } = s

/-- Only the host attachment and the translation system differ. -/
def OnlyXlt (s t : State) : Prop := { t with host := s.host, xlt := s.xlt } = s

/-! ### Accesses held at their homes -/

/-- Nothing waits at a home for a sweep, a repair or a retrain to end: no write-back, no access of a core, a command, a
Carter's descriptor, a deposit, another module or the host (R122, R142, R149). -/
structure NothingHeld (s : State) : Prop where
  backs : s.dram.writeBacks = []
  outside : s.dram.parked = []
  threads : waitingThreads s = []
  commands : s.host.parked = []
  carters : ∀ k, (tget {} s.car.slots k : CarSlot).job = none
  deposits : ∀ g, (s.group g).depWait = none

/-- Device memory holds what it held: every byte whose line is not LOST reads as before. -/
def SameBytes (s t : State) : Prop := ∀ b, isDev b = true → t.lost (b / 256) = false → view t b = view s b

/-- Every resident line is a line of device memory. -/
def LinesOfMemory (s : State) : Prop := ∀ e ∈ s.dram.lines, isDev (256 * e.1) = true

/-! ### The memories -/

/-- The memories of the module outside its cores are in canonical form. -/
structure MemoriesWf (s : State) : Prop where
  mem : Memory.wf s.mem
  gmem : Memory.wf s.gmem
  hostMem : Memory.wf s.hostMem
  windows : Memory.wf s.host.windows

end Sys2Proof.Machine
end

