-- ==== Sys2Proof/Certificates/Slice0/Obligations.lean ====
section
/-! DEFINITION. The statements, chapter by chapter.  A statement of several clauses names several commands of one family;
each clause's conclusion is that `exec` (or `step`) answers the state that the rules give, for every state and operands
that meet the hypotheses written before it. -/

open Sys2Proof Sys2Proof.Machine

/-! ### The step and reset -/

/-- A step takes the command at the front of the queue and runs it with the queue's rest; a command whose operands
name what the hardware does not have leaves the queue and does nothing else; an empty queue idles (DESIGN CHOICE, log
entry 40). -/
def Obligations.StepRunsTheFrontCommand : Prop :=
  ∀ (c : Sys2Proof.Instr) (rest : List Sys2Proof.Instr) (s : State),
    step { s with pending := c :: rest } =
      (if c.wf then exec c { s with pending := rest } else .next { s with pending := rest }) ∧
    step { s with pending := [] } = .next { s with pending := [] }

/-- After reset the module is unstarted: no input, nothing running, every core held in reset, every thread OFF, every
link down, every context FREE, every ring disabled, the queues empty. Where the spec gives a field no reset value the
one here is the model's choice (DESIGN CHOICE, log entry 67). The memories are in canonical form after reset. -/
def Obligations.ResetState : Prop :=
  (let s := State.reset
   s.boot.phase = 0 ∧ s.pwr.input = false ∧ s.lock = false ∧ s.pending = [] ∧ s.evt.queue = [] ∧
   (∀ n, (s.core n).reset = true ∧ ∀ t, (s.thr n t).st = .off) ∧
   (∀ l, (s.link l).up = false ∧ (s.link l).busMaster = false) ∧
   (∀ c, (s.ctx c).state = 0) ∧ (∀ r, (s.ring r).enable = false ∧ (s.ring r).nextSeq = 0) ∧
   (∀ q, (s.cq q).enable = false) ∧ (∀ g, (s.group g).state = 0) ∧ (∀ q, s.iso q = false) ∧
   (∀ k, (s.stack k).state = 0) ∧ (∀ f, (s.grn f).state = 0) ∧ s.fab.idValid = false ∧ s.fab.e2eTimeout = 1000 ∧
   (∀ l, (s.flink l).st = 0) ∧ s.pwr.ceilingW = 3600 ∧ s.pwr.capW = 3600 ∧ s.sec.stage = 0) ∧
  (MemoriesWf State.reset)

/-- Every step keeps the memories in canonical form. -/
def Obligations.MemoriesWfKept : Prop :=
  ∀ s s' : State, MemoriesWf s → step s = .next s' → MemoriesWf s'

/-! ### Cores: scalar group -/

/-- Scalar results: the destination register holds the value of chapter 04's table, the program counter goes on by 8,
and nothing else changes. RDMER reads the Meridian of the core's own FB: within one FB reads never decrease, and only
the record of the latest reading and the free-value counter change besides the thread. -/
def Obligations.ScalarResults : Prop :=
  (∀ (n t pr d a b : Nat) (s : State), MayIssue s n t pr →
     let x := s.thr n t
     let gives (i : Sys2Proof.Instr) (v : Word) : Prop := ThreadGives s n t i fun x x' => ScalarSet x x' d v
     gives (.add n t pr d a b) (x.rs a + x.rs b) ∧
     gives (.sub n t pr d a b) (x.rs a - x.rs b) ∧
     gives (.mul n t pr d a b) (x.rs a * x.rs b) ∧
     gives (.mulhu n t pr d a b) (BitVec.ofNat 64 ((x.rs a).toNat * (x.rs b).toNat / 2 ^ 64)) ∧
     gives (.mulhs n t pr d a b) (BitVec.ofInt 64 ((x.rs a).toInt * (x.rs b).toInt / 2 ^ 64)) ∧
     gives (.and n t pr d a b) (x.rs a &&& x.rs b) ∧
     gives (.or n t pr d a b) (x.rs a ||| x.rs b) ∧
     gives (.xor n t pr d a b) (x.rs a ^^^ x.rs b) ∧
     gives (.shl n t pr d a b) (x.rs a <<< ((x.rs b).toNat % 64)) ∧
     gives (.shr n t pr d a b) (x.rs a >>> ((x.rs b).toNat % 64)) ∧
     gives (.sar n t pr d a b) ((x.rs a).sshiftRight ((x.rs b).toNat % 64)) ∧
     gives (.rdflg n t pr d) (x.flg.setWidth 64) ∧
     gives (.rdid n t pr d) (BitVec.ofNat 64 (t * 2 ^ 16 + n)) ∧
     gives (.tget n t pr d b) ((x.rc b).setWidth 64) ∧
     (∀ imm : Int, gives (.addi n t pr d a imm) (x.rs a + BitVec.ofInt 64 imm)) ∧
     (∀ imm : Int, gives (.li n t pr d imm) (BitVec.ofInt 64 imm)) ∧
     (∀ imm : Nat, gives (.lih n t pr d imm)
       (BitVec.ofNat 64 (imm % 2 ^ 28 * 2 ^ 36 + (x.rs d).toNat % 2 ^ 36))) ∧
     (∀ ln : Nat, gives (.vext n t pr d a ln) (BitVec.ofNat 64 (lane (x.rv a) (ln % 64))))) ∧
  (∀ (n t pr d : Nat) (s : State), MayIssue s n t pr →
     Gives (.rdmer n t pr d) s fun s' =>
       let v := (s'.thr n t).rs d
       Retired (s.thr n t) (s'.thr n t) ∧ ScalarSet (s.thr n t) (s'.thr n t) d v ∧
       tget 0 s.mer.last (coreFb n) ≤ v ∧ tget 0 s'.mer.last (coreFb n) = v ∧
       (∀ f, f ≠ coreFb n → tget 0 s'.mer.last f = tget 0 s.mer.last f) ∧
       { s' with cores := s.cores, mer := s.mer, free := s.free } = s ∧
       { s'.mer with last := s.mer.last } = s.mer ∧ s'.free = s.free + 1)

/-- Predicate results: every bit of the destination is the comparison's outcome, or the bitwise function of the
sources; p0 keeps reading as all ones. p0 reads as all ones in every state and after every write of it. An instruction
outside the vector group whose predicate's bit 0 is 0 retires without effect. -/
def Obligations.PredicateResults : Prop :=
  (∀ (n t pr d a b : Nat) (s : State), MayIssue s n t pr →
     let x := s.thr n t
     let gives (i : Sys2Proof.Instr) (v : Word) : Prop := ThreadGives s n t i fun x x' => PredSet x x' d v
     let all (c : Prop) [Decidable c] : Word := if c then BitVec.allOnes 64 else 0
     gives (.cmpeq n t pr d a b) (all (x.rs a = x.rs b)) ∧
     gives (.cmplt n t pr d a b) (all ((x.rs a).toInt < (x.rs b).toInt)) ∧
     gives (.cmpltu n t pr d a b) (all ((x.rs a).toNat < (x.rs b).toNat)) ∧
     gives (.pand n t pr d a b) (x.rp a &&& x.rp b) ∧
     gives (.por n t pr d a b) (x.rp a ||| x.rp b) ∧
     gives (.pnot n t pr d a) (~~~ x.rp a)) ∧
  (∀ (x : Thread) (v : Word), x.rp 0 = BitVec.allOnes 64 ∧ x.wp 0 v = x) ∧
  (∀ (i : Sys2Proof.Instr) (n t pr : Nat) (s : State), predOf i = some (n, t, pr) → (s.thr n t).st = .ready →
     (s.thr n t).dfr = none → ((s.thr n t).rp pr).getLsbD 0 = false → ThreadGives s n t i SameRegs)

/-- Branches go to their target: BR and BRL to the program counter plus 8 times the immediate, JR to the low 16 bits
of its register; BRL saves the address of the next instruction. NOP changes nothing; YIELD lets another thread go
first; CLRFLG clears the flags it names and TSET writes a tally counter. -/
def Obligations.BranchesAndPlain : Prop :=
  (∀ (n t pr d a : Nat) (imm : Int) (s : State), (s.thr n t).st = .ready → (s.thr n t).dfr = none →
     ((s.thr n t).rp pr).getLsbD 0 = true →
     let x := s.thr n t
     let goes (i : Sys2Proof.Instr) (pc : BitVec 16) (p : Thread → Prop) : Prop := Gives i s fun s' =>
       OnlyThread s s' n t ∧ (s'.thr n t).pc = pc ∧ (s'.thr n t).st = (if x.holdReq then .held else .ready) ∧
       p (s'.thr n t)
     let target := (x.pc.toNat : Int) + 8 * imm
     (pcOk t target = true → goes (.br n t pr imm) (BitVec.ofInt 16 target) (SameRegs x)) ∧
     (pcOk t target = true →
       goes (.brl n t pr d imm) (BitVec.ofInt 16 target) fun x' => ScalarSet x x' d (BitVec.ofNat 64 (x.pc.toNat + 8))) ∧
     ((x.rs a).toNat % 8 = 0 → pcOk t ((x.rs a).toNat % 2 ^ 16 : Nat) = true →
       goes (.jr n t pr a) ((x.rs a).setWidth 16) (SameRegs x))) ∧
  (∀ (n t pr c a : Nat) (s : State), MayIssue s n t pr →
     ThreadGives s n t (.nopInstr n t pr) SameRegs ∧
     ThreadGives s n t (.yield n t pr) (fun x x' => SameRegs x x' ∧ x'.skip = true) ∧
     (∀ f : Nat, ThreadGives s n t (.clrflg n t pr f) fun x x' =>
       x'.flg = x.flg &&& ~~~ (BitVec.ofNat 6 f) ∧ SameSV x x' ∧ (∀ j, x'.rp j = x.rp j) ∧ ∀ j, x'.rc j = x.rc j) ∧
     ThreadGives s n t (.tset n t pr c a) fun x x' =>
       x'.rc c = (x.rs a).setWidth 32 ∧ (∀ j, j % 8 ≠ c % 8 → x'.rc j = x.rc j) ∧ SameSV x x' ∧
       (∀ j, x'.rp j = x.rp j) ∧ x'.flg = x.flg)

/-! ### Cores: faults -/

/-- A precise fault leaves the thread FAULTED at its program counter with its record, and every register of it, every
other kernel thread and the memories as they were; the monitor is told through its WAITEV (R105, R104). A deferred
fault that waits is taken at the thread's next instruction boundary in place of the instruction: the record names the
operation's issue PC and the PC the thread stopped at. -/
def Obligations.CoreFaults : Prop :=
  (∀ (n t cause status : Nat) (addr : Word) (s : State), 0 < t → t < 16 → status ≠ 0x0401 →
     let x := s.thr n t
     let s' := takeFault s n t cause status addr
     let x' := s'.thr n t
     x'.st = .faulted ∧ x'.pc = x.pc ∧ SameRegs x x' ∧ x'.fCause = cause ∧ x'.fStatus = status ∧
     x'.fDeferred = false ∧ x'.fIssue = x.pc.toNat ∧ x'.fStop = x.pc.toNat ∧ x'.faddr = addr ∧
     (∀ u, 0 < u → u ≠ t → s'.thr n u = s.thr n u) ∧ (∀ m, m ≠ n → s'.core m = s.core m) ∧ SameMemory s s' ∧
     s'.xlt = s.xlt ∧ s'.evt = s.evt) ∧
  (∀ (i : Sys2Proof.Instr) (n t pr id cause status pc addr : Nat) (s : State), predOf i = some (n, t, pr) →
     0 < t → t < 16 → status ≠ 0x0401 → (s.thr n t).st = .ready → (s.thr n t).dfr = some (id, cause, status, pc, addr) →
     Gives i s fun s' =>
       let x := s.thr n t
       let x' := s'.thr n t
       x'.st = .faulted ∧ x'.fDeferred = true ∧ x'.fCause = cause ∧ x'.fStatus = status ∧ x'.fIssue = pc ∧
       x'.fStop = x.pc.toNat ∧ x'.faddr = BitVec.ofNat 64 addr ∧ x'.dfr = none ∧ x'.pc = x.pc ∧ SameRegs x x')

/-- Where core instructions trap: a JR to an unaligned address takes ALIGN, a branch or JR, aligned or not, out of a
kernel's range PRIV, a monitor instruction of a kernel thread PRIV, and a BAR that names thread 0 or not its own
ILLEGAL, each precise and with nothing else changed. Where a local load or store traps: PRIV in the monitor's region,
ALIGN off its size or beyond the store, each with the address; an uncorrectable word gives LOCAL with its event. An
asynchronous instruction for which no slot is free is STALLED at its PC with nothing issued. -/
def Obligations.CoreTraps : Prop :=
  (∀ (n t pr d a k : Nat) (s : State), MayIssue s n t pr → 0 < t →
     let x := s.thr n t
     let traps (i : Sys2Proof.Instr) (cause : Nat) (addr : Word) : Prop :=
       exec i s = .next (takeFault s n t cause 0 addr)
     ((x.rs a).toNat % 8 ≠ 0 → pcOk t ((x.rs a).toNat % 2 ^ 16 : Nat) = true →
       traps (.jr n t pr a) cALIGN (BitVec.ofNat 64 ((x.rs a).toNat % 2 ^ 16))) ∧
     (pcOk t ((x.rs a).toNat % 2 ^ 16 : Nat) = false →
       traps (.jr n t pr a) cPRIV (BitVec.ofNat 64 ((x.rs a).toNat % 2 ^ 16))) ∧
     (∀ imm : Int, pcOk t ((x.pc.toNat : Int) + 8 * imm) = false →
       traps (.br n t pr imm) cPRIV (BitVec.ofInt 64 ((x.pc.toNat : Int) + 8 * imm))) ∧
     (∀ mask : BitVec 16, mask.getLsbD 0 = true ∨ mask.getLsbD t = false → traps (.bar n t pr mask) cILLEGAL 0) ∧
     (∀ code : Nat, traps (.ecall n t pr code) cILLEGAL 0) ∧
     traps (.thctlHold n t pr a) cPRIV 0 ∧ traps (.waitev n t pr d) cPRIV 0 ∧
     (∀ csr, csrKnown csr = true → traps (.csrr n t pr d csr) cPRIV 0 ∧ traps (.csrw n t pr a csr) cPRIV 0) ∧
     (∀ tile v, (x.rs a) = BitVec.ofNat 64 (64 * v) → 64 * v < 2 ^ 56 → 
       traps (.tsave n t pr tile a k) cPRIV 0 ∧ traps (.tload n t pr tile a k) cPRIV 0)) ∧
  (∀ (n t pr d a b size : Nat) (s : State), MayIssue s n t pr → size ≤ 3 →
     let v := ((s.thr n t).rs a).toNat
     let traps (i : Sys2Proof.Instr) (s1 : State) (c addr : Nat) : Prop :=
       exec i s = .next (takeFault s1 n t c 0 (BitVec.ofNat 64 addr))
     (inMon t v (2 ^ size) = true →
       traps (.lds n t pr d a size) s cPRIV v ∧ traps (.sts n t pr a b size) s cPRIV v) ∧
     (inMon t v (2 ^ size) = false → (v % 2 ^ size ≠ 0 ∨ lsTop < v + 2 ^ size) →
       traps (.lds n t pr d a size) s cALIGN v ∧ traps (.sts n t pr a b size) s cALIGN v) ∧
     (∀ w, inMon t v (2 ^ size) = false → v % 2 ^ size = 0 → v + 2 ^ size ≤ lsTop →
       badWord (s.core n).lsBad v (2 ^ size) = some w →
       traps (.lds n t pr d a size) (logLocal s n (8 * w)) cLOCAL (8 * w))) ∧
  (∀ (n t pr a b c k : Nat) (s : State), MayIssue s n t pr →
     (16 ≤ opsOf (s.core n) t ∨ 128 ≤ opsAll (s.core n)) →
     Clear (copyChecks t ((s.thr n t).rs a).toNat ((s.thr n t).rs b).toNat ((s.thr n t).rs c).toNat 1 0 0 0 false) →
     exec (.cpin n t pr a b c k) s = .next (s.modThr n t fun th => { th with st := .stalled }))

/-! ### Cores: vector group -/

/-- Integer lanes and lane moves: each enabled lane of vD holds the function of the source lanes, the other lanes are
as before, and no flag is raised. Comparisons of lanes: each enabled lane's bit of pD is the comparison's outcome, the
other bits are as before; a comparison sets no flag. -/
def Obligations.VectorIntegerLanes : Prop :=
  (∀ (n t pr d a b c : Nat) (s : State), MayIssueV s n t →
     let x := s.thr n t
     let la := lane (x.rv a)
     let lb := lane (x.rv b)
     let gives (i : Sys2Proof.Instr) (f : Nat → Nat) : Prop :=
       ThreadGives s n t i fun x x' => VectorLanes x x' d (x.rp pr) fun j => (f j, 0)
     gives (.vaddi n t pr d a b) (fun j => la j + lb j) ∧
     gives (.vsubi n t pr d a b) (fun j => la j + 2 ^ 32 - lb j) ∧
     gives (.vmuli n t pr d a b) (fun j => la j * lb j) ∧
     gives (.vand n t pr d a b) (fun j => la j &&& lb j) ∧
     gives (.vor n t pr d a b) (fun j => la j ||| lb j) ∧
     gives (.vxor n t pr d a b) (fun j => la j ^^^ lb j) ∧
     gives (.vshl n t pr d a b) (fun j => la j * 2 ^ (lb j % 32)) ∧
     gives (.vshr n t pr d a b) (fun j => la j / 2 ^ (lb j % 32)) ∧
     gives (.vsar n t pr d a b) (fun j => (sext 32 (la j) / (2 ^ (lb j % 32) : Nat) % (2 ^ 32 : Nat)).toNat) ∧
     gives (.vsel n t pr d a b c) (fun j => if laneOn (x.rp c) j then la j else lb j) ∧
     gives (.vbcast n t pr d a) (fun _ => (x.rs a).toNat) ∧
     gives (.vperm n t pr d a b) (fun j => la (lb j % 64))) ∧
  (∀ (n t pr d a b cmp : Nat) (fp : Bool) (s : State), MayIssueV s n t → cmp < 4 → d % 8 ≠ 0 →
     ThreadGives s n t (.vcmp n t pr d a b cmp fp) fun x x' =>
       (∀ j, j < 64 → (x'.rp d).getLsbD j =
         if laneOn (x.rp pr) j then vcmpLane cmp fp (lane (x.rv a) j) (lane (x.rv b) j) else (x.rp d).getLsbD j) ∧
       (∀ j, j % 8 ≠ d % 8 → x'.rp j = x.rp j) ∧ SameSV x x' ∧ (∀ j, x'.rc j = x.rc j) ∧ x'.flg = x.flg)

/-- FP32 lanes: each enabled lane holds the operation's result rounded once, and only enabled lanes raise flags. -/
def Obligations.VectorFloatLanes : Prop :=
  ∀ (n t pr d a b c : Nat) (s : State), MayIssueV s n t →
    let x := s.thr n t
    let la := lane (x.rv a)
    let lb := lane (x.rv b)
    let lc := lane (x.rv c)
    let gives (i : Sys2Proof.Instr) (f : Nat → Nat × Flg) : Prop :=
      ThreadGives s n t i fun x x' => VectorLanes x x' d (x.rp pr) f
    gives (.vaddf n t pr d a b) (fun j => fin32 (sumVals [dec32 (la j), dec32 (lb j)])) ∧
    gives (.vsubf n t pr d a b) (fun j => fin32 (sumVals [dec32 (la j), negVal (dec32 (lb j))])) ∧
    gives (.vmulf n t pr d a b) (fun j => fMul (la j) (lb j)) ∧
    gives (.vfma n t pr d a b c) (fun j => fin32 (sumVals [mulVal (dec32 (la j)) (dec32 (lb j)), dec32 (lc j)])) ∧
    gives (.vmaxf n t pr d a b) (fun j => fMaxMin false (la j) (lb j)) ∧
    gives (.vminf n t pr d a b) (fun j => fMaxMin true (la j) (lb j))

/-- The lane sum takes the enabled lanes, the others as +0, in the fixed tree of chapter 04, and leaves it in lane 0
with the other enabled lanes 0; the conversions write the packed elements over the enabled 32-bit lanes. -/
def Obligations.VectorConversions : Prop :=
  ∀ (n t pr d a : Nat) (o : CvtOpt) (s : State), MayIssueV s n t →
    let x := s.thr n t
    let p := x.rp pr
    let seed : Word := if o.rm = 4 then x.rs o.k else 0
    let base : Word := if o.rm = 4 then x.rs (o.k + 1) else 0
    let gives (i : Sys2Proof.Instr) (v : VReg) (f : Flg) : Prop :=
      ThreadGives s n t i fun x x' => VectorSet x x' d (maskLanes p (x.rv d) v) f
    let vals (k : Nat) : List Val := (List.range (64 * k)).map fun i => dec32 (lane (x.rv (a + i / 64)) (i % 64))
    let sum := (pairSums (pairSums (pairSums (pairSums (pairSums (pairSums
      ((List.range 64).map fun i => ((if laneOn p i then lane (x.rv a) i else 0), (0 : Flg))))))))).headD (0, 0)
    let conv := (List.range 64).map fun i =>
      encode o.tgt o.rm o.sat seed (base + BitVec.ofNat 64 i) (srcVal o.src (x.rv a) i)
    let m0 := quantMx o.tgt o.rm seed base ((vals 1).take 32)
    let m1 := quantMx o.tgt o.rm seed (base + 32) ((vals 1).drop 32)
    let q := quantQ o.rm seed base (vals 4)
    gives (.vsumf n t pr d a) (BitVec.ofNat 2048 (sum.1 % 2 ^ 32)) sum.2 ∧
    (o.k ≤ 62 → o.rm ≤ 4 → isElemFmt o.src = true → isElemFmt o.tgt = true →
      gives (.vcvt n t pr d a o) (BitVec.ofNat 2048 (packBits (fmtBits o.tgt) (conv.map (·.1))))
        (lanesFlags p conv)) ∧
    (o.k ≤ 62 → o.rm ≤ 4 → o.src = 1 → (mxElem o.tgt).isSome = true →
      gives (.vqmx n t pr d a o)
        (BitVec.ofNat 2048 (packBits (fmtBits o.tgt) (m0.2.1 ++ m1.2.1) + 2 ^ 1984 * m0.1 + 2 ^ 1992 * m1.1))
        (if p = 0 then 0 else m0.2.2 ||| m1.2.2)) ∧
    (o.k ≤ 62 → o.rm ≤ 4 → o.src = 1 → o.tgt = 0x20 → a ≤ 12 →
      gives (.vq4 n t pr d a o) (BitVec.ofNat 2048 (packQ q.1 q.2.1 q.2.2.1)) (if p = 0 then 0 else q.2.2.2))

/-- R95: VSUMF adds the lanes in a fixed tree of six levels, pairs (2i, 2i + 1) first, each addition rounded under
RNE, a masked-off lane entering as +0; lane 0 of vD takes the root, the other enabled lanes 0, so that the result
depends on vA and the mask alone. -/
def Obligations.LaneSumTree : Prop :=
  ∀ (n t pr d a : Nat) (s : State), MayIssueV s n t →
    let x := s.thr n t
    let p := x.rp pr
    ∃ (sums : Nat → Nat → Nat) (f : Flg),
      (∀ i, i < 64 → sums 0 i = if laneOn p i then lane (x.rv a) i else 0) ∧
      (∀ l i, l < 6 → i < 2 ^ (5 - l) →
        sums (l + 1) i = (enc32 (sumVals [dec32 (sums l (2 * i)), dec32 (sums l (2 * i + 1))]).1).1) ∧
      ThreadGives s n t (.vsumf n t pr d a) fun x x' =>
        (∀ j, j < 64 → lane (x'.rv d) j =
          if laneOn p j then (if j = 0 then sums 6 0 % 2 ^ 32 else 0) else lane (x.rv d) j) ∧
        (∀ j, j % 16 ≠ d % 16 → x'.rv j = x.rv j) ∧ (∀ j, x'.rs j = x.rs j) ∧ (∀ j, x'.rp j = x.rp j) ∧
        (∀ j, x'.rc j = x.rc j) ∧ x'.flg = x.flg ||| f

/-! ### Cores: memory group -/

/-- Local store: a load brings the little-endian bytes of its range, a store changes those bytes and no other. -/
def Obligations.LocalStoreAccess : Prop :=
  ∀ (n t pr d a b size : Nat) (s : State), MayIssue s n t pr →
    let x := s.thr n t
    let v := (x.rs a).toNat
    (size ≤ 3 → v % 2 ^ size = 0 → GoodRange s n t v (2 ^ size) →
      ThreadGives s n t (.lds n t pr d a size) (fun x x' =>
        ScalarSet x x' d (BitVec.ofNat 64 (Memory.readLe (s.core n).ls v (2 ^ size)))) ∧
      Gives (.sts n t pr a b size) s fun s' =>
        OnlyStore s s' n t ∧ Retired x (s'.thr n t) ∧ SameRegs x (s'.thr n t) ∧
        Memory.readLe (s'.core n).ls v (2 ^ size) = (x.rs b).toNat % 2 ^ (8 * 2 ^ size) ∧
        ∀ k, k < v ∨ v + 2 ^ size ≤ k → Memory.read (s'.core n).ls k = Memory.read (s.core n).ls k) ∧
    (v % 32 = 0 → GoodRange s n t v 256 →
      ThreadGives s n t (.ldv n t pr d a) (fun x x' =>
        VectorSet x x' d (BitVec.ofNat 2048 (Memory.readLe (s.core n).ls v 256)) 0) ∧
      Gives (.stv n t pr a b) s fun s' =>
        OnlyStore s s' n t ∧ Retired x (s'.thr n t) ∧ SameRegs x (s'.thr n t) ∧
        (∀ j, j < 64 → Memory.readLe (s'.core n).ls (v + 4 * j) 4 =
          if laneOn (x.rp pr) j then lane (x.rv b) j else Memory.readLe (s.core n).ls (v + 4 * j) 4) ∧
        ∀ k, k < v ∨ v + 256 ≤ k → Memory.read (s'.core n).ls k = Memory.read (s.core n).ls k)

/-- Asynchronous copies, remote operations and the monitor's fetch issue at once, their operands captured: the thread
goes on and the operation waits with its counter. -/
def Obligations.AsyncIssue : Prop :=
  ∀ (n t pr d a b c k op vis : Nat) (s : State), MayIssue s n t pr → SlotFree s n t →
    let x := s.thr n t
    let ra := (x.rs a).toNat
    let rb := (x.rs b).toNat
    let rc := (x.rs c).toNat
    let w := twoD (x.rs c) (x.rs d)
    let top := if t = 0 then lsTop else monLs
    (Clear (copyChecks t ra rb rc 1 0 0 0 false) →
      Issues s n t (.cpin n t pr a b c k) k (.cpin ra rb rc 1 0 0)) ∧
    (Clear (copyChecks t ra rb rc 1 0 0 vis false) →
      Issues s n t (.cpout n t pr a b c k vis) k (.cpout ra rb rc 1 0 0 vis)) ∧
    (Clear (copyChecks t ra rb w.1 w.2.1 w.2.2.1 w.2.2.2 0 true) →
      Issues s n t (.cpin2 n t pr d a b c k) k (.cpin ra rb w.1 w.2.1 w.2.2.1 w.2.2.2)) ∧
    (Clear (copyChecks t ra rb w.1 w.2.1 w.2.2.1 w.2.2.2 vis true) →
      Issues s n t (.cpout2 n t pr d a b c k vis) k (.cpout ra rb w.1 w.2.1 w.2.2.1 w.2.2.2 vis)) ∧
    (ra % 256 = 0 → ra + 8192 ≤ top → (x.rs d).toNat % 64 = 0 → (x.rs d).toNat + 1024 ≤ top → rb % 16 = 0 →
      (x.rs c).toInt % 16 = 0 → rb + 144 ≤ 2 ^ 56 → 0 ≤ (rb : Int) + 63 * (x.rs c).toInt →
      (rb : Int) + 63 * (x.rs c).toInt + 144 ≤ (2 ^ 56 : Nat) →
      Issues s n t (.ldqb n t pr d a b c k) k (.ldqb ra rb rc (x.rs d).toNat)) ∧
    (Clear (remoteChecks t ra rb rc vis ++ gaChecks s n t rb rc) →
      Issues s n t (.rput n t pr a b c k vis) k (.rput ra rb rc vis) ∧
      Issues s n t (.rget n t pr a b c k vis) k (.rget ra rb rc)) ∧
    (op ≤ 9 → vis ≤ 2 → ra % 8 = 0 → ra + 8 ≤ lsTop → inMon t ra 8 = false → rb % 8 = 0 →
      Clear (gaChecks s n t rb 8) →
      Issues s n t (.ratom n t pr a b c op k vis) k (.ratom ra rb op (x.rs c) vis)) ∧
    (rawOk s n t (bits rb 6 0) = true → ra % 32 = 0 → rc % 32 = 0 → 32 ≤ rc → rc ≤ 4096 → ra + rc ≤ top →
      inMon t ra rc = false → (s.ctx (s.core n).ctx).reach.contains (s.flink (bits rb 6 0)).partner = true →
      Issues s n t (.xsend n t pr a b c k) k (.xsend ra (bits rb 6 0) rc)) ∧
    (t = 0 → (ra + rc ≤ 0x4000 ∨ kernelsLive s n = false) → ra % 8 = 0 → rc % 8 = 0 → 0 < rc →
      ra + rc ≤ 0x10000 → rb + rc ≤ 2 ^ 56 → Issues s n t (.ifetch n t pr a b c k) k (.ifetch ra rb rc))

/-- Global accesses of a thread to device memory: a load takes its bytes, a store puts them at the home bank, an
atomic takes the old value and leaves the new one, once the address translates and the home serves it; then the thread
goes on. An access that its home holds waits under the translation it has. A store to host memory writes the host's
bytes; while its link retrains it waits. The word of device memory that an atomic leaves: the operation of its code on
the old value. PREF never faults: it retires whatever its address, the thread's registers as before. -/
def Obligations.GlobalAccess : Prop :=
  (∀ (n t pr d a b c size op vis dpa : Nat) (bs : List Byte) (old : Word) (s s1 s2 : State), MayIssue s n t pr →
     Fresh s (.thread n t) →
     let x := s.thr n t
     let v := (x.rs a).toNat
     let k := 2 ^ size
     let rq := coreReq s n t (.thread n t)
     let waits (s' : State) (i : Blk) (acc : Nat) (g : Tgt) : Host.Outcome State Fault Refusal :=
       .next (block (holdAt s' rq acc v k [(g, k)]) n t .access (some i))
     (size ≤ 3 → v % k = 0 → v < 2 ^ 56 → xlate s rq 0 v k = (s1, .ok (.dev dpa)) →
       (memRead s1 dpa k = (s2, .ok bs) →
         exec (.ldg n t pr d a size) s =
           .next (((readsDone s2 (.thread n t)).modThr n t fun th => th.ws d (BitVec.ofNat 64 (leNat bs))).modThr n t
             retire)) ∧
       (∀ h, memRead s1 dpa k = (s2, .error (.held h)) →
         exec (.ldg n t pr d a size) s = waits s2 (.ldg pr d a size) 0 (.dev dpa))) ∧
     (size ≤ 3 → vis ≤ 2 → v % k = 0 → v < 2 ^ 56 → xlate s rq 1 v k = (s1, .ok (.dev dpa)) →
       (memWrite s1 dpa (leBytes k (x.rs b).toNat) = (s2, none) →
         exec (.stg n t pr a b size vis) s = .next (s2.modThr n t retire)) ∧
       (∀ h, memWrite s1 dpa (leBytes k (x.rs b).toNat) = (s2, some (.held h)) →
         exec (.stg n t pr a b size vis) s = waits s2 (.stg pr a b size vis) 1 (.dev dpa))) ∧
     (∀ l, size ≤ 3 → vis ≤ 1 → v % k = 0 → v < 2 ^ 56 → xlate s rq 1 v k = (s1, .ok (.host l dpa)) →
       ((s1.link l).retraining = true →
         exec (.stg n t pr a b size vis) s = waits s1 (.stg pr a b size vis) 1 (.host l dpa)) ∧
       ((s1.link l).retraining = false → Gives (.stg n t pr a b size vis) s fun t' =>
         t'.hostMem = Memory.writeN s1.hostMem dpa (leBytes k (x.rs b).toNat) ∧ t'.mem = s1.mem ∧
         Retired x (t'.thr n t) ∧ SameRegs x (t'.thr n t) ∧ l ∈ (t'.thr n t).hostLinks)) ∧
     (op ≤ 10 → vis ≤ 2 → v % 8 = 0 → v < 2 ^ 56 → xlate s rq 2 v 8 = (s1, .ok (.dev dpa)) →
       memAtom s1 dpa op (x.rs b) (x.rs c) = (s2, .ok old) →
       exec (.atom n t pr d a b c op vis) s = .next ((s2.modThr n t fun th => th.ws d old).modThr n t retire))) ∧
  (∀ (s s' : State) (a op : Nat) (b c old : Word), memAtom s a op b c = (s', .ok old) → isDev a = true → a % 8 = 0 →
     op ≤ 9 → s'.lost (a / 256) = false →
     let nw : Word := match op with
       | 0 => b | 1 => if old = b then c else old | 2 => old + b | 3 => old &&& b | 4 => old ||| b
       | 5 => old ^^^ b | 6 => if b.toInt ≤ old.toInt then old else b | 7 => if old.toInt ≤ b.toInt then old else b
       | 8 => if b.toNat ≤ old.toNat then old else b | _ => if old.toNat ≤ b.toNat then old else b
     (∀ j, j < 8 → view s (a + j) = BitVec.ofNat 8 (old.toNat / 2 ^ (8 * j))) ∧
     ∀ j, j < 8 → view s' (a + j) = BitVec.ofNat 8 (nw.toNat / 2 ^ (8 * j))) ∧
  (∀ (n t pr a : Nat) (s : State), MayIssue s n t pr →
     Gives (.pref n t pr a) s fun s' =>
       Retired (s.thr n t) (s'.thr n t) ∧ SameRegs (s.thr n t) (s'.thr n t) ∧ (∀ u, u ≠ t → s'.thr n u = s.thr n u) ∧
       (∀ m, m ≠ n → s'.core m = s.core m) ∧ s'.xlt.faults = s.xlt.faults ∧
       (2 ^ 56 ≤ ((s.thr n t).rs a).toNat → s' = s.modThr n t retire))

/-- Device memory behind its cache: after a write that succeeded, a byte of its range is what was written and every
other byte is as before, dirty lines, allocations and write-backs counted; a line left LOST is excepted. A read of
device memory through its home banks returns the bytes they hold and changes none of them, whatever it allocates or
writes back. Scratch has no cache before it: a read returns the array's bytes and changes nothing; a write changes the
bytes of its range alone, and lines it fills whole are LOST no longer. A translation that is cached: an access the
segment's rights permit goes to the page's base plus the offset in the page; one they do not permit is refused. -/
def Obligations.DeviceMemory : Prop :=
  (∀ (s s' : State) (a b : Nat) (bs : List Byte), a + bs.length ≤ memTop → isDev b = true →
     memWrite s a bs = (s', none) → s'.lost (b / 256) = false →
     view s' b = if a ≤ b ∧ b < a + bs.length then bs.getD (b - a) 0 else view s b) ∧
  (∀ (s s' : State) (a n : Nat) (bs : List Byte), a + n ≤ memTop → memRead s a n = (s', .ok bs) →
     bs = (List.range n).map (fun i => view s (a + i)) ∧
     ∀ b, isDev b = true → s'.lost (b / 256) = false → view s' b = view s b) ∧
  (∀ (s s' : State) (a n : Nat) (bs : List Byte), scrBase ≤ a →
     (a + n ≤ scrTop → memRead s a n = (s', .ok bs) → s' = s ∧ bs = Memory.readN s.mem a n) ∧
     (a + bs.length ≤ scrTop → memWrite s a bs = (s', none) →
       s'.mem = Memory.writeN s.mem a bs ∧
       { s' with mem := s.mem, dram := { s'.dram with lost := s.dram.lost } } = s ∧
       ∀ l, s'.lost l = true → s.lost l = true)) ∧
  (∀ (s : State) (rq : Req) (acc dva len i : Nat) (d : SegDesc) (e : XEnt), findSeg s rq.ctx dva = some (i, d) →
     (l1Of s rq.fb rq.port).find? (fun e => e.key = ⟨rq.ctx, i, (dva - d.base) / pageSize d⟩) = some e → d.kind = 0 →
     (xlate s rq acc dva len).2 =
       if rightsOk d acc then .ok (.dev (bits e.entry 39 26 * 2 ^ 26 + (dva - d.base) % pageSize d))
       else .error (.rights dva))

/-- R135: a DPA of device memory has a home quadrant and a quadrant offset below 192 GiB, which determine it, and
every offset below 192 GiB occurs exactly once in each quadrant; the home FB is that of the quadrant, and the offset
gives the Granary's bank and set. -/
def Obligations.DeviceMemoryMap : Prop :=
  (∀ a, a < 0xC000000000 →
    homeQ a = bits a 21 20 ^^^ bits a 23 22 ∧ quadOff a = bits a 39 22 * 2 ^ 20 + bits a 19 0 ∧ homeQ a < 4 ∧
    quadOff a < 0x3000000000 ∧ homeFb a = homeQ a ∧
    devBank a = bits (quadOff a) 13 8 ^^^ bits (quadOff a) 19 14 ∧ devSet a = bits (quadOff a) 24 14) ∧
  (∀ a b, a < 0xC000000000 → b < 0xC000000000 → homeQ a = homeQ b → quadOff a = quadOff b → a = b) ∧
  (∀ q o, q < 4 → o < 0x3000000000 → ∃ a, a < 0xC000000000 ∧ homeQ a = q ∧ quadOff a = o)

/-! ### Tensor unit -/

/-- Tensor instructions of a tile's owner enter their queue with their operands captured, the thread going on. A tile
changes owner through TZERO, which claims a free tile or its own and clears it in a mode and with an anchor, and TREL,
which gives it up once the earlier instructions on it have taken effect; a tile of another thread takes TILE. -/
def Obligations.TensorIssue : Prop :=
  (∀ (n t pr tile fa fb a b sc d x k fmt : Nat) (o : TrdOpt) (s : State), MayIssue s n t pr → SlotFree s n t →
     let c := s.core n
     let th := s.thr n t
     let lsOk (la len al : Nat) : Prop := len = 0 ∨ (la % al = 0 ∧ la + len ≤ lsTop ∧ inMon t la len = false)
     let la := ls18 (th.rs a)
     let lb := ls18 (th.rs b)
     let sa := ls18 (th.rs sc)
     let sb := ls18 (th.rs sc >>> 32)
     let w := (th.rs d).toNat
     let dst := w % 2 ^ 18
     let pitch := bits w 35 20
     let sd := bits w 57 40
     let sr (v : Word) : Word := if o.rm = 4 then v else 0
     let v := (th.rs a).toNat
     (owns c tile t = true → isT fa = true → isT fb = true → tclass fa = tclass fb → c.tq.length < 4 →
       lsOk la (64 * pitchOf fa) 256 → lsOk lb (64 * pitchOf fb) 256 → lsOk sa (64 * scaleBytes fa) 64 →
       lsOk sb (64 * scaleBytes fb) 64 →
       Gives (.tmma n t pr tile fa fb a b sc k) s fun s' =>
         Issued s s' n t k (.tmma tile fa fb la lb sa sb) (c.tq ++ [c.nextId]) c.rq c.tiles) ∧
     (owns c tile t = true → trdTarget (c.tile tile).exact_ o.fmt = true → o.rm ≤ 4 → (o.rm = 4 → x ≤ 61) →
       c.rq.length < 2 → pitch % 32 = 0 → rowBytes o.fmt ≤ pitch → dst + (63 * pitch + rowBytes o.fmt) ≤ lsTop →
       rowsInMon t dst 64 pitch (rowBytes o.fmt) = false →
       ((mxElem o.fmt).isSome = true → sd + 128 ≤ lsTop ∧ inMon t sd 128 = false) →
       Gives (.trd n t pr tile o d x k) s fun s' =>
         Issued s s' n t k (.trd tile o dst pitch sd (sr (th.rs x)) (sr (th.rs (x + 1))) (sr (th.rs (x + 2))))
           c.tq (c.rq ++ [c.nextId])
           (if o.rel then tset {} c.tiles tile { (c.tile tile) with releasing := some (c.nextId + 1) } else c.tiles)) ∧
     (owns c tile t = true → fmt = (if (c.tile tile).exact_ then 0x3E else 0x01) → c.rq.length < 2 → pitch % 32 = 0 →
       rowBytes fmt ≤ pitch → dst + (63 * pitch + rowBytes fmt) ≤ lsTop →
       rowsInMon t dst 64 pitch (rowBytes fmt) = false →
       Gives (.tlda n t pr tile fmt d k) s fun s' =>
         Issued s s' n t k (.tlda tile fmt dst pitch) c.tq (c.rq ++ [c.nextId]) c.tiles) ∧
     (t = 0 → v % 64 = 0 → v < 2 ^ 56 → c.rq.length < 2 →
       (Gives (.tsave n t pr tile a k) s fun s' =>
         Issued s s' n t k (.tsave tile v) c.tq (c.rq ++ [c.nextId]) c.tiles) ∧
       Gives (.tload n t pr tile a k) s fun s' =>
         Issued s s' n t k (.tload tile v) c.tq (c.rq ++ [c.nextId]) c.tiles)) ∧
  (∀ (n t pr tile : Nat) (ex : Bool) (anchor : Int) (s : State), MayIssue s n t pr →
     let c := s.core n
     ((c.tile tile).owner = none ∨ (c.tile tile).owner = some t → tilePending c tile c.nextId = false →
       Gives (.tzero n t pr tile ex anchor) s fun s' =>
         OnlyCore s s' n ∧ Retired (s.thr n t) (s'.thr n t) ∧ SameRegs (s.thr n t) (s'.thr n t) ∧
         (s'.core n).tile tile = { exact_ := ex, anchor := if ex then anchor else 0, owner := some t } ∧
         ∀ k, k ≠ tile → (s'.core n).tile k = c.tile k) ∧
     (∀ u, (c.tile tile).owner = some u → u ≠ t →
       exec (.tzero n t pr tile ex anchor) s = .next (takeFault s n t cTILE 0 0) ∧
       exec (.trel n t pr tile) s = .next (takeFault s n t cTILE 0 0)) ∧
     (owns c tile t = true →
       Gives (.trel n t pr tile) s fun s' =>
         OnlyCore s s' n ∧ Retired (s.thr n t) (s'.thr n t) ∧ SameRegs (s.thr n t) (s'.thr n t) ∧
         (tilePending c tile c.nextId = false →
           (s'.core n).tile tile = { c.tile tile with owner := none, releasing := none }) ∧
         (tilePending c tile c.nextId = true →
           (s'.core n).tile tile = { c.tile tile with releasing := some c.nextId })))

/-- EXACT accumulation does not depend on the order of its products: any order gives the same element and flags. -/
def Obligations.ExactOrderFree : Prop :=
  ∀ (anchor : Int) (e : Elem) (f : Flg) (ps qs : List Val), ps.Perm qs →
    ps.foldl (stepExact1 anchor) (e, f) = qs.foldl (stepExact1 anchor) (e, f)

/-- A tile's save image restores it: TLOAD of what TSAVE writes gives the same tile, whose values an element array of
FP32 keeps in the low 32 bits. The tensor unit's engines take the oldest entry of their queue: TMMA accumulates into
its tile, a readout writes its rows, and the operation leaves its queue with its flags raised, to be counted. -/
def Obligations.TensorEngines : Prop :=
  (∀ tl : Tile, -512 ≤ tl.anchor → tl.anchor < 512 → (∀ u, tl.owner = some u → u < 16) → tl.releasing = none →
     (∀ k, (tget {} tl.elems k).bad = false) → (∀ k, 4096 ≤ k → tget {} tl.elems k = {}) →
     (tl.exact_ = false → ∀ k, (tget {} tl.elems k).g.toNat < 2 ^ 32) →
     imageOk (tileImage tl) = true ∧
     (imageTile (tileImage tl)).exact_ = tl.exact_ ∧ (imageTile (tileImage tl)).anchor = tl.anchor ∧
     (imageTile (tileImage tl)).owner = tl.owner ∧
     ∀ k, tget {} (imageTile (tileImage tl)).elems k = tget {} tl.elems k) ∧
  (∀ (n : Nat) (o : AOp) (s : State),
     let c := s.core n
     c.aops.find? (fun x => x.id = o.id) = some o →
     (∀ tile fa fb a b sa sb as bs, o.kind = .tmma tile fa fb a b sa sb → c.tq.head? = some o.id →
       tilePending c tile o.id = false → operandTile c fa a sa = .ok as → operandTile c fb b sb = .ok bs →
       ((c.tile tile).elems.any fun e => e.2.bad) = false →
       let r := tmmaTile (c.tile tile) as bs
       Gives (.tensorQueueDispatch n false) s fun s' =>
         OnlyCore s s' n ∧ ((s'.core n).tile tile).elems = r.1.elems ∧ (s'.core n).tq = c.tq.filter (· ≠ o.id) ∧
         (s'.thr n o.t).flg = (s.thr n o.t).flg ||| r.2 ∧ (∀ k, k ≠ tile → (s'.core n).tile k = c.tile k) ∧
         (s'.core n).ls = c.ls ∧ (∀ u, (s'.thr n u).pc = (s.thr n u).pc)) ∧
     (∀ tile opt dst pitch sdst seed base stride c' f, o.kind = .trd tile opt dst pitch sdst seed base stride →
       c.rq.head? = some o.id → tilePending c tile o.id = false → ((c.tile tile).elems.any fun e => e.2.bad) = false →
       writeRows (c.tile tile) opt dst pitch sdst seed base stride (List.range 64) c 0 = (c', f, none) →
       Gives (.tensorQueueDispatch n true) s fun s' =>
         OnlyCore s s' n ∧ (s'.core n).ls = c'.ls ∧ (s'.core n).rq = c.rq.filter (· ≠ o.id) ∧
         (s'.thr n o.t).flg = (s.thr n o.t).flg ||| f ∧
         (opt.clr = true → ((s'.core n).tile tile).elems = []) ∧
         (opt.clr = false → ((s'.core n).tile tile).elems = (c.tile tile).elems)))

/-! ### Cores: operations and issue -/

/-- An operation that has had all its effects is counted once on its counter and is in flight no longer; no other
thread's counter moves. A copy out of one line of device memory into local store, none of whose accesses is under way:
its bytes arrive, and it is counted. -/
def Obligations.OperationCounts : Prop :=
  (∀ (n : Nat) (o : AOp) (s : State), (s.core n).aops.find? (fun x => x.id = o.id) = some o → o.stage = 3 →
     (tileOf o.kind).isSome = true → (∀ tile dva, o.kind ≠ .tsave tile dva ∧ o.kind ≠ .tload tile dva) →
     (s.core n).tq.contains o.id = false → o.t < 16 →
     Gives (.asyncOperationComplete n o.id []) s fun s' =>
       OnlyCore s s' n ∧ (s'.thr n o.t).rc o.k = (s.thr n o.t).rc o.k + 1 ∧
       (∀ j, j % 8 ≠ o.k % 8 → (s'.thr n o.t).rc j = (s.thr n o.t).rc j) ∧
       (∀ u j, u ≠ o.t → (s'.thr n u).rc j = (s.thr n u).rc j) ∧
       (s'.core n).aops = (s.core n).aops.filter fun x => x.id ≠ o.id) ∧
  (∀ (n ls dva len dpa : Nat) (o : AOp) (bs : List Byte) (s s1 s2 : State),
     (s.core n).aops.find? (fun x => x.id = o.id) = some o → o.kind = .cpin ls dva len 1 0 0 → o.stage = 0 →
     o.prog = 0 → (s.core n).tq.contains o.id = false → o.t < 16 → 0 < len → dva % 256 + len ≤ 256 →
     Fresh s (.aop n o.id) →
     xlate (modOp s n o.id fun x => if x.stage = 2 then { x with stage := 0 } else x)
       (coreReq s n o.t (.aop n o.id)) 0 dva len = (s1, .ok (.dev dpa)) →
     memRead s1 dpa len = (s2, .ok bs) → badWord (s2.core n).lsBad ls len = none →
     Gives (.asyncOperationComplete n o.id []) s fun s' =>
       Memory.readN (s'.core n).ls ls len = bs ∧
       (∀ k, k < ls ∨ ls + len ≤ k → Memory.read (s'.core n).ls k = Memory.read (s2.core n).ls k) ∧
       (s'.thr n o.t).rc o.k = (s2.thr n o.t).rc o.k + 1 ∧ s'.mem = s2.mem ∧ s'.gmem = s2.gmem)

/-- A thread issues the instruction its word spells: the word at its program counter, decoded, runs with its own
meaning. One cycle of a core that issues a single READY thread runs its instruction and notes which kernel thread
issued; a core whose issue is stopped changes nothing. -/
def Obligations.IssueCycle : Prop :=
  (∀ (n t : Nat) (i : Sys2Proof.Instr) (s s' : State), (s.thr n t).dfr = none →
     pcOk t ((s.thr n t).pc.toNat) = true → tget false (s.core n).isBad ((s.thr n t).pc.toNat / 8) = false →
     decodeCore n t (fetchWord s n t) = some i → exec i s = .next s' → issueThread s n t = s') ∧
  (∀ (n : Nat) (s : State),
     (issueStopped s n = true → exec (.issueCycle n) s = .next s) ∧
     (∀ t, issueStopped s n = false → (∀ u, (s.thr n u).skip = false) → (∀ u, u ≠ t → (s.thr n u).st ≠ .ready) →
       0 < t → t < 16 → (s.thr n t).st = .ready →
       Gives (.issueCycle n) s fun s' => ∃ s0, { s0 with cores := s.cores } = s ∧ (∀ m, s0.core m = s.core m) ∧
         s' = noteIssued (issueThread s0 n t) n t))

/-! ### Cores: synchronisation -/

/-- R90: TWAIT and TWAITR retire once their counter has reached the target modulo 2^32, and leave the thread WAITING
on it until then; TSET writes a counter and TGET reads one; each count of an operation adds 1 to the counter, modulo
2^32, whatever was written to it before, leaves the other counters, and lets a thread go on that waits for a target
now reached. -/
def Obligations.TallyCounters : Prop :=
  (∀ (n t pr c a d : Nat) (imm : Int) (s : State), MayIssue s n t pr →
    let x := s.thr n t
    let waits (i : Sys2Proof.Instr) (v : W32) : Prop :=
      (0 ≤ (x.rc c - v).toInt → ThreadGives s n t i SameRegs) ∧
      ((x.rc c - v).toInt < 0 → Gives i s fun s' =>
        OnlyThread s s' n t ∧ (s'.thr n t).st = .waiting ∧ (s'.thr n t).wait = .twait c v ∧
        (s'.thr n t).pc = x.pc ∧ SameRegs x (s'.thr n t))
    waits (.twait n t pr c imm) (BitVec.ofInt 32 imm) ∧ waits (.twaitr n t pr c a) ((x.rs a).setWidth 32) ∧
    (ThreadGives s n t (.tset n t pr c a) fun x x' =>
      x'.rc c = (x.rs a).setWidth 32 ∧ (∀ j, j % 8 ≠ c % 8 → x'.rc j = x.rc j) ∧ SameSV x x' ∧
      (∀ j, x'.rp j = x.rp j) ∧ x'.flg = x.flg) ∧
    (ThreadGives s n t (.tget n t pr d c) fun x x' => ScalarSet x x' d ((x.rc c).setWidth 64))) ∧
  (∀ (n : Nat) (o : AOp) (f : Flg) (s : State), o.t < 16 →
    let x := s.thr n o.t
    let x' := (countOp s n o f).thr n o.t
    x'.rc o.k = x.rc o.k + 1 ∧ (∀ j, j % 8 ≠ o.k % 8 → x'.rc j = x.rc j) ∧
    (∀ v, x.st = .waiting → x.wait = .twait o.k v →
      if 0 ≤ (x.rc o.k + 1 - v).toInt then Retired x x' else x'.st = .waiting ∧ x'.wait = .twait o.k v ∧ x'.pc = x.pc))

/-- A barrier: the last thread that its mask names goes on and frees the others, one held in it included; one that was
held there and resumed passes when it issues its BAR again; an earlier one waits; no other core is touched. FENCE
retires once no earlier write of the thread is short of its class's point, and waits while one is. A thread that polls
a word of device memory goes on once the comparison holds, and waits otherwise; while it waits the core reads the word
again; a word of host memory is what the poll's read returned. -/
def Obligations.ThreadWaits : Prop :=
  (∀ (n t pr : Nat) (mask : BitVec 16) (s : State), MayIssue s n t pr → 0 < t → t < 16 → mask.getLsbD 0 = false →
     mask.getLsbD t = true → (s.core n).arrived.contains (t, mask) = false →
     let full := ∀ u, u < 16 → mask.getLsbD u = true → u = t ∨ (s.core n).arrived.contains (u, mask) = true
     ((s.core n).passed.contains (t, mask) = true → Gives (.bar n t pr mask) s fun s' =>
       OnlyCore s s' n ∧ Retired (s.thr n t) (s'.thr n t) ∧ SameRegs (s.thr n t) (s'.thr n t) ∧
       (∀ u, u ≠ t → s'.thr n u = s.thr n u) ∧ (s'.core n).arrived = (s.core n).arrived ∧
       (s'.core n).passed = removeOne (t, mask) (s.core n).passed) ∧
     (full → (s.core n).passed.contains (t, mask) = false → Gives (.bar n t pr mask) s fun s' =>
       OnlyCore s s' n ∧ Retired (s.thr n t) (s'.thr n t) ∧ SameRegs (s.thr n t) (s'.thr n t) ∧
       (∀ u, u < 16 → u ≠ t → mask.getLsbD u = true → (s.thr n u).st = .waiting →
         Retired (s.thr n u) (s'.thr n u) ∧ SameRegs (s.thr n u) (s'.thr n u)) ∧
       (∀ u, u < 16 → u ≠ t → mask.getLsbD u = true → (s.thr n u).st = .held →
         (s'.thr n u).st = .held ∧ (s'.thr n u).prev = .ready ∧ (s'.thr n u).pc = (s.thr n u).pc + 8 ∧
         SameRegs (s.thr n u) (s'.thr n u)) ∧
       (∀ u, u < 16 → u ≠ t → mask.getLsbD u = true → (s.thr n u).st = .ready →
         s'.thr n u = s.thr n u ∧ (u, mask) ∈ (s'.core n).passed) ∧
       (∀ u, mask.getLsbD u = false → u ≠ t → s'.thr n u = s.thr n u) ∧
       ∀ e ∈ (s'.core n).arrived, e.2 ≠ mask) ∧
     (¬ full → (s.core n).passed.contains (t, mask) = false → Gives (.bar n t pr mask) s fun s' =>
       OnlyCore s s' n ∧ (s'.thr n t).st = .waiting ∧ (s'.thr n t).wait = .bar mask ∧
       (s'.thr n t).pc = (s.thr n t).pc ∧ SameRegs (s.thr n t) (s'.thr n t) ∧
       (∀ u, u ≠ t → s'.thr n u = s.thr n u) ∧ (s'.core n).arrived = (s.core n).arrived ++ [(t, mask)])) ∧
  (∀ (n t pr vis : Nat) (s : State), MayIssue s n t pr → vis ≤ 2 →
     (writesPending s n t vis = false → ThreadGives s n t (.fence n t pr vis) SameRegs) ∧
     (writesPending s n t vis = true → vis < 2 → Gives (.fence n t pr vis) s fun s' =>
       OnlyThread s s' n t ∧ (s'.thr n t).st = .waiting ∧ (s'.thr n t).wait = .fence vis ∧
       (s'.thr n t).pc = (s.thr n t).pc ∧ SameRegs (s.thr n t) (s'.thr n t)) ∧
     (writesPending s n t 2 = true → Gives (.fence n t pr 2) s fun s' =>
       (s'.thr n t).st = .waiting ∧ (s'.thr n t).wait = .fence 2 ∧
       ∀ l ∈ (s.thr n t).hostLinks, ZWho.thread n t ∈ (s'.link l).zlr)) ∧
  (∀ (n t pr a b cmp dpa : Nat) (bs : List Byte) (host : Option Word) (s s1 s2 : State), Fresh s (.thread n t) →
     let x := s.thr n t
     let v := (x.rs a).toNat
     let rq (s : State) := coreReq s n t (.thread n t)
     let holds (w : Word) := pollHolds cmp w (x.rs b)
     let again := s.setThr n t { x with st := .ready, dfr := none }
     let polling := x.st = .waiting ∧ x.wait = .waitg ∧ x.blk = some (.waitg pr a b cmp) ∧ (x.rp pr).getLsbD 0 = true ∧
       pcOk t (x.pc.toNat + 8) = true
     let goesOn (w : Word) (h : Option Word) (u : State) := Gives (.waitgPollRead n t h) s fun s' =>
       SameRegs x (s'.thr n t) ∧ s'.mem = u.mem ∧ s'.gmem = u.gmem ∧
       if holds w = true then Retired x (s'.thr n t)
       else (s'.thr n t).st = .waiting ∧ (s'.thr n t).wait = .waitg ∧ (s'.thr n t).pc = x.pc ∧ (s'.thr n t).blk = x.blk
     v % 8 = 0 → v < 2 ^ 56 →
     (MayIssue s n t pr → xlate s (rq s) 0 v 8 = (s1, .ok (.dev dpa)) → memRead s1 dpa 8 = (s2, .ok bs) →
       exec (.waitg n t pr a b cmp) s = .next (if holds (BitVec.ofNat 64 (leNat bs)) = true then
           (readsDone s2 (.thread n t)).modThr n t retire
         else block (readsDone s2 (.thread n t)) n t .waitg (some (.waitg pr a b cmp)))) ∧
     (polling → xlate again (rq again) 0 v 8 = (s1, .ok (.dev dpa)) → memRead s1 dpa 8 = (s2, .ok bs) →
       goesOn (BitVec.ofNat 64 (leNat bs)) host s2) ∧
     ∀ l w, polling → xlate again (rq again) 0 v 8 = (s1, .ok (.host l dpa)) → (s1.link l).retraining = false →
       goesOn w (some w) s)

/-- EXIT takes a thread without operations in flight to OFF, its registers as they were; one with operations waits for
their counts. ECALL of thread 0 waits with its code; of a kernel thread, the shipped monitor answers it as a fault
with CAUSE ILLEGAL (DESIGN CHOICE, log entry 33). -/
def Obligations.ThreadEnds : Prop :=
  (∀ (n t pr : Nat) (s : State), MayIssue s n t pr → t < 16 →
     (((s.core n).aops.all fun o => o.t != t) = true → Gives (.exit n t pr) s fun s' =>
       OnlyCore s s' n ∧ (s'.thr n t).st = .off ∧ (s'.thr n t).pc = (s.thr n t).pc ∧
       (∀ u, SameRegs (s.thr n u) (s'.thr n u)) ∧ (s'.core n).aops = (s.core n).aops) ∧
     (((s.core n).aops.any fun o => o.t = t && inSlot (s.core n) o) = true → Gives (.exit n t pr) s fun s' =>
       (s'.thr n t).st = .waiting ∧ (s'.thr n t).wait = .exiting)) ∧
  (∀ (n t pr code : Nat) (s : State), MayIssue s n t pr →
     (t = 0 → Gives (.ecall n t pr code) s fun s' =>
       OnlyThread s s' n t ∧ (s'.thr n t).st = .waiting ∧ (s'.thr n t).wait = .ecall code ∧
       SameRegs (s.thr n t) (s'.thr n t)) ∧
     (0 < t → exec (.ecall n t pr code) s = .next (takeFault s n t cILLEGAL 0 0)))

/-! ### Cores: fabric and monitor groups -/

/-- XRECV takes the oldest raw packet of its link into local store and owes its credits to the sender; it waits while
an active link holds none, and is a fault once the link is down. MRED and BELL issue a member's next contribution: the
operation is the core's newest, and the group's next sequence of that member goes on. -/
def Obligations.RawReceiveAndMillIssue : Prop :=
  (∀ (n t pr a b c : Nat) (s : State), MayIssue s n t pr →
     let x := s.thr n t
     let la := (x.rs a).toNat
     let len := (x.rs c).toNat
     let l := bits (x.rs b).toNat 6 0
     rawOk s n t l = true → la % 32 = 0 → len % 32 = 0 → 32 ≤ len → len ≤ 253952 → 
     la + len ≤ (if t = 0 then lsTop else monLs) → inMon t la len = false →
     (∀ p ps, (s.flink l).raw = p :: ps → badWord (s.core n).lsBad la (rawImage p len).length = none →
       Gives (.xrecv n t pr a b c) s fun s' =>
         (s'.flink l).raw = ps ∧ (s'.flink l).owed = addCredits (s.flink l).owed p ∧
         Memory.readN (s'.core n).ls la (rawImage p len).length = rawImage p len ∧
         Retired x (s'.thr n t) ∧ SameRegs x (s'.thr n t) ∧ (∀ u, u ≠ t → s'.thr n u = s.thr n u) ∧
         (∀ k, k ≠ l → s'.flink k = s.flink k) ∧ SameMemory s s') ∧
     ((s.flink l).raw = [] → (s.flink l).st = 3 → Gives (.xrecv n t pr a b c) s fun s' =>
       OnlyThread s s' n t ∧ (s'.thr n t).st = .waiting ∧ (s'.thr n t).wait = .xrecv l ∧ (s'.thr n t).pc = x.pc) ∧
     ((s.flink l).raw = [] → (s.flink l).st ≠ 3 →
       exec (.xrecv n t pr a b c) s = .next (takeFault s n t cREMOTE 0x0402 0))) ∧
  (∀ (n t pr a b c k : Nat) (d : GroupDesc) (s : State), MayIssue s n t pr → SlotFree s n t →
     let x := s.thr n t
     let rb := (x.rs b).toNat
     let la := (x.rs a).toNat
     let len := (x.rs c).toNat
     let g := bits rb 7 0
     let q : W32 := BitVec.ofNat 32 (rb / 2 ^ 16)
     (groupCheck s n t g false q len = 0 → (s.group g).desc = some d → la % 32 = 0 → len % 32 = 0 → 32 ≤ len →
       len ≤ 253952 → la + len ≤ (if t = 0 then lsTop else monLs) → inMon t la len = false →
       q = tget 0 (s.group g).mseq n →
       (∀ o ∈ (s.core n).aops, ∀ l m h r, o.kind ≠ .mred l m h r) → 
       (∀ o ∈ (s.core n).aops, o.id < (s.core n).nextId) →
       Gives (.mred n t pr a b c k) s fun s' =>
         Retired x (s'.thr n t) ∧ SameRegs x (s'.thr n t) ∧
         (s'.core n).aops = (s.core n).aops ++
           [⟨(s.core n).nextId, t, x.pc.toNat, k, .mred la len g q, 0, 0, [], []⟩] ∧
         tget 0 (s'.group g).mseq n = q + 1 ∧ SameMemory s s') ∧
     ((x.rs a).toNat ≤ 255 → groupCheck s n t (x.rs a).toNat true (BitVec.ofNat 32 rb) 0 = 0 →
       BitVec.ofNat 32 rb = tget 0 (s.group (x.rs a).toNat).bseq n →
       (∀ o ∈ (s.core n).aops, ∀ h r, o.kind ≠ .bell h r) → 
       (∀ o ∈ (s.core n).aops, o.id < (s.core n).nextId) →
       Gives (.bell n t pr a b k) s fun s' =>
         Retired x (s'.thr n t) ∧ SameRegs x (s'.thr n t) ∧
         (s'.core n).aops = (s.core n).aops ++
           [⟨(s.core n).nextId, t, x.pc.toNat, k, .bell (x.rs a).toNat (BitVec.ofNat 32 rb), 0, 2, [], []⟩] ∧
         tget 0 (s'.group (x.rs a).toNat).bseq n = BitVec.ofNat 32 rb + 1 ∧
         ⟨.bell (leafOf n) (slotOf n), ⟨(x.rs a).toNat, BitVec.ofNat 32 rb, 0, 0, [], 1⟩⟩ ∈ s'.mil.flight ∧ SameMemory s s'))

/-- The monitor starts, holds, resumes and stops a kernel thread of its core: each moves that thread alone, and the
monitor goes on; a stopped thread waits for no walk, no fault and no read. The monitor reads and writes a stopped
thread's registers: scalar, one lane of a vector, predicate and tally counter by the selector's kind. Control
registers: CSRR reads CORE_ID, CORE_CTX and the fault words of the threads; CSRW sets CORE_CTX to a context 1 to 31
while no kernel thread is live, and a write that is not accepted is discarded with its event. WAITEV takes the cause
of the oldest monitor event, and waits while there is none. -/
def Obligations.MonitorInstructions : Prop :=
  (∀ (n pr a b c : Nat) (s : State), MayIssue s n 0 pr →
     let th := s.thr n 0
     let u := bits (th.rs a).toNat 3 0
     let x := s.thr n u
     let moves (i : Sys2Proof.Instr) (p : Thread → Prop) : Prop := Gives i s fun s' =>
       { s' with cores := s.cores } = s ∧ (∀ m, m ≠ n → s'.core m = s.core m) ∧
       (∀ w, w ≠ 0 → w ≠ u → s'.thr n w = s.thr n w) ∧ Retired th (s'.thr n 0) ∧ SameRegs th (s'.thr n 0) ∧
       p (s'.thr n u)
     u ≠ 0 →
     (x.st = .off ∨ x.st = .faulted → moves (.thctlStart n 0 pr a b c) fun x' =>
       x'.st = .ready ∧ x'.pc = (th.rs b).setWidth 16 ∧ x'.rs 1 = th.rs c ∧ (∀ j, j % 64 ≠ 1 → x'.rs j = 0) ∧
       (∀ j, x'.rv j = 0) ∧ (∀ j, j % 8 ≠ 0 → x'.rp j = 0) ∧ (∀ j, x'.rc j = 0) ∧ x'.flg = 0 ∧ x'.fCause = 0 ∧
       x'.fStatus = 0 ∧ x'.faddr = 0) ∧
     (x.st = .ready ∨ x.st = .stalled ∨ x.st = .xltWait → moves (.thctlHold n 0 pr a) fun x' =>
       x'.st = .held ∧ x'.prev = x.st ∧ x'.pc = x.pc ∧ SameRegs x x') ∧
     (x.st = .off ∨ x.st = .faulted ∨ x.st = .held → moves (.thctlHold n 0 pr a) fun x' => x' = x) ∧
     (x.st = .waiting → x.wait ≠ .access → moves (.thctlHold n 0 pr a) fun x' =>
       x'.st = .held ∧ x'.prev = .waiting ∧ x'.prevWait = x.wait ∧ x'.pc = x.pc ∧ SameRegs x x') ∧
     (x.st = .waiting → x.wait = .access → moves (.thctlHold n 0 pr a) fun x' => x' = { x with holdReq := true }) ∧
     (x.st = .held → x.prev = .ready ∨ x.prev = .stalled → moves (.thctlResume n 0 pr a) fun x' =>
       x'.st = .ready ∧ x'.pc = x.pc ∧ SameRegs x x') ∧
     (x.st = .held → x.prev = .waiting → (∃ k v, x.prevWait = .twait k v) ∨ (∃ m, x.prevWait = .bar m) ∨
         (∃ vis, x.prevWait = .fence vis) ∨ x.prevWait = .waitg ∨ (∃ l, x.prevWait = .xrecv l) → moves (.thctlResume n 0 pr a) fun x' =>
       x'.st = .ready ∧ x'.wait = .nothing ∧ x'.pc = x.pc ∧ SameRegs x x') ∧
     (x.st = .held ∨ x.st = .off ∨ x.st = .faulted → Gives (.thctlStop n 0 pr a) s fun s' =>
       (∀ m, m ≠ n → s'.core m = s.core m) ∧ (∀ w, w ≠ 0 → w ≠ u → s'.thr n w = s.thr n w) ∧
       Retired th (s'.thr n 0) ∧ SameRegs th (s'.thr n 0) ∧ SameMemory s s' ∧ (s'.thr n u).st = .off ∧
       (s'.thr n u).pc = x.pc ∧ SameRegs x (s'.thr n u) ∧ agentWaits s' (.thread n u) = false)) ∧
  (∀ (n pr d a b j : Nat) (s : State), MayIssue s n 0 pr →
     let th := s.thr n 0
     let u := bits (th.rs a).toNat 3 0
     let x := s.thr n u
     let w := th.rs b
     let reads (kind : Nat) (v : Word) : Prop :=
       ThreadGives s n 0 (.thrd n 0 pr d a b (64 * kind + j)) fun y y' => ScalarSet y y' d v
     let writes (kind : Nat) (p : Thread → Prop) : Prop := Gives (.thwr n 0 pr a b (64 * kind + j)) s fun s' =>
       { s' with cores := s.cores } = s ∧ (∀ m, m ≠ n → s'.core m = s.core m) ∧
       (∀ y, y ≠ 0 → y ≠ u → s'.thr n y = s.thr n y) ∧ Retired th (s'.thr n 0) ∧ SameRegs th (s'.thr n 0) ∧ p (s'.thr n u)
     u ≠ 0 → x.st = .off ∨ x.st = .held ∨ x.st = .faulted →
     (j < 64 → reads 0 (x.rs j) ∧ writes 0 fun x' => ScalarSet x x' j w) ∧
     (j < 16 → reads 1 (BitVec.ofNat 64 (lane (x.rv j) (w.toNat % 64))) ∧
       writes 1 fun x' => VectorLanes x x' j (BitVec.allOnes 64) fun i =>
         (if i = w.toNat % 64 then w.toNat else lane (x.rv j) i, 0)) ∧
     (j < 8 → reads 2 (x.rp j) ∧ writes 2 fun x' => PredSet x x' j w) ∧
     (j < 8 → reads 3 ((x.rc j).setWidth 64) ∧
       writes 3 fun x' => x'.rc j = w.setWidth 32 ∧ SameSV x x' ∧ ∀ k, x'.rp k = x.rp k)) ∧
  (∀ (n pr d a csr : Nat) (s : State), MayIssue s n 0 pr →
     let w := (s.thr n 0).rs a
     let c := w.toNat % 128
     (csrKnown csr = true → ThreadGives s n 0 (.csrr n 0 pr d csr) fun x x' => ScalarSet x x' d (csrRead s n csr)) ∧
     csrRead s n 8 = BitVec.ofNat 64 (s.core n).ctx ∧
     (∀ u, u < 16 → csrRead s n (0x100 + 8 * u) = (s.thr n u).faultWord ∧
       csrRead s n (0x180 + 8 * u) = (s.thr n u).faddr) ∧
     (0 < c → c < 32 → kernelsLive s n = false → Gives (.csrw n 0 pr a 8) s fun s' =>
       OnlyCore s s' n ∧ s'.core n = { s.core n with ctx := c, thr := (s'.core n).thr } ∧
       Retired (s.thr n 0) (s'.thr n 0) ∧ SameRegs (s.thr n 0) (s'.thr n 0)) ∧
     (c = 0 ∨ 32 ≤ c ∨ kernelsLive s n = true → exec (.csrw n 0 pr a 8) s =
       .next ((logEvent s 0x0001 (coreFb n) (coreBlock n) (n % 256) 0 0x100000008 w).modThr n 0 retire))) ∧
  (∀ (n pr d : Nat) (s : State), MayIssue s n 0 pr →
     (∀ e es, (s.core n).events = e :: es → Gives (.waitev n 0 pr d) s fun s' =>
       OnlyCore s s' n ∧ (s'.core n).events = es ∧ Retired (s.thr n 0) (s'.thr n 0) ∧
       ScalarSet (s.thr n 0) (s'.thr n 0) d (Config.monitorEvent e)) ∧
     ((s.core n).events = [] → Gives (.waitev n 0 pr d) s fun s' =>
       OnlyThread s s' n 0 ∧ (s'.thr n 0).st = .waiting ∧ (s'.thr n 0).wait = .event d ∧
       (s'.thr n 0).pc = (s.thr n 0).pc))

/-! ### Cores: encoding -/

/-- Every well-formed instruction of a core whose word exists decodes back to itself, with every operand. Every
instruction of a core has a word. -/
def Obligations.EncodeDecode : Prop :=
  (∀ (i : Sys2Proof.Instr) (n t pr w : Nat), (predOf i = some (n, t, pr) ∨ vectorOf i = some (n, t, pr)) →
     i.wf = true → encodeCore i = some w → w < 2 ^ 64 ∧ decodeCore n t w = some i) ∧
  (∀ (i : Sys2Proof.Instr), (predOf i).isSome = true ∨ (vectorOf i).isSome = true → (encodeCore i).isSome = true)

/-- Words written out from R92 to R104 decode to the instructions they stand for, the worked encoding of R97 among
them; a word with the reserved bit 51 set, of a group or an opcode that the tables do not give, or with a reserved
operand bit of a layout set is ILLEGAL. -/
def Obligations.DecodedWords : Prop :=
  ∀ n t,
    decodeCore n t 0x2000_5C70_4146_4000 = some (.tmma n t 0 1 0x1C 0x1C 4 5 6 2) ∧
    decodeCore n t 0x0017_0850_C000_0000 = some (.add n t 7 2 5 3) ∧
    decodeCore n t 0x0030_086F_FFFF_FFFF = some (.addi n t 0 2 6 (-1)) ∧
    decodeCore n t 0x0203_000F_FFFF_FFF8 = some (.br n t 3 (-8)) ∧
    decodeCore n t 0x1030_0420_C400_0000 = some (.vfma n t 0 1 2 3 4) ∧
    decodeCore n t 0x3080_1C90_0000_0060 = some (.ldg n t 0 7 9 3) ∧
    decodeCore n t 0x4000_0800_0000_0010 = some (.twait n t 0 2 16) ∧
    decodeCore n t 0x5000_0011_4600_0015 = some (.rput n t 0 1 5 6 5 2) ∧
    decodeCore n t 0x7080_0C00_0000_0123 = some (.csrr n t 0 3 0x123) ∧
    decodeCore n t 0x0018_0850_C000_0000 = none ∧
    decodeCore n t 0x6010_0850_C000_0000 = none ∧
    decodeCore n t 0x0070_0850_C000_0000 = none ∧
    decodeCore n t 0x2000_5C70_4146_4001 = none

/-! ### Commands of rings -/

/-- How a ring's command ends where it does not run: of a STOPPED context it completes DIE_LOST unless it is
privileged, and with a parameter out of range BAD_PARAM, each with its record and no effect; otherwise it runs. The
status DIE_LOST of a STOPPED context's command is the model's reading (DEDUCED, log entry 55). Commands that change
one table and complete: NOP changes nothing; CTX_CREATE sets its context's entry, SEG_MAP its segment's descriptor,
REGION_REGISTER its region, KERNEL_STOP marks its LAUNCH, and nothing else changes. -/
def Obligations.CommandOutcomes : Prop :=
  (∀ (op : Nat) (h : Hdr) (fs : List (Nat × Nat × Nat)) (bad : State → Bool) (run : State → State) (s s1 : State),
     (isFw op && reeveDown s (h.ring / 16)) = false → beginCmd s h op fs = some s1 →
     let ends (status : Nat) : Prop := ∃ t, command op h fs bad run s = .next t ∧ Completed s t h op status 0 ∧
       OnlyHost s t ∧ { t.host with inflight := s.host.inflight, held := s.host.held, parked := s.host.parked } = s.host
     ((s.ctx h.ctx).state = 3 → isPriv op = false → ends stDIELOST) ∧
     ((s.ctx h.ctx).state ≠ 3 ∨ isPriv op = true → bad s1 = true → ends stBADPARAM) ∧
     ((s.ctx h.ctx).state ≠ 3 ∨ isPriv op = true → bad s1 = false → command op h fs bad run s = .next (run s1))) ∧
  (∀ (h : Hdr) (c k link ring : Nat) (raw r w : Bool) (reach : List Nat) (d : SegDesc) (rid mask : BitVec 16)
     (base size : Nat) (target : W32) (s : State),
     (Startable s 0x00 h [] → CmdGives s (.nop h) h 0x00 stDONE (OnlyHost s)) ∧
     (Startable s 0x90 h [(1, 1, c), (2, 1, b2n raw + 2 * link), (64, 2048, bitmapOf reach)] →
       1 ≤ c → c ≤ 31 → (s.ctx c).state = 0 → trained s link = true → (∀ m ∈ reach, m ≤ 16383) →
       CmdGives s (.ctxCreate h c raw link reach) h 0x90 stDONE fun t =>
         OnlyXlt s t ∧ { t.xlt with ctxs := s.xlt.ctxs } = s.xlt ∧
         t.ctx c = { state := 1, link := link, raw := raw, reach := reach } ∧ ∀ j, j ≠ c → t.ctx j = s.ctx j) ∧
     (Startable s 0x40 h ([(1, 1, c), (2, 1, k)] ++ descWords d) →
       1 ≤ c → c ≤ 31 → (s.ctx c).state ≠ 0 → (s.ctx c).closing = false → k ≤ 15 → s.seg c k = none →
       segBad d = false → segOverlap s c d = false →
       CmdGives s (.segMap h c k d) h 0x40 stDONE fun t =>
         OnlyXlt s t ∧ { t.xlt with segs := s.xlt.segs } = s.xlt ∧ t.seg c k = some d ∧
         ∀ j i, i ≤ 15 → j ≠ c ∨ i ≠ k → t.seg j i = s.seg j i) ∧
     (Startable s 0x60 h
         [(1, 1, k), (2, 1, b2n r + 2 * b2n w), (4, 2, rid.toNat), (6, 2, mask.toNat), (8, 8, base), (16, 8, size)] →
       k ≤ 255 → tget none s.host.regions k = none → base % 4096 = 0 → size % 4096 = 0 → 0 < size →
       rangeBacked s base size = true →
       (∀ e ∈ s.host.regions, ∀ g, e.2 = some g → g.base + g.size ≤ base ∨ base + size ≤ g.base) →
       Gives (.regionRegister h k r w rid mask base size) s fun t =>
         Completed s t h 0x60 stDONE 0 ∧ OnlyHost s t ∧ tget none t.host.regions k = some ⟨r, w, rid, mask, base, size⟩ ∧
         ∀ j, j ≠ k → tget none t.host.regions j = tget none s.host.regions j) ∧
     (∀ l, Startable s 0x21 h [(1, 1, ring), (4, 4, target.toNat)] → s.launch? ring target = some l → l.ctx = h.ctx →
       Gives (.kernelStop h ring target) s fun t =>
         Completed s t h 0x21 stDONE 0 ∧ OnlyHost s t ∧ t.launch? ring target = some { l with stopped := true }))

/-- SEG_UNMAP, XLT_INVAL, CTX_DESTROY and RECOVER DISCARD remove what they name and ask for an invalidation, which
begins at once or waits for the one that runs; the kernels of a context that ends are stopped first; CTX_DESTROY of a
FREE context completes (DEDUCED, log entry 61). An invalidation: in one FB every cached translation of its scope goes,
and the ports with accesses in flight are waited for; the last port's report ends it and completes its command; a
zero-length read that a command at GLOBAL waits for completes it. -/
def Obligations.Invalidation : Prop :=
  (∀ (h : Hdr) (c k scope first count link : Nat) (s : State),
     let idle := (∀ l ∈ s.host.launches, l.ctx ≠ c) ∧ s.xlt.dying = [] ∧
       ∀ i ∈ s.xlt.inval.toList ++ s.xlt.invalQ, i.destroy = true → i.ctx ≠ c
     let asks (t : State) (i : Inval) : Prop :=
       (∃ fbs, t.xlt.inval = some { i with fbs := fbs }) ∨ i ∈ t.xlt.invalQ
     let begins (t : State) (i : Inval) : Prop :=
       if s.xlt.inval = none then t.xlt.inval = some { i with fbs := upFbs s }
       else t.xlt.inval = s.xlt.inval ∧ t.xlt.invalQ = s.xlt.invalQ ++ [i]
     (∀ d, Startable s 0x41 h [(1, 1, c), (2, 1, k)] → 1 ≤ c → c ≤ 31 → k ≤ 15 → s.seg c k = some d →
       Gives (.segUnmap h c k) s fun t =>
         begins t ⟨.cmd h.ring h.seq, c, 1, k, 0, 0, [], [], [], false, []⟩ ∧ OnlyXlt s t ∧ t.seg c k = none ∧
         t.cmd? h.ring h.seq = some (cmdOf h 0x41) ∧ ∀ j i, i ≤ 15 → j ≠ c ∨ i ≠ k → t.seg j i = s.seg j i) ∧
     (Startable s 0x42 h [(1, 1, scope), (2, 1, k), (4, 4, first), (8, 4, count)] →
       invalBad s h.ctx scope k first count = false →
       Gives (.xltInval h scope k first count) s fun t =>
         begins t ⟨.cmd h.ring h.seq, h.ctx, scope, k, first, count, [], [], [], false, []⟩ ∧ OnlyXlt s t ∧
         t.cmd? h.ring h.seq = some (cmdOf h 0x42) ∧ t.xlt.segs = s.xlt.segs) ∧
     (Startable s 0x91 h [(1, 1, c)] → 1 ≤ c → c ≤ 31 →
       ((s.ctx c).state = 0 → CmdGives s (.ctxDestroy h c) h 0x91 stDONE (OnlyHost s)) ∧
       ((s.ctx c).state ≠ 0 → (∃ l ∈ s.host.launches, l.ctx = c) → s.xlt.dying = [] →
         Gives (.ctxDestroy h c) s fun t =>
           (c, InvFor.cmd h.ring h.seq) ∈ t.xlt.dying ∧ (t.ctx c).closing = true ∧
           ∀ l ∈ t.host.launches, l.ctx = c → l.stopped = true) ∧
       ((s.ctx c).state ≠ 0 → idle → Gives (.ctxDestroy h c) s fun t =>
         asks t ⟨.cmd h.ring h.seq, c, 2, 0, 0, 0, [], [], [], true, []⟩ ∧ ∀ i, i ≤ 15 → t.seg c i = none)) ∧
     (Startable s 0x82 h [(1, 1, c), (2, 1, 1 + 2 * link)] → 1 ≤ c → c ≤ 31 → (s.ctx c).state = 2 → idle →
       Gives (.recoverDiscard h c link) s fun t =>
         asks t ⟨.cmd h.ring h.seq, c, 2, 0, 0, 0, [], [], [], true, []⟩ ∧ ∀ i, i ≤ 15 → t.seg c i = none)) ∧
  (∀ (s : State) (i : Inval) (fb port link : Nat),
     (s.xlt.inval = some i → fb ∈ i.fbs → (∃ f ∈ i.fbs, f ≠ fb) →
       (∀ w ∈ s.xlt.walks, w.fb = fb → i.covers w.key = false) →
       Gives (.invalidationFlit fb) s fun t =>
         { t with xlt := s.xlt, car := s.car } = s ∧
         { t.xlt with
           l1 := s.xlt.l1, l2 := s.xlt.l2, inval := s.xlt.inval, walks := s.xlt.walks,
           walkCount := s.xlt.walkCount } = s.xlt ∧
         (∀ e ∈ t.car.slots, ∀ j, e.1 / 48 = fb → e.2.job = some j → j.ctx = i.ctx → e.2.src = [] ∧ e.2.dst = []) ∧
         (∃ old ports, t.xlt.inval = some { i with fbs := i.fbs.filter (· ≠ fb), old := old, ports := ports }) ∧
         (∀ p, p < 512 → l1Of t fb p = (l1Of s fb p).filter fun e => !i.covers e.key) ∧
         (∀ f p, f ≠ fb → p < 512 → l1Of t f p = l1Of s f p) ∧
         ∀ j x, j / 4096 = fb → tget none t.xlt.l2 j = some x → i.covers x.key = false) ∧
     (∀ h c op, s.xlt.inval = some i → i.fbs = [] → i.ports = [(fb, port)] → i.links = [] → i.old = [] →
       i.destroy = false → i.who = .cmd h.ring h.seq → zlrLinks s (addLinks [] s.xlt.hostW) = [] → s.xlt.invalQ = [] →
       s.host.lossEnds = false →
       s.cmd? h.ring h.seq = some c → c = cmdOf h op → s.iso (h.ring / 16) = false →
       CmdGives s (.portEpochDrained fb port) h op stDONE fun t =>
         OnlyXlt s t ∧ t.xlt.inval = none ∧ { t.xlt with inval := s.xlt.inval, hostW := s.xlt.hostW } = s.xlt) ∧
     (∀ h ws c op, (s.link link).zlr = .cmd h.ring h.seq :: ws → (s.link link).retraining = false →
       tagged (s.link link) < 768 → s.cmd? h.ring h.seq = some c → c = { cmdOf h op with links := [link] } → op ≠ 0x20 → op ≠ 0x80 →
       s.iso (h.ring / 16) = false →
       Gives (.zeroLengthReadComplete link) s fun t =>
         Completed s t h op stDONE 0 ∧ OnlyHost s t ∧ (t.link link).zlr = ws ∧
         ∀ k, k ≠ link → (t.link k).zlr = (s.link k).zlr))

/-- Answers to faults: an access that its thread waits with is aborted with CAUSE ABORTED, one of a HELD thread keeps
its answer, and the fault is unanswered no longer; the command completes. A walk: a valid, well-formed entry is cached
for the FB and the port that waits; an entry that is not VALID gives a fault of cause 2 to the thread that waits, in
XLT_WAIT, with the next FAULT_ID that no unanswered fault has. -/
def Obligations.FaultsAndWalks : Prop :=
  (∀ (h : Hdr) (scope n u acc dva : Nat) (fid : W32) (f : XFault) (s : State),
     s.xlt.faults.filter (answered? h.ctx scope fid) = [f] → f.joined = [⟨.thread n u, acc, dva⟩] → s.xlt.offered = [] →
     scope ≤ 1 → (scope = 1 → fid = 0) → 0 < u → u < 16 →
     let ends (t : State) : Prop :=
       Ended t h ∧ t.xlt.faults = s.xlt.faults.filter (fun f => !answered? h.ctx scope fid f) ∧
       f.id ∉ t.xlt.fq ∧ f.id ∉ t.xlt.rewrite
     (Startable s 0x43 h [(1, 1, 1 + 2 * scope), (4, 4, fid.toNat)] →
       ((s.thr n u).st = .xltWait → Gives (.faultAbort h scope fid) s fun t =>
         ends t ∧ (t.thr n u).st = .faulted ∧ (t.thr n u).fCause = cABORTED ∧ (t.thr n u).fStatus = 0x0200 ∧
         (t.thr n u).faddr = BitVec.ofNat 64 dva ∧ (t.thr n u).pc = (s.thr n u).pc ∧ SameRegs (s.thr n u) (t.thr n u)) ∧
       ((s.thr n u).st = .held → (s.thr n u).prev = .xltWait → Gives (.faultAbort h scope fid) s fun t =>
         ends t ∧ t.thr n u = { s.thr n u with answer := some false })) ∧
     (Startable s 0x43 h [(1, 1, 2 * scope), (4, 4, fid.toNat)] → (s.thr n u).st = .held → (s.thr n u).prev = .xltWait →
       Gives (.faultResume h scope fid) s fun t =>
         ends t ∧ t.thr n u = { s.thr n u with answer := some true })) ∧
  (∀ (fb seg page n u acc dva ctx : Nat) (d : SegDesc) (e : Word) (rest : List Walk) (s s1 : State),
     let w : Walk := ⟨fb, ⟨ctx, seg, page⟩, 1, [⟨.thread n u, acc, dva⟩]⟩
     s.xlt.walks = w :: rest → (∀ x ∈ rest, x.fb ≠ fb) → fb = coreFb n → s.seg ctx seg = some d →
     wordRead s (d.array + 8 * page) .ok = (s1, .ok e) → 0 < ctx → (s.ctx ctx).state = 1 → (s.ctx ctx).closing = false →
     (e.getLsbD 0 = true → pteOk d e.toNat = true → (s.thr n u).st = .held → (s.thr n u).prev ≠ .xltWait →
       Gives (.walkComplete fb ctx seg page .ok) s fun t =>
         t.xlt.walks = rest ∧ (l1Of t fb (corePort n)).head? = some ⟨⟨ctx, seg, page⟩, e.toNat⟩ ∧
         (∃ k, tget none t.xlt.l2 k = some ⟨⟨ctx, seg, page⟩, e.toNat⟩) ∧ t.xlt.faults = s.xlt.faults) ∧
     (e.getLsbD 0 = false → (∀ f ∈ s.xlt.faults, f.ctx ≠ ctx) → s.xlt.fq.length < 256 → (s.thr n u).st = .waiting →
       Gives (.walkComplete fb ctx seg page .ok) s fun t =>
         t.xlt.walks = rest ∧ (t.thr n u).st = .xltWait ∧ (t.thr n u).pc = (s.thr n u).pc ∧
         t.xlt.fq = s.xlt.fq ++ [nextFaultId s] ∧
         t.xlt.nextId = nextFaultId s + 1 ∧ l1Of t fb (corePort n) = l1Of s fb (corePort n) ∧
         (s.xlt.faults.length < 2 ^ 32 → ∀ g ∈ s.xlt.faults, g.id ≠ nextFaultId s) ∧
         ∃ f, t.xlt.faults = s.xlt.faults ++ [f] ∧ f.id = nextFaultId s ∧ f.cause = 2 ∧ f.acc = acc ∧ f.ctx = ctx ∧
           f.seg = seg ∧ f.page = page ∧ f.dva = dva ∧ f.entry = e ∧ f.joined = [⟨.thread n u, acc, dva⟩]))

/-- Commands that write device memory themselves: WRITE_INLINE, SIGNAL, QUERY and ATTEST put their bytes where their
address translates and then complete at the point of their class; SIGNAL ADD adds to the word at its home. Where such
a command completes: at once where its class is below GLOBAL or no link carried its writes; at GLOBAL it waits for a
zero-length read on each link that carried one (R276). -/
def Obligations.WritingCommands : Prop :=
  (∀ (h : Hdr) (dst part len : Nat) (data nonce : List Byte) (v old : Word) (s s1 s2 : State) (ls : List Nat),
     let c (op : Nat) : Cmd := cmdOf h op
     let rq := cmdReq h.ring h.seq h.ctx
     (Starts s s1 0x13 h [(8, 8, dst), (16, 2, data.length), (64, data.length, leNat data)] → data ≠ [] →
       data.length ≤ 3968 → accessWrite true s1 rq dst data = .done s2 [] ls →
       exec (.writeInline h dst data) s = .next (settleCmd s2 (c 0x13) ls)) ∧
     (Starts s s1 0x32 h [(1, 1, 0), (8, 8, dst), (16, 8, v.toNat)] → dst % 8 = 0 →
       accessWrite false s1 rq dst (leBytes 8 v.toNat) = .done s2 [] ls →
       exec (.signal h 0 dst v) s = .next (settleCmd s2 (c 0x32) ls)) ∧
     (∀ dpa s3, Starts s s1 0x32 h [(1, 1, 1), (8, 8, dst), (16, 8, v.toNat)] → dst % 8 = 0 →
       Fresh s1 (.cmd h.ring h.seq) → xlate s1 rq 2 dst 8 = (s3, .ok (.dev dpa)) → memAtom s3 dpa 2 v 0 = (s2, .ok old) →
       exec (.signal h 1 dst v) s = .next (settleCmd s2 (c 0x32) [])) ∧
     (Starts s s1 0x70 h [(1, 1, part), (8, 8, dst)] → part ≤ 4 → dst % 256 = 0 →
       accessWrite true s1 rq dst (queryPage s1 part) = .done s2 [] ls →
       exec (.query h part dst) s = .next (settleCmd s2 (c 0x70) ls)) ∧
     (∀ s3 bs, Starts s s1 0x80 h [(1, 1, part), (8, 8, dst), (16, 4, len), (32, 32, leNat nonce)] → part ≤ 1 →
       dst % 256 = 0 → attestLen part ≤ len → (part = 1 → leNat nonce = 0) → attestBytes s1 part nonce = (s3, bs) →
       accessWrite true (s3.modCmd h.ring h.seq fun x => { x with addr := bs.length }) rq dst bs = .done s2 [] ls →
       exec (.attest h part dst len nonce) s = .next (settleCmd s2 (c 0x80) ls))) ∧
  (∀ (s : State) (h : Hdr) (op : Nat) (ls : List Nat), s.cmd? h.ring h.seq = some (cmdOf h op) → op ≠ 0x80 →
     s.iso (h.ring / 16) = false →
     let t := settleCmd s (cmdOf h op) ls
     let zs := zlrLinks s (addLinks [] ls)
     (h.vis < 2 ∨ zs = [] → Completed s t h op stDONE 0 ∧ OnlyHost s t) ∧
     (h.vis = 2 → zs ≠ [] → OnlyHost s t ∧ t.host.held = s.host.held ∧
       t.cmd? h.ring h.seq = some { cmdOf h op with links := zs } ∧ ∀ l ∈ zs, ZWho.cmd h.ring h.seq ∈ (t.link l).zlr) ∧
     ∀ l ∈ ls, l ∈ (t.ring h.ring).hostLinks)

/-- WAIT starts to poll and completes at a poll that its comparison holds for; BELL waits for its sequence's release,
and completes where it has been released; FENCE completes once earlier commands have and the remote writes of earlier
launches have reached its class's point. -/
def Obligations.WaitingCommands : Prop :=
  ∀ (h : Hdr) (cmp addr dpa g : Nat) (v : Word) (host : Option Word) (q : W32) (bs : List Byte) (s s1 s2 : State),
    let a := Agent.cmd h.ring h.seq
    let holds (w : Word) :=
      (cmp = 0 ∧ w = v) ∨ (cmp = 1 ∧ w ≠ v) ∨ (cmp = 2 ∧ v.toNat ≤ w.toNat) ∨ (cmp = 3 ∧ w.toNat < v.toNat)
    let polls (w : Word) (host : Option Word) (u : State) :=
      (holds w → Gives (.waitPollRead h.ring h.seq host) s fun t => Completed s t h 0x31 stDONE 0 ∧ t.mem = u.mem) ∧
      (¬ holds w → exec (.waitPollRead h.ring h.seq host) s = .next (park u (cmdOf h 0x31) (.wait cmp addr v)))
    (Startable s 0x31 h [(1, 1, cmp), (8, 8, addr), (16, 8, v.toNat)] → cmp ≤ 3 → addr % 8 = 0 →
      Gives (.wait h cmp addr v) s fun t =>
        OnlyHost s t ∧ t.cmd? h.ring h.seq = some (cmdOf h 0x31) ∧ (h.ring, h.seq, .wait cmp addr v) ∈ t.host.parked ∧
        t.host.held = s.host.held) ∧
    (s.cmd? h.ring h.seq = some (cmdOf h 0x31) → s.host.parked = [(h.ring, h.seq, .wait cmp addr v)] → cmp ≤ 3 →
      agentWaits s a = false → Fresh s a → s.iso (h.ring / 16) = false →
      (xlate s (cmdReq h.ring h.seq h.ctx) 0 addr 8 = (s1, .ok (.dev dpa)) → memRead s1 dpa 8 = (s2, .ok bs) →
        polls (BitVec.ofNat 64 (leNat bs)) host (readsDone s2 a)) ∧
      ∀ l w, xlate s (cmdReq h.ring h.seq h.ctx) 0 addr 8 = (s1, .ok (.host l dpa)) → (s1.link l).retraining = false →
        polls w (some w) s1) ∧
    (Startable s 0x33 h [(1, 1, g), (4, 4, q.toNat)] → (s.group g).state = 1 → (s.group g).ctx = h.ctx →
      (∀ e ∈ s.host.parked, ∀ i k, e.2.2 ≠ .bell i k) →
      (0 < ((s.group g).nextBell - q).toInt → Gives (.bellCmd h g q) s fun t =>
        Completed s t h 0x33 stDONE 0 ∧ OnlyHost s t) ∧
      (((s.group g).nextBell - q).toInt ≤ 0 → Gives (.bellCmd h g q) s fun t =>
        OnlyHost s t ∧ t.cmd? h.ring h.seq = some (cmdOf h 0x33) ∧ (h.ring, h.seq, .bell g q) ∈ t.host.parked ∧
        t.host.held = s.host.held)) ∧
    (Starts s s1 0x30 h [] → exec (.fenceCmd h) s = .next (
      if fenceOut s1 h.ring h.vis = true then park s1 (cmdOf h 0x30) .fence
      else settleCmd (unpark s1 h.ring h.seq) (cmdOf h 0x30) (s1.ring h.ring).hostLinks))

/-- A LAUNCH waits for its cores with its parameters; one whose image lies in no segment with the X right completes
XLT_RIGHTS. A core takes its next launch: the image stands in its instruction store from 0x4000, each thread the
launch names is READY at its entry with its argument in s1, the other kernel threads are as before. A LAUNCH whose
threads have all ended completes: DONE, or with the fault of its lowest core and there its lowest thread; one that
ends early first holds its threads. -/
def Obligations.Launches : Prop :=
  (∀ (h : Hdr) (threads : BitVec 16) (len image entry : Nat) (arg : Word) (cores : List Nat) (s : State),
     Startable s 0x20 h
       [(2, 2, threads.toNat), (4, 4, len), (8, 8, image), (16, 2, entry), (24, 8, arg.toNat), (64, 512, bitmapOf cores)] →
     threads ≠ 0 → threads.getLsbD 0 = false → 0 < len → len % 8 = 0 → len ≤ 49152 → image % 8 = 0 → entry % 8 = 0 →
     entry < len → (s.ctx h.ctx).closing = false → (∀ n ∈ cores, n ≤ 4095 ∧ inService s n = true) →
     (grantsX s h.ctx image = true → Gives (.launch h threads len image entry arg cores) s fun t =>
       OnlyHost s t ∧ t.cmd? h.ring h.seq = some (cmdOf h 0x20) ∧ t.host.held = s.host.held ∧
       t.host.launches = s.host.launches ++ [⟨h.ring, h.seq, h.ctx, threads, len, image, entry, arg, cores, [], [], false⟩]) ∧
     (grantsX s h.ctx image = false → Gives (.launch h threads len image entry arg cores) s fun t =>
       Completed s t h 0x20 stRIGHTS image ∧ OnlyHost s t ∧ t.host.launches = s.host.launches)) ∧
  (∀ (n dpa : Nat) (l : Launch) (img : List Byte) (rest : List Launch) (s s1 s2 : State), s.host.launches = l :: rest →
     n ∈ l.waiting → n ∉ l.taken → l.stopped = false → l.faults = [] → (s.ctx l.ctx).state = 1 → ctxHeld s l.ctx = false →
     (s.core n).reset = false → (s.core n).monFault = false → s.iso (coreFb n) = false → inService s n = true →
     (s.core n).launch = none → agentWaits s (.image n) = false → readsOf s (.image n) = [] → l.imageLen ≤ 49152 →
     xlateAll (s.modCore n fun c => { c with launch := some (l.ring, l.seq), ctx := l.ctx })
       ⟨coreFb n, corePort n, l.ctx, .image n⟩ 3 l.image l.imageLen = (s1, .ok [(.dev dpa, l.imageLen)]) →
     memRead s1 dpa l.imageLen = (s2, .ok img) →
     Gives (.launchCoreTake n) s fun t =>
       (t.core n).launch = some (l.ring, l.seq) ∧ (t.core n).ctx = l.ctx ∧
       (∀ a, Memory.read (t.core n).is_ a =
         if 0x4000 ≤ a ∧ a < 0x4000 + img.length then img.getD (a - 0x4000) 0 else Memory.read (s.core n).is_ a) ∧
       (∀ u, 0 < u → u < 16 →
         if l.threads.getLsbD u then
           (t.thr n u).st = .ready ∧ (t.thr n u).pc = BitVec.ofNat 16 (0x4000 + l.entry) ∧ (t.thr n u).rs 1 = l.arg ∧
           (∀ j, j % 64 ≠ 1 → (t.thr n u).rs j = 0) ∧ (t.thr n u).flg = 0
         else t.thr n u = s.thr n u) ∧
       t.thr n 0 = s.thr n 0 ∧ (∀ m, m ≠ n → t.core m = s.core m) ∧
       ∃ l', t.host.launches = l' :: rest ∧ l'.waiting = l.waiting.filter (· ≠ n) ∧ l'.taken = l.taken ++ [n]) ∧
  (∀ (h : Hdr) (l : Launch) (s : State), s.launch? h.ring h.seq = some l → s.cmd? h.ring h.seq = some (cmdOf h 0x20) →
     s.iso (h.ring / 16) = false → l.waiting = [] → l.ring = h.ring → l.seq = h.seq →
     launchOps s l = false → (s.ctx l.ctx).state = 1 →
     let freed (t : State) : Prop := ∀ n ∈ l.taken, (s.core n).launch = some (h.ring, h.seq) → (t.core n).launch = none
     (l.faults = [] → l.stopped = false → (∀ e ∈ launchThreads s l, e.2.2.st = .off) →
       (∀ e ∈ launchThreads s l, opsPending s e.1 e.2.1 h.vis = false) →
       h.vis < 2 ∨ zlrLinks s (launchLinks s l) = [] →
       Gives (.launchComplete h.ring h.seq) s fun t =>
         Completed s t h 0x20 stDONE 0 ∧ freed t ∧ t.launch? h.ring h.seq = none) ∧
     (∀ f, l.faults = [f] → (∀ e ∈ launchThreads s l, stopped e.2.2 = true) →
       Gives (.launchComplete h.ring h.seq) s fun t =>
         Ended t h ∧ freed t ∧ t.launch? h.ring h.seq = none ∧
         (f.status ≠ stDIELOST → f.status ≠ stDONE → ∃ r ∈ tget [] t.host.held (s.ring h.ring).cq,
           r.seq = h.seq ∧ r.status = f.status ∧ r.d16 = f.pc ∧ r.d64 = f.addr ∧
           r.d32 = (f.core + 2 ^ 12 * f.thread + 2 ^ 16 * f.cause + 2 ^ 24 + 2 ^ 25 * b2n l.stopped +
             2 ^ 26 * b2n f.monitor) % 2 ^ 32)))

/-- FW_STAGE: OPEN erases its slot and opens the session, WRITE stores the bytes it read, COMMIT verifies the slot or
erases it, CANCEL erases it, RATIFY and OWNER_ENROLL record their request for the next start, ACTIVATE begins a warm
start; where SEC_STATUS.STAGE does not permit an operation it completes RESOURCE with no effect. PLDM's updates act on
the sideband as FW_STAGE does on the command rings, on the slot that is not running. -/
def Obligations.FirmwareUpdates : Prop :=
  (∀ (h : Hdr) (slot off len src : Nat) (a : Alm) (bs : List Byte) (ls : List Nat) (s s1 s2 : State),
     let ready (sub : Nat) (fs : List (Nat × Nat × Nat)) : Prop := Startable s 0x81 h ((1, 1, sub) :: fs)
     let only (t : State) : Prop := { t with host := s.host, sec := s.sec, boot := { t.boot with slots := s.boot.slots } } = s
     let x := s.fw s.sec.slot
     (ready 0 [(2, 1, slot)] → slot ≤ 1 → slot ≠ s.boot.slot → s.sec.stage = 0 →
       CmdGives s (.fwStageOpen h slot) h 0x81 stDONE fun t => only t ∧
         t.sec = { s.sec with stage := 1, slot := slot, written := [] } ∧ t.fw slot = {} ∧
         ∀ i, i ≠ slot → t.fw i = s.fw i) ∧
     (Starts s s1 0x81 h [(1, 1, 1), (4, 4, off), (8, 4, len), (16, 8, src)] → s.sec.stage = 1 →
       stageRange off len = true → stageWritten s off len = false →
       accessRead s1 (cmdReq h.ring h.seq h.ctx) 0 src len = .done s2 bs ls →
       Gives (.fwStageWrite h off len src) s fun t => Completed s t h 0x81 stDONE 0 ∧
         t.sec = { s.sec with written := s.sec.written ++ [(off, bs.length)] } ∧
         (∀ k, Memory.read (t.fw s.sec.slot).cells k =
           if off ≤ k ∧ k < off + bs.length then bs.getD (k - off) 0 else Memory.read x.cells k) ∧
         ∀ i, i ≠ s.sec.slot → t.fw i = s.fw i) ∧
     (ready 2 [] → s.sec.stage = 1 → Config.parseAlmanac x.cells = some a →
       almOk a s.sec.almOwner s.sec.rollback = true →
       CmdGives s (.fwStageCommit h) h 0x81 stDONE fun t => only t ∧ t.sec.stage = 3 ∧
         t.fw s.sec.slot = { x with alm := some a, trialFailed := false }) ∧
     (ready 2 [] → s.sec.stage = 1 →
       (∀ b, Config.parseAlmanac x.cells = some b → almOk b s.sec.almOwner s.sec.rollback = false) →
       CmdGives s (.fwStageCommit h) h 0x81 stBADPARAM fun t => only t ∧ t.sec = { s.sec with stage := 0 } ∧
         t.fw s.sec.slot = {}) ∧
     (ready 3 [] → s.sec.stage = 1 ∨ s.sec.stage = 3 →
       CmdGives s (.fwStageCancel h) h 0x81 stDONE fun t => only t ∧ t.sec = { s.sec with stage := 0 } ∧
         t.fw s.sec.slot = {}) ∧
     (Starts s s1 0x81 h [(1, 1, 4)] → s.sec.stage = 3 →
       exec (.fwStageActivate h) s =
         .next (warmStart (flushHeld 32 (finishSt s1 h.ring h.seq stDONE 0) [(s1.ring h.ring).cq]))) ∧
     (ready 5 [] → s.sec.stage = 0 → ratifyOk s = true →
       CmdGives s (.fwStageRatify h) h 0x81 stDONE fun t => only t ∧ t.sec = { s.sec with ratify := true }) ∧
     (Starts s s1 0x81 h [(1, 1, 6), (8, 4, 171), (16, 8, src)] → s.sec.stage = 0 →
       accessRead s1 (cmdReq h.ring h.seq h.ctx) 0 src 171 = .done s2 bs ls →
       (enrollOk s bs = true → Gives (.ownerEnroll h 171 src) s fun t => Completed s t h 0x81 stDONE 0 ∧
         t.sec.enroll = some bs ∧ { t.sec with enroll := s.sec.enroll, meas := s.sec.meas } = s.sec) ∧
       (enrollOk s bs = false → Gives (.ownerEnroll h 171 src) s fun t => Completed s t h 0x81 stBADPARAM 0 ∧
         t.sec = s.sec)) ∧
     (ready 2 [] → s.sec.stage ≠ 1 → CmdGives s (.fwStageCommit h) h 0x81 stRESOURCE (OnlyHost s))) ∧
  (∀ (off : Nat) (data : List Byte) (a : Alm) (s : State), pldmUp s = true →
     let only (t : State) : Prop := { t with sec := s.sec, boot := { t.boot with slots := s.boot.slots } } = s
     let x := s.fw s.sec.slot
     (s.sec.stage = 0 → Gives .pldmRequestUpdate s fun t => only t ∧
       t.sec = { s.sec with
         stage := 2, slot := if s.boot.slot = 0 then 1 else 0, written := [], updateMode := false } ∧
       t.fw t.sec.slot = {}) ∧
     (s.sec.stage ≠ 0 → exec .pldmRequestUpdate s = .next { s with sec := { s.sec with updateMode := true } }) ∧
     (s.sec.stage = 2 → off + data.length ≤ slotSize → stageWritten s off data.length = false →
       Gives (.pldmImageTransfer off data) s fun t => only t ∧
         t.sec = { s.sec with written := s.sec.written ++ [(off, data.length)] } ∧
         ∀ k, Memory.read (t.fw s.sec.slot).cells k =
           if off ≤ k ∧ k < off + data.length then data.getD (k - off) 0 else Memory.read x.cells k) ∧
     (s.sec.stage = 2 → Config.parseAlmanac x.cells = some a → almOk a s.sec.almOwner s.sec.rollback = true →
       Gives .pldmVerifyComplete s fun t => only t ∧ t.sec.stage = 3 ∧
         t.fw s.sec.slot = { x with alm := some a, trialFailed := false }) ∧
     (s.sec.stage = 3 → starting s = false → exec .pldmActivateFirmware s = .next (warmStart s)) ∧
     (s.sec.stage = 2 ∨ s.sec.stage = 3 → Gives .pldmCancelUpdate s fun t => only t ∧
       t.sec = { s.sec with stage := 0 } ∧ t.fw s.sec.slot = {}) ∧
     Gives .pldmGetFirmwareParameters s fun t => { t with sec := s.sec } = s ∧
       { t.sec with params := s.sec.params } = s.sec ∧ (t.sec.params.map (·.2.1)) = [slotSeq s 0, slotSeq s 1])

/-- RGL_SET installs an admitted entry at every port of its set with a full bucket, and one that admission refuses
completes with status 0x0500 and no effect; PWR_SET binds its cap and waits for a round of budgets. A request packet
at a metered port: under FREE it enters at BEST_EFFORT, under GUARANTEED with credit it is charged and enters at
GUARANTEED, without credit at BEST_EFFORT, and under CAPPED without credit it waits; it waits as well behind an
earlier one of its class or its lines, and another agent's enters at GUARANTEED; a refill raises each level by its
rate up to its depth. -/
def Obligations.Regulation : Prop :=
  (∀ (h : Hdr) (e : RglEntry) (cap : Nat) (s : State), s.rgl.wait = [] →
     (Startable s 0x71 h (rglFields e) → rglBad e = false →
       (rglAdmits s (tset [] s.rgl.charges e.cls e.charges) = true → Gives (.rglSet h e) s fun t =>
         Completed s t h 0x71 stDONE 0 ∧ tget [] t.rgl.charges e.cls = e.charges ∧
         (∀ c, c ≠ e.cls → tget [] t.rgl.charges c = tget [] s.rgl.charges c) ∧
         (∀ p ∈ portSet e.portset e.index, tget {} t.rgl.buckets (bucketKey p.1 p.2 e.cls) =
           ({ mode := e.mode, rate := e.rate, burst := e.burst, level := (256 * e.burst : Nat) } : Bucket)) ∧
         ∀ k, (∀ p ∈ portSet e.portset e.index, k ≠ bucketKey p.1 p.2 e.cls) →
           tget {} t.rgl.buckets k = tget ({} : Bucket) s.rgl.buckets k) ∧
       (rglAdmits s (tset [] s.rgl.charges e.cls e.charges) = false → CmdGives s (.rglSet h e) h 0x71 0x0500 (OnlyHost s))) ∧
     (Startable s 0x72 h [(0, 1, 1), (2, 2, cap)] → 1200 ≤ cap → cap ≤ s.pwr.ceilingW →
       Gives (.pwrSet h cap) s fun t =>
         t.pwr = { s.pwr with capW := cap } ∧ { t with host := s.host, pwr := s.pwr } = s ∧
         t.cmd? h.ring h.seq = some (cmdOf h 0x72) ∧ (h.ring, h.seq, .budget (upFbs s)) ∈ t.host.parked)) ∧
  (∀ (fb port tag dpa bytes : Nat) (atomic : Bool) (s : State),
     let cls := (ratOf s dpa).rclass
     let charge := if atomic then 64 else bytes
     let key := bucketKey fb port cls
     let b : Bucket := tget {} s.rgl.buckets key
     let x : Inj := ⟨fb, port, tag, dpa, bytes, cls, charge, 2, 0⟩
     let gives (p : State → Prop) : Prop := Gives (.packetInjection fb port tag dpa bytes atomic) s p
     let entered (prio : Nat) (pay : Int) : Prop := gives fun t =>
       t.msh.inj = s.msh.inj ++ [{ x with prio := prio, sends := 1 }] ∧ t.rgl.wait = s.rgl.wait ∧
       (tget {} t.rgl.buckets key : Bucket).level = b.level - pay ∧
       (∀ k, k ≠ key → tget {} t.rgl.buckets k = tget ({} : Bucket) s.rgl.buckets k) ∧
       { t with rgl := s.rgl, msh := s.msh } = s
     let waits : Prop := gives fun t => t = { s with rgl := { s.rgl with wait := s.rgl.wait ++ [x] } }
     ((∀ y ∈ s.msh.inj ++ s.rgl.wait, ¬ (y.fb = fb ∧ y.port = port ∧ y.tag = tag)) →
       (x.held s = true → waits) ∧
       (x.held s = false → 293 ≤ port → entered 1 0) ∧
       (x.held s = false → port < 293 →
         (b.mode = 0 → entered 2 0) ∧ (b.mode = 1 → 0 < b.level → entered 1 charge) ∧
         (b.mode = 1 → b.level ≤ 0 → entered 2 0) ∧ (b.mode = 2 → 0 < b.level → entered 2 charge) ∧
         (b.mode = 2 → b.level ≤ 0 → waits))) ∧
     (s.rgl.wait = [] → (tkeys s.rgl.buckets).Nodup → Gives .bucketRefill s fun t =>
       { t with rgl := s.rgl } = s ∧ { t.rgl with buckets := s.rgl.buckets } = s.rgl ∧
       ∀ k, let b : Bucket := tget {} s.rgl.buckets k
         tget {} t.rgl.buckets k = ({ b with
           level := min (256 * b.burst : Nat) (b.level +
             (b.rate * 8 * (if b.mode = 1 then classFactor s.rgl (k % 8) else 1024) / 1024 : Nat)) } : Bucket)) ∧
     ∀ r, Gives (.scaleFactorUpdate r (deliverable s r)) s fun t =>
       tget 0 t.rgl.deliver r = deliverable s r ∧ tget 1024 t.rgl.factor r = factorOf s.rgl r (deliverable s r) ∧
       (∀ j, j ≠ r → tget 1024 t.rgl.factor j = tget 1024 s.rgl.factor j) ∧ t.rgl.buckets = s.rgl.buckets)

/-- RED_GROUP_CREATE installs a group whose description and staging pass, ACTIVE with every sequence 0, and completes
RESOURCE where its number is taken or its staging does not fit; RED_GROUP_DESTROY frees a group that is idle. -/
def Obligations.GroupCommands : Prop :=
  ∀ (h : Hdr) (d : GroupDesc) (k : Nat) (force : Bool) (s : State),
    let g := newGroup s h.ctx d
    (Startable s 0x50 h (groupFields d) → groupBad s h.ctx d = false →
      ((s.group d.group).state = 0 → stagingOk s g d = true →
        CmdGives s (.redGroupCreate h d) h 0x50 stDONE fun t =>
          { t with host := s.host, mil := s.mil } = s ∧ { t.mil with groups := s.mil.groups } = s.mil ∧
          (t.group d.group).state = 1 ∧ (t.group d.group).ctx = h.ctx ∧ (t.group d.group).desc = some d ∧
          (t.group d.group).nextSeq = 0 ∧ (t.group d.group).nextBell = 0 ∧
          ∀ j, j ≠ d.group → t.group j = s.group j) ∧
      ((s.group d.group).state ≠ 0 ∨ stagingOk s g d = false →
        CmdGives s (.redGroupCreate h d) h 0x50 stRESOURCE (OnlyHost s))) ∧
    (Startable s 0x51 h [(0, 1, 1), (1, 1, k), (2, 1, b2n force)] → (s.group k).state ≠ 0 → (s.group k).ctx = h.ctx →
      (groupBusy s k = false → (∀ e ∈ s.host.parked, ∀ q, e.2.2 ≠ .bell k q) →
        Gives (.redGroupDestroy h k force) s fun t =>
          Completed s t h 0x51 stDONE 0 ∧ t.group k = {} ∧ (∀ f ∈ t.mil.flight, f.m.group ≠ k) ∧
          ∀ j, j ≠ k → t.group j = s.group j) ∧
      (groupBusy s k = true → (s.group k).state ≠ 3 → force = false →
        CmdGives s (.redGroupDestroy h k force) h 0x51 stRESOURCE (OnlyHost s)))

/-- COPY, COPY_ND and FILL whose parameters are in range join the queue of their pool: H2D from a HOST source, D2H to
a HOST destination, D2D otherwise. A pool's oldest command takes the lowest free slot of its Carter with the fewest
occupied slots, the lowest number first, and the Carter goes on; disabled Carters take none. Chunks in order: a Carter
translates its next chunk, source first, and takes its data; the chunk's write issues with its bytes, and at its
acknowledgement the homes have performed it and it counts; a command whose chunks and flags are all done frees its
slot and completes DONE with the number of its chunks. After each the Carter goes on. -/
def Obligations.CarterCommands : Prop :=
  (∀ (h : Hdr) (fl : FlagOpt) (src dst bytes side count0 plen : Nat) (dims : List Dim) (pattern : List Byte) (s : State),
     let runs (i : Sys2Proof.Instr) (op : Nat) (j : CarJob) : Prop := Gives i s fun t =>
       { t with host := s.host, car := s.car } = s ∧ { t.car with queue := s.car.queue } = s.car ∧
       t.cmd? h.ring h.seq = some (cmdOf h op) ∧ t.host.held = s.host.held ∧
       t.car.queue = s.car.queue ++ [(h.ring / 16,
         if op ≠ 0x12 ∧ inHost s h.ctx src = true then 0 else if inHost s h.ctx dst = true then 1 else 2, j)]
     let copy := jobOf h 0x10 fl bytes src dst 0 bytes [] []
     let nd := jobOf h 0x11 fl (dims.foldl (fun a d => a * d.count) count0) src dst side count0 dims []
     let p := (pattern ++ List.replicate 32 0).take (2 ^ plen)
     let fill := jobOf h 0x12 fl bytes 0 dst 0 bytes [] p
     (Startable s 0x10 h [(1, 1, flagByte fl), (8, 8, src), (16, 8, dst), (24, 8, bytes), (32, 8, fl.dva)] →
       copy.bad = false → runs (.copy h fl src dst bytes) 0x10 copy) ∧
     (Startable s 0x11 h ([(1, 1, flagByte fl), (2, 1, dims.length + 1), (3, 1, side), (4, 4, count0), (8, 8, src),
         (16, 8, dst), (24, 8, fl.dva)] ++ (List.range dims.length).map fun i => (32 + 8 * i, 8, dimWord (dims.getD i ⟨0, 0⟩))) →
       nd.bad = false → runs (.copyNd h fl side count0 src dst dims) 0x11 nd) ∧
     (Startable s 0x12 h [(1, 1, flagByte fl), (2, 1, plen), (8, 8, dst), (16, 8, bytes), (24, 8, fl.dva),
         (32, p.length, leNat p)] → plen ≤ 5 →
       fill.bad = false → runs (.fill h fl plen dst bytes pattern) 0x12 fill)) ∧
  (∀ (fb pool c i : Nat) (j : CarJob) (pre post : List (Nat × Nat × CarJob)) (s : State),
     s.car.queue = pre ++ (fb, pool, j) :: post → (∀ e ∈ pre, ¬ (e.1 = fb ∧ e.2.1 = pool)) → s.iso fb = false →
     let open_ (x : Nat) : Prop := (tget 0 s.car.disable fb : BitVec 12).getLsbD x = false ∧ occupied s fb x < 4
     4 * pool ≤ c → c < 4 * pool + 4 → open_ c →
     (∀ x, 4 * pool ≤ x → x < 4 * pool + 4 → open_ x →
       occupied s fb c < occupied s fb x ∨ (occupied s fb c = occupied s fb x ∧ c ≤ x)) →
     i < 4 → (s.slot fb c i).state = 0 → (∀ k, k < i → (s.slot fb c k).state ≠ 0) →
     exec (.carterSlotTake fb pool) s = .next (carPump
       (({ s with car := { s.car with queue := pre ++ post } }).setSlot fb c i { state := 1, job := some j }) fb c)) ∧
  (∀ (fb car sl a k at_ : Nat) (j : CarJob) (src dst : List (Tgt × Nat)) (us vs : List (List (Nat × Tgt × Nat)))
     (bs : List Byte) (rs : List CarRead) (h : Hdr) (s s1 s2 : State),
     let c := s.slot fb car sl
     let who := Agent.chunk fb car sl k
     let goesOn (i : Sys2Proof.Instr) (p : State → Prop) : Prop := ∃ u, exec i s = .next (carPump u fb car) ∧ p u
     c.job = some j →
     (c.asked = k → xlateRuns s (carReq fb car j.ctx who) 0 (j.srcRuns k) c.src = (s1, none, us) →
       xlateRuns s1 (carReq fb car j.ctx who) 1 (j.dstRuns k) c.dst = (s2, none, vs) →
       (carAsk s fb car sl).slot fb car sl = { c with
         asked := k + 1, src := [], dst := []
         reads := c.reads ++ [⟨k, us.flatten.map (·.2), vs.flatten.map (·.2), s.host.issued,
           if j.op = 0x12 then some (j.fillBytes k) else none⟩] }) ∧
     (c.reads = [⟨k, src, dst, at_, none⟩] → readsOf s who = [] → (∀ i, i < 4 → (s.slot fb car i).pend = []) →
       (∀ i, i < 4 → i ≠ sl → (s.slot fb car i).reads = []) → readPieces s src [] = (s1, .ok bs) →
       goesOn (.carterChunkReadData fb car sl k []) fun u =>
         u.slot fb car sl = { c with reads := [⟨k, src, dst, at_, some bs⟩] } ∧ u.mem = s1.mem ∧ u.gmem = s1.gmem ∧
         u.hostMem = s.hostMem) ∧
     (c.reads = ⟨c.next, src, dst, at_, some bs⟩ :: rs → (∀ r ∈ rs, r.k ≠ c.next) →
       (∀ i x, i < 4 → (s.slot fb car i).job = some x → x.vis ≠ 0) →
       (carIssue s fb car sl).slot fb car sl = { c with
         next := c.next + 1, reads := rs
         pend := c.pend ++ [⟨c.next, (wholeLine dst bs).2, (wholeLine dst bs).1, s.host.issued, false⟩] }) ∧
     (c.pend = [⟨k, bs, [(.dev a, bs.length)], at_, false⟩] → (∀ i, i < 4 → i ≠ sl → (s.slot fb car i).pend = []) →
       portFree s fb car at_ [(.dev a, bs.length)] = true → j.vis = 1 → j.fl.on = false → c.vis = k → c.beyond = [] →
       memWrite s a bs = (s1, none) → sl < 4 →
       goesOn (.carterChunkWriteAck fb car sl k) fun u =>
         u.mem = s1.mem ∧ u.gmem = s1.gmem ∧ u.hostMem = s.hostMem ∧ (u.slot fb car sl).pend = [] ∧
         (u.slot fb car sl).vis = k + 1 ∧
         tget 0 u.car.written (12 * fb + car) = tget 0 s.car.written (12 * fb + car) + bs.length) ∧
     (c.reads = [] → c.pend = [] → c.flagLinks = [] → c.fail = none → c.vis = j.chunks →
       (j.fl.on = true → c.groups = j.groups) → j.ring = h.ring → j.seq = h.seq →
       s.cmd? h.ring h.seq = some (cmdOf h j.op) → s.iso (h.ring / 16) = false →
       goesOn (.carterComplete fb car sl) fun u =>
         Ended u h ∧ u.slot fb car sl = {} ∧ u.mem = s.mem ∧ u.hostMem = s.hostMem ∧
         (h.compl ≠ 0 → ∃ r ∈ tget [] u.host.held (s.ring h.ring).cq,
           r.seq = h.seq ∧ r.op = j.op ∧ r.status = stDONE ∧ r.d32 = j.chunks % 2 ^ 32 ∧ r.tag = h.tag)))

/-! ### Memory -/

/-- A read at a home bank answers the bytes that the line holds and changes none of device memory; an uncorrectable
error of a dirty line fails the read and leaves the line LOST; a write and an atomic answer what the home did.
GRN_CTRL.ENABLE and GRN_PART: enabling an OFF cache turns it ON, disabling one that is ON starts its sweep, whose end
leaves no line of the FB resident and every byte of memory as it was; a valid partition begins REPARTITION, an invalid
one is discarded and logged; a bank's switch zeroes the scratch it gains. A region-table update that its checks pass
installs the staged entry, holds the ranges whose policy may change and is busy until its sweep has ended and every
access of the old entry is complete; one that they refuse leaves the table and says why; one while busy is discarded
and logged. -/
def Obligations.Granary : Prop :=
  (∀ (dpa len w : Nat) (bad : List Nat) (data : List Byte) (b c old : Word) (op : Nat) (s s1 : State), isDev dpa = true →
     s.iso (homeQ dpa) = false → ratHeld s dpa = false → s.lost (dpa / 256) = false → dpa % 256 + len ≤ 256 → 0 < len →
     LinesOfMemory s →
     ((∀ x ∈ burstsOf dpa len, burstHeld s x = false ∧ burstDead s x = false ∧ burstBad s x = false) →
       Gives (.granaryBankAccess dpa len false [] .ok bad) s fun t =>
         t.dram.resp = .data ((List.range len).map fun i => view s (dpa + i)) ∧ SameBytes s t) ∧
     (s.cline (dpa / 256) = some ⟨w, true, false⟩ → Gives (.granaryBankAccess dpa len false [] .uncorrectable bad) s fun t =>
       t.dram.resp = .fail 0x0301 dpa ∧ t.lost (dpa / 256) = true ∧ t.cline (dpa / 256) = none) ∧
     (s.cline (dpa / 256) = some ⟨w, false, false⟩ → (s.bank (homeQ dpa) (devBank dpa)).disabled.getLsbD w = false → w < 16 →
       (s.grn (homeQ dpa)).scrub = true → windowOf s (homeQ dpa) = s.dram.window →
       Gives (.granaryPatrolScrub dpa .corrected bad) s fun t =>
         let n := tget 0 (s.bank (homeQ dpa) (devBank dpa)).ce w + 1
         (4 ≤ n → (t.bank (homeQ dpa) (devBank dpa)).disabled.getLsbD w = true ∧ t.cline (dpa / 256) = none) ∧
         (n < 4 → tget 0 (t.bank (homeQ dpa) (devBank dpa)).ce w = n ∧ t.dram.lines = s.dram.lines) ∧ SameBytes s t) ∧
     (lineWrite s dpa data = (s1, none) → exec (.granaryBankAccess dpa data.length true data .ok bad) s =
       .next (s1.setResp .ok)) ∧
     (memAtom s dpa op b c = (s1, .ok old) →
       exec (.bankAtomic dpa op b c) s = .next (s1.setResp (.data (leBytes 8 old.toNat))))) ∧
  (∀ (fb b : Nat) (bad : List Nat) (v : Word) (s : State), s.iso fb = false →
     let g := s.grn fb
     let w := bits v.toNat 4 0
     let only (t : State) (g' : Grn) : Prop :=
       t.grn fb = g' ∧ (∀ k, k ≠ fb → t.grn k = s.grn k) ∧ { t with dram := s.dram } = s ∧
       { t.dram with grn := s.dram.grn } = s.dram
     (Gives (.granaryEnable fb) s fun t => only t { g with enable := true, state := if g.state = 0 then 1 else g.state }) ∧
     (Gives (.granaryDisable fb) s fun t => only t { g with enable := false, state := if g.state = 1 then 2 else g.state }) ∧
     (g.state = 2 → g.penPart = none → LinesOfMemory s → Gives (.flushSweepEnd fb bad) s fun t =>
       t.grn fb = { g with state := if g.enable then 1 else 0 } ∧ SameBytes s t ∧
       ∀ l, homeQ (256 * l) = fb → t.cline l = none) ∧
     (w % 2 = 0 → w ≤ 16 → w ≤ maxScratch s fb → (fb = 0 → 2 ≤ w) → g.state < 2 → Gives (.grnPartWrite fb v) s fun t =>
       only t { g with part := w, state := 3, from_ := g.state, target := w, switched := [], penPart := none }) ∧
     (fb < 4 → w % 2 = 1 ∨ 16 < w ∨ maxScratch s fb < w ∨ (fb = 0 ∧ w < 2) →
       exec (.grnPartWrite fb v) s = .next (logEvent s 0x0001 fb 0x07 0 0 (BitVec.ofNat 64 (regOff fb 0x07 0x10)) v)) ∧
     (g.state = 3 → b ∉ g.switched → b < 64 → g.switched.length < 63 → g.target ≤ 16 → LinesOfMemory s →
       Gives (.repartitionBankSwitch fb b bad) s fun t =>
         (t.bank fb b).w = g.target ∧ t.grn fb = { g with switched := g.switched ++ [b] } ∧
         (∀ u a, (s.bank fb b).w ≤ u → u < g.target → inScrWay fb b u a = true → Memory.read t.mem a = 0) ∧
         ∀ f k, f ≠ fb ∨ k ≠ b → f < 4 → k < 64 → (t.bank f k).w = (s.bank f k).w)) ∧
  (∀ (v : Word) (bad : List Nat) (s : State),
     let c := s.dram.ratCmd
     let idx := bits v.toNat 6 0
     let r := stagedRat c
     (c.busy = false → v.getLsbD 9 = true → ratReserved c = false → idx < 64 → r.policy ≤ 4 → r.vis ≠ 3 →
       (r.valid = true → r.base ≤ r.limit) → Gives (.ratUpdate v) s fun t =>
         tget {} t.dram.rat idx = r ∧ (∀ j, j ≠ idx → tget {} t.dram.rat j = tget ({} : Machine.Rat) s.dram.rat j) ∧
         t.dram.ratCmd.busy = true ∧ t.dram.ratCmd.index = idx ∧
         t.dram.ratCmd.hold = (if policyDiffers s t then ratRange (tget {} s.dram.rat idx) idx ++ ratRange r idx else []) ∧
         { t with dram := s.dram } = s ∧ { t.dram with rat := s.dram.rat, ratCmd := c } = s.dram) ∧
     (∀ e, c.busy = false → v.getLsbD 9 = true → ratCheck c idx = some e →
       exec (.ratUpdate v) s = .next { s with dram := { s.dram with ratCmd := { c with index := idx, result := e } } }) ∧
     (c.busy = true → exec (.ratUpdate v) s = .next (regDiscard s (regOff 0 0x07 0x30) 0 v)) ∧
     (c.busy = true → LinesOfMemory s → NothingHeld s → Gives (.ratUpdateDone bad) s fun t =>
       t.dram.ratCmd = (if ratWaits s = true then { c with hold := [] }
         else { c with busy := false, result := 0, hold := [], old := [], oldHome := [], oldInj := [] }) ∧
       SameBytes s t ∧ ∀ l, ratHeld s (256 * l) = true → t.cline l = none))

/-- A controller's read of a burst answers the array's bytes; one that cannot be corrected fails with
MEM_UNCORRECTABLE, its address kept in HBM_UE_ADDR, fails again until the burst is written whole, and its row goes to
repair while its bank has a spare; a write of whole bursts puts its bytes and clears LOST, and one that covers in part
a burst that cannot be read fails and writes nothing. Stacks and channels: a reading at or above 85 doubles the
refresh, below 80 restores it, 95 and 90 do so for the throttle; an idle stack enters self-refresh and an access
brings it out; a retrain ends ACTIVE, STEPPED or RETIRED; a row repair leaves the bursts that could not be read LOST;
zeroing leaves device memory zero but for the firmware's pages. What was held goes on then. -/
def Obligations.MemoryControllers : Prop :=
  (∀ (dpa : Nat) (data : List Byte) (eccs : List Ecc) (e : Ecc) (s : State), isDev dpa = true →
     s.iso (homeQ dpa) = false →
     let x := dpa / 64
     let q := homeQ (64 * x)
     let r := rowOf (64 * x)
     let part := 0 < data.length ∧ dpa % 64 + data.length < 64
     burstHeld s x = false → burstDead s x = false →
     (burstBad s x = false → exec (.memoryRead dpa .ok false) s =
       .next ((wakeStack s (64 * x)).setResp (.data (Memory.readN s.mem (64 * x) 64)))) ∧
     (burstBad s x = false → (s.hbm q).ueValid = false → tget false s.dram.rowFailed r = false →
       repaired s (rowBank r) + (s.dram.repairing.filter fun y => rowBank y = rowBank r).length < spares (stackOf (64 * x)) →
       Gives (.memoryRead dpa .uncorrectable false) s fun t =>
         t.dram.resp = .fail 0x0300 (64 * x) ∧ (t.hbm q).ueValid = true ∧ (t.hbm q).ueAddr = x ∧
         (t.chan q (chanOf (64 * x))).ue = satInc 4095 (s.chan q (chanOf (64 * x))).ue ∧
         t.dram.repairing = s.dram.repairing ++ [r] ∧ t.badBurst x = true ∧ t.mem = s.mem) ∧
     (burstBad s x = true → Gives (.memoryRead dpa e false) s fun t =>
       t.dram.resp = .fail 0x0300 (64 * x) ∧ t.mem = s.mem ∧ burstBad t x = true) ∧
     ((s.hbm (homeQ dpa)).scrub = true → burstBad s x = false →
       exec (.memoryPatrolScrub dpa .ok false) s = .next (wakeStack s (64 * x))) ∧
     (dpa % 64 = 0 → data.length = 64 → Gives (.memoryWrite dpa data eccs) s fun t =>
       t.dram.resp = .ok ∧ t.mem = Memory.writeN s.mem dpa data ∧ burstBad t x = false ∧
       (∀ y, y ≠ x → burstBad t y = burstBad s y) ∧ t.gmem = s.gmem ∧ t.dram.lines = s.dram.lines) ∧
     (burstBad s x = true → part → Gives (.memoryWrite dpa data eccs) s fun t =>
       t.dram.resp = .fail 0x0300 (64 * x) ∧ t.mem = s.mem ∧ burstBad t x = true) ∧
     (burstBad s x = false → part → Gives (.memoryWrite dpa data [.uncorrectable]) s fun t =>
       t.dram.resp = .fail 0x0300 (64 * x) ∧ t.mem = s.mem ∧ t.badBurst x = true) ∧
     (burstBad s x = false → part → Gives (.memoryWrite dpa data [.ok]) s fun t =>
       t.dram.resp = .ok ∧ t.mem = Memory.writeN s.mem dpa data)) ∧
  (∀ (k temp q c result lanes dpa : Nat) (fixed bad : List Nat) (s : State),
     let x := s.stack k
     let y := s.chan q c
     let stack (t : State) (x' : Stack) : Prop := t.stack k = x' ∧ (∀ j, j ≠ k → t.stack j = s.stack j) ∧
       { t with dram := s.dram } = s ∧ { t.dram with hbmStacks := s.dram.hbmStacks } = s.dram
     let lets (u : State) (p : State → Prop) : Prop := p u ∧ (NothingHeld s → unhold u = u)
     (Gives (.stackTemperatureRead k temp) s fun t => stack t { x with
       temp := temp, firstRead := true
       refresh2x := decide (85 ≤ temp ∨ (80 ≤ temp ∧ x.refresh2x = true))
       throttled := decide (95 ≤ temp ∨ (90 ≤ temp ∧ x.throttled = true)) }) ∧
     (x.state ≠ 0 → x.state ≠ 4 → Gives (.refreshInterval k) s fun t => stack t { x with
       intervals := x.intervals + if x.refresh2x then 2 else 1 }) ∧
     (x.state = 2 → 0 < (s.hbm (k / 2)).srIdle → (s.hbm (k / 2)).scrub = false →
       Gives (.selfRefreshEntry k) s fun t => stack t { x with state := 3 }) ∧
     (x.state = 3 → Gives (.selfRefreshExit k) s fun t => stack t { x with state := 2 }) ∧
     (x.state = 3 → s.msReady.getLsbD k = true → k = 2 * homeQ dpa + chanOf dpa / 32 →
       stack (wakeStack s dpa) { x with state := 2 }) ∧
     (y.state = 2 → ∃ u, exec (.channelRetrainDone q c result lanes) s = .next (unhold u) ∧ lets u fun t =>
       (t.chan q c).state = (if result = 0 then (if y.was = 1 then 1 else 0) else if result = 1 then 1 else 3) ∧
       (t.chan q c).lanes = lanes ∧ (∀ j, j ≠ 64 * q + c → tget {} t.dram.chans j = tget ({} : Chan) s.dram.chans j) ∧
       t.mem = s.mem) ∧
     (s.dram.repairing = [rowOf dpa] → ∃ u, exec (.rowRepairDone dpa fixed bad) s = .next (unhold u) ∧ lets u fun t =>
       t.dram.repairing = [] ∧ tget false t.dram.rowDone (rowOf dpa) = true ∧ t.mem = s.mem ∧
       ∀ i, i < 32 → let b := (rowAddr (rowOf dpa) + 128 * i) / 64
         i ∈ bad ∨ s.badBurst b = true → t.lostBurst b = true ∧ t.badBurst b = false) ∧
     (s.dram.zeroing = true → ∃ u, exec .memoryZeroingDone s = .next (settleLoss (unhold u)) ∧ lets u fun t =>
       t.dram.zeroing = false ∧ t.dram.lines = [] ∧ t.gmem = [] ∧ (∀ i, burstBad t i = false) ∧
       (∀ l, isDev (256 * l) = true → t.lost l = false) ∧
       (∀ a, a < 0xBE00000000 → Memory.read t.mem a = 0) ∧
       (∀ p, p < 384 → Memory.readLe t.mem (0xBE00000000 + 8 * p) 8 = p * 2 ^ 31 + 1) ∧
       ∀ a, memTop ≤ a → Memory.read t.mem a = Memory.read s.mem a))

/-! ### Mesh and Mill -/

/-- Flits and ports: a flit enters its lane while it has a credit, and a cancelled packet's are dropped; a frozen port
without a packet or a credit out has drained; a CANCEL at its destination discards the part held and is answered with
a retry, which sends the write again; a remapped edge takes the table that its bundles give and its ports thaw. The
arbiter: an idle port grants a packet, and never one of a lower priority than a packet that it could send; a granted
packet's flit leaves its lane against a credit, on the port that XY routing gives it; while a flit takes its second
cycle to cross a hop nothing more is carried. -/
def Obligations.Mesh : Prop :=
  (∀ (p : MPort) (f : Flit) (lane tag e : Nat) (s : State),
     let x := s.port p
     let k := laneKey p f
     let far := laneKey (farPort p) f
     let thawed (x : Port) : Port := { x with freeze := false, drained := false, rr := [], hopFreeze := false }
     let onlyPort (t : State) (x' : Port) : Prop := t.port p = x' ∧ (∀ r, portKey r ≠ portKey p → t.port r = s.port r) ∧
       { t with msh := s.msh } = s ∧ { t.msh with ports := s.msh.ports } = s.msh
     (f.cancel = false → p.p ≤ 9 → tget false s.msh.dropping k = false → (s.laneQ k).length < laneDepth p.p (laneOf f) →
       p.p ≠ 8 ∨ (s.port (farPort p)).ends = [] → Gives (.meshFlitArrival p f) s fun t =>
         t.laneQ k = s.laneQ k ++ [f] ∧ (∀ j, j ≠ k → t.laneQ j = s.laneQ j) ∧ t.msh.ports = s.msh.ports) ∧
     (f.cancel = false → p.p ≤ 9 → tget false s.msh.dropping k = true → Gives (.meshFlitArrival p f) s fun t =>
       (∀ j, t.laneQ j = s.laneQ j) ∧ tget false t.msh.dropping k = !lastFlit f) ∧
     (0 < tget 0 x.used lane → p.p ≠ 8 → Gives (.creditReturn p lane) s fun t =>
       (∃ u, t.port p = { x with used := u } ∧ tget 0 u lane = tget 0 x.used lane - 1 ∧
         ∀ j, j ≠ lane → tget 0 u j = tget 0 x.used j) ∧ (∀ r, portKey r ≠ portKey p → t.port r = s.port r) ∧
       ∀ j, t.laneQ j =
         if p.p = 9 ∧ j = 12 * portKey (farPort p) + lane then (s.laneQ j).tail else s.laneQ j) ∧
     (s.iso p.fb = false → x.freeze = false → connected s p = true → x.suspG = none → x.suspB = none →
       Gives (.freezeSet p) s fun t => onlyPort t { x with freeze := true }) ∧
     (s.iso p.fb = false → connected s p = true → Gives (.freezeClear p) s fun t => onlyPort t (thawed x)) ∧
     (x.freeze = true → x.quiet = true →
       (x.hopFreeze = false → Gives (.portDrained p) s fun t => onlyPort t { x with drained := true }) ∧
       ∀ g i, x.hopFreeze = true → edgeOf p = some (g, i) → pairUp s g i = true → hopReturns s g i = false →
         Gives (.portDrained p) s fun t => onlyPort t (thawed x)) ∧
     (f.cancel = true → f.type = 0x01 → atDest p f = true → Gives (.cancelFlitReceive p f) s fun t =>
       (8 ≤ p.p → t.laneQ far = wholeOf (s.laneQ far) ∧
         tget 0 (t.port p).used (laneOf f) = tget 0 x.used (laneOf f) - (partOf (s.laneQ far)).length) ∧
       (∀ j, j ≠ far → t.laneQ j = s.laneQ j) ∧ ∃ r, t.msh.retries = s.msh.retries ++ [r] ∧
         r.type = 0x0B ∧ r.tag = f.tag ∧ r.dstRouter = f.srcRouter ∧ r.dstPort = f.srcPort ∧ r.vn = 1) ∧
     (f.tag = tag → atDest p f = true → s.msh.retries = [f] →
       Gives (.retryResponse p tag) s fun t => t.msh.retries = [] ∧ { t with msh := s.msh } = s ∧
         t.msh.inj = s.msh.inj.map fun i =>
           if i.fb = p.fb ∧ i.port = injPort p ∧ i.tag = tag then { i with sends := i.sends + 1 } else i) ∧
     (e < 4 → remapTable s e ≠ remapWord s e → (∀ i, i < 8 → ∀ r ∈ pairPorts e i, connected s r = true →
         (s.port r).freeze = true ∧ (s.port r).drained = true) →
       Gives (.edgeRemap e) s fun t => remapWord t e = remapTable s e ∧ (∀ j, j ≠ e → remapWord t j = remapWord s j) ∧
         (∀ i, i < 8 → (remapTable s e).toNat / 16 ^ i % 16 ≠ (remapWord s e).toNat / 16 ^ i % 16 →
           ∀ r ∈ pairPorts e i, (t.port r).freeze = false) ∧ { t with msh := s.msh } = s)) ∧
  (∀ (p : MPort) (k : Nat) (g : Grant) (f : Flit) (s : State), connected s p = true →
     let x := s.port p
     let far := laneKey (farPort p) f
     (x.ends = [] → x.busy = false → x.grant = none → x.suspG = none → x.suspB = none → x.freeze = false →
       k ∈ heads s p x none → canSend s p x { lane := k } = true → Gives (.arbitrationCycle p) s fun t =>
         (∃ h, (t.port p).grant = some h ∧ (t.port p).dec = some h.lane ∧ h.prio ≤ lanePrio (k % 12)) ∧
         (t.port p).out = none ∧ (p.p ≠ 8 → ∀ j, t.laneQ j = s.laneQ j)) ∧
     (x.busy = false → p.p < 8 → x.grant = some g → x.dec = some g.lane → grantFlits s p g = [f] →
       creditLeft x p.p (laneOf f) 1 = true → Gives (.arbitrationCycle p) s fun t =>
         (t.port p).out = some f ∧ (t.port p).busy = halfRate s p ∧ t.laneQ g.lane = (s.laneQ g.lane).tail ∧
         tget 0 (t.port p).used (laneOf f) = tget 0 x.used (laneOf f) + 1 ∧
         ∀ j, j ≠ g.lane → t.laneQ j = s.laneQ j) ∧
     (x.busy = false → p.p = 9 → x.grant = some g → x.dec = some g.lane → grantFlits s p g = [f] → f.vn = 0 → f.prio ≠ 0 →
       f.cancel = false → g.lane ≠ far → creditLeft x p.p (laneOf f) 1 = true → Gives (.arbitrationCycle p) s fun t =>
         (t.port p).out = some f ∧ t.laneQ g.lane = (s.laneQ g.lane).tail ∧ t.laneQ far = s.laneQ far ++ [f] ∧
         tget 0 (t.port p).used (laneOf f) = tget 0 x.used (laneOf f) + 1) ∧
     (x.busy = true → p.p ≠ 8 → Gives (.arbitrationCycle p) s fun t =>
       (t.port p).out = none ∧ (t.port p).busy = false ∧ (t.port p).used = x.used ∧ ∀ j, t.laneQ j = s.laneQ j) ∧
     (f.detour = false → s.die.fbIso = 0 → s.msh.pair = [] →
       let x := meshX p.fb p.a
       let y := meshY p.fb p.a
       routeFlit s p.fb p.a p.p f = (if x < f.dstRouter % 16 then 1 else if f.dstRouter % 16 < x then 3
         else if y < f.dstRouter / 16 then 2 else if f.dstRouter / 16 < y then 0 else f.dstPort, false)))

/-- What reaches a router or member is taken out of flight, and a chunk of another VERSION is not: a partial is staged
in order, or fails its group where its staging is uncorrectable; a result's bytes stand in the member's buffer; a Bell
waits until every input of its router has sent one, and then goes on toward the root or releases the sequence; a
release counts once at the thread that waits. A deposit whose chunks are all at their visibility point has its flag
word written, and the next sequence may use its buffer; a notice of a faulted group gives the member's waiting thread
its deferred fault. -/
def Obligations.Mill : Prop :=
  (∀ (r inp gi n : Nat) (m : MillChunk) (q : W32) (d : GroupDesc) (w : MWait) (s : State),
     let g := s.group gi
     let b : MillChunk := ⟨gi, q, 0, 0, [], 1⟩
     let took (k : MKind) (m : MillChunk) : State :=
       { s with mil := { s.mil with flight := removeOne ⟨k, m⟩ s.mil.flight } }
     g.state = 1 → g.desc = some d →
     (m.version ≠ 1 → ∀ e, exec (.millPartialReceive r inp m e) s = .next s ∧
       exec (.millResultReceive (.router r) m) s = .next s ∧ exec (.millResultReceive (.member n) m) s = .next s) ∧
     (m.version = 1 → m.group = gi → ⟨.partial_ r inp, m⟩ ∈ s.mil.flight → 16 ≤ inp → exec (.millPartialReceive r inp m .ok) s =
       .next (pump ((took (.partial_ r inp) m).setGroup gi { g with up := g.up ++ [(r, inp, m)] }) gi)) ∧
     (m.version = 1 → m.group = gi → ⟨.partial_ r inp, m⟩ ∈ s.mil.flight → exec (.millPartialReceive r inp m .uncorrectable) s =
       .next (breakGroup (took (.partial_ r inp) m) gi 0x0301 0)) ∧
     (m.version = 1 → m.group = gi → ⟨.result (.router r), m⟩ ∈ s.mil.flight → exec (.millResultReceive (.router r) m) s =
       .next (pump ((took (.result (.router r)) m).setGroup gi { g with down := g.down ++ [(r, m)] }) gi)) ∧
     (m.version = 1 → m.group = gi → ⟨.result (.member n), m⟩ ∈ s.mil.flight → exec (.millResultReceive (.member n) m) s =
       .next (pump (deliver (took (.result (.member n)) m) gi n d m) gi)) ∧
     (let a := d.resultLs + m.seq.toNat % d.nbuf * outLen d + m.chunk * outChunkLen d
      badWord (s.core n).lsBad a m.data.length = none → g.waits = [] →
       ∀ i, i < m.data.length → Memory.read ((deliver s gi n d m).core n).ls (a + i) = m.data.getD i 0) ∧
     (⟨.bell r inp, b⟩ ∈ s.mil.flight → (∃ i ∈ inputsOf d r, i ≠ inp ∧ (r, i, q) ∉ g.bells) →
       Gives (.bellFlitReceive r inp gi q) s fun t =>
         (t.group gi).bells = g.bells ++ [(r, inp, q)] ∧ t.mil.flight = removeOne ⟨.bell r inp, b⟩ s.mil.flight ∧
         { t with mil := s.mil } = s) ∧
     (⟨.bell r inp, b⟩ ∈ s.mil.flight → (∀ i ∈ inputsOf d r, i = inp ∨ (r, i, q) ∈ g.bells) → r ≠ d.root →
       ∀ u i, parentOf d r = some (u, i) → Gives (.bellFlitReceive r inp gi q) s fun t =>
         t.mil.flight = removeOne ⟨.bell r inp, b⟩ s.mil.flight ++ [⟨.bell u i, b⟩] ∧ { t with mil := s.mil } = s ∧
         ∀ e ∈ (t.group gi).bells, ¬ (e.1 = r ∧ e.2.2 = q)) ∧
     (⟨.bell d.root inp, b⟩ ∈ s.mil.flight → (∀ i ∈ inputsOf d d.root, i = inp ∨ (d.root, i, q) ∈ g.bells) → g.tree = none →
       Gives (.bellFlitReceive d.root inp gi q) s fun t =>
         (∀ k ∈ slotsAt d d.root, ∀ n, memberAt d d.root k = some n → ⟨.release (.member n), b⟩ ∈ t.mil.flight) ∧
         ∀ u ∈ childrenOf d d.root, ⟨.release (.router u), b⟩ ∈ t.mil.flight) ∧
     (⟨.release (.router r), b⟩ ∈ s.mil.flight → Gives (.releaseReceive (.router r) gi q) s fun t =>
       (∀ k ∈ slotsAt d r, ∀ n, memberAt d r k = some n → ⟨.release (.member n), b⟩ ∈ t.mil.flight) ∧
       (∀ u ∈ childrenOf d r, ⟨.release (.router u), b⟩ ∈ t.mil.flight) ∧ { t with mil := s.mil } = s) ∧
     (⟨.release (.member n), b⟩ ∈ s.mil.flight → g.waits = [w] → w.member = n → w.seq = q → w.bell = true →
       (s.thr n w.thread).st = .ready → s.host.parked = [] → w.thread < 16 → Gives (.releaseReceive (.member n) gi q) s fun t =>
         (t.thr n w.thread).rc w.ctr = (s.thr n w.thread).rc w.ctr + 1 ∧ (t.group gi).waits = [] ∧
         (∀ u, u ≠ w.thread → (s.thr n u).st = .ready → t.thr n u = s.thr n u) ∧ ∀ o ∈ (t.core n).aops, o.id ≠ w.op)) ∧
  (∀ (gi n dpa : Nat) (d : GroupDesc) (w : MWait) (f : BitVec 6) (s s1 s2 : State),
     let g := s.group gi
     let word : Nat := g.nextSeq.toNat + 2 ^ 32 * f.toNat + 2 ^ 63
     (g.state = 1 → g.desc = some d → g.dep = [(g.nextSeq, outChunks d, f)] → g.depWait = none →
       (∀ e ∈ g.depZlr, e.1 ≠ g.nextSeq) →
       xlateAll s (millReq s gi d) 1 d.flagDva 8 = (s1, .ok [(.dev dpa, 8)]) →
       memWrite s1 dpa (leBytes 8 word) = (s2, none) → exec (.millDepositFlag gi) s =
         .next (pump (s2.setGroup gi { g with
           dep := [], depLinks := g.depLinks.filter fun e => e.1 ≠ g.nextSeq, nextSeq := g.nextSeq + 1 }) gi)) ∧
     (⟨.notice n, ⟨gi, 0, 0, 0, [], 1⟩⟩ ∈ s.mil.flight → g.state = 3 → g.waits = [w] → w.member = n →
       groupThreads s gi = [] → (s.thr n w.thread).st = .ready → (s.thr n w.thread).dfr = none →
       Gives (.noticeReceive gi n) s fun t =>
         (t.thr n w.thread).dfr = some (w.op, groupCause g.status, g.status, w.pc, 0) ∧ (t.group gi).waits = [] ∧
         (∀ m u, m ≠ n ∨ u ≠ w.thread → t.thr m u = s.thr m u)))

/-! ### Host -/

/-- A packet of a ring in host memory: a framed one advances HEAD and SEQ, and joins the commands in flight or has its
record with the status of the check that it fails; one whose LENGTH frames no packet halts the ring. A command whose
TIMEOUT passes while it waits with no fault completes TIMEOUT, and a LAUNCH is stopped with it. The ring registers: an
accepted write of ENABLE starts the ring at HEAD, TAIL and SEQ 0; a write while it is enabled, or with a configuration
that may not be enabled, is discarded and logged; clearing ENABLE stops it at once, its command window is free again,
and a doorbell that still waits on its link is discarded and logged; HEAD of a completion ring is taken while it
leaves no more than the ring's records. -/
def Obligations.RingsAndPackets : Prop :=
  (∀ (ring n : Nat) (data : List Byte) (h : Hdr) (op : Nat) (s : State),
     let r := s.ring ring
     let k := s.link r.link
     let slot := r.head.toNat % 2 ^ (r.log2 + 6)
     let len := fieldOf data 4 2
     let moved : Ring := { r with head := r.head + BitVec.ofNat 32 n, nextSeq := r.nextSeq + 1 }
     let entry (status d32 : Nat) : Rec := ⟨ring, fieldOf data 0 1, BitVec.ofNat 32 (fieldOf data 8 4), status, 0, d32, 0,
       BitVec.ofNat 64 (fieldOf data 16 8), !(fieldOf data 1 1 % 16 == 1 && fieldOf data 3 1 / 4 % 4 == 1)⟩
     let adds (t : State) (e : Rec) : Prop := OnlyHost s t ∧ t.host.inflight = s.host.inflight ∧
       tget [] t.host.held r.cq = tget [] s.host.held r.cq ++ [e]
     (r.enable = true → r.halted = false → r.head ≠ r.tail → s.iso (ring / 16) = false → ctxHeld s r.ctx = false →
       cmdRoom s ring = true → r.loc = false → r.window = false → k.up = true → k.busMaster = true → 0 < n →
       data.length = 64 * n → winCovers k (r.base + 64 * slot) (64 * n) = true →
       (len = n → n ≤ 64 → slot + n ≤ 2 ^ (r.log2 + 6) → n ≤ (r.tail - r.head).toNat →
         (packetStatus s ring data = stDONE → Gives (.commandPacketArrival ring data) s fun t =>
           OnlyHost s t ∧ t.ring ring = moved ∧ (∀ j, j ≠ ring → t.ring j = s.ring j) ∧
           t.host.inflight = s.host.inflight ++ [packetCmd ring data] ∧ t.host.held = s.host.held) ∧
         (packetStatus s ring data ≠ stDONE → Gives (.commandPacketArrival ring data) s fun t =>
           t.ring ring = moved ∧ adds t (entry (packetStatus s ring data) 0))) ∧
       (len = 0 ∨ 64 < len ∨ 2 ^ (r.log2 + 6) < slot + len → Gives (.commandPacketArrival ring data) s fun t =>
         t.ring ring = { r with halted := true } ∧ adds t (entry stBADPARAM slot))) ∧
     (s.cmd? h.ring h.seq = some (cmdOf h op) → h.timeout ≠ 0 → s.xlt.faults = [] → s.xlt.offered = [] →
       s.iso (h.ring / 16) = false →
       (op ∉ [0x10, 0x11, 0x12, 0x20] → Gives (.commandTimeout h.ring h.seq) s fun t => Completed s t h op stTIMEOUT 0) ∧
       (∀ l, op = 0x20 → s.launch? h.ring h.seq = some l → Gives (.commandTimeout h.ring h.seq) s fun t =>
         OnlyHost s t ∧ t.cmd? h.ring h.seq = some { cmdOf h op with stop := stTIMEOUT } ∧
         t.launch? h.ring h.seq = some { l with stopped := true } ∧ t.host.held = s.host.held))) ∧
  (∀ (n : Nat) (v : Word) (p : W32) (s : State), s.iso (n / 16) = false →
     let r := s.ring n
     let c := s.cq n
     let w := (v ||| 1#64).toNat
     let r' : Ring := { r with
       link := bits w 26 24, cq := bits w 21 16, log2 := bits w 15 12, ctx := bits w 11 5, priv := bit w 2, loc := bit w 1 }
     let c' : CqRing := { c with
       link := bits w 18 16, vector := bits w 15 10, log2 := bits w 9 6, loc := bit w 1, enable := true }
     let place := c'.link < 4 ∧ c'.log2 ≤ 10 ∧ early s = false ∧
       ringPlace s c'.loc c'.link c'.base (32 * 2 ^ (c'.log2 + 7)) = true
     (r.enable = false → ringCfgOk s n r' = true → exec (.ringEnable n v) s = .next (s.setRing n { r' with
       enable := true, head := 0, tail := 0, nextSeq := 0, halted := false, window := false, winAt := 0, hostLinks := [] })) ∧
     (r.enable = true ∨ ringCfgOk s n r' = false →
       exec (.ringEnable n v) s = .next (regDiscard s (regOff (n / 16) 0x0E (0x108 + 0x40 * (n % 16))) n (v ||| 1#64))) ∧
     (s.dram.parked = [] →
       exec (.ringDisable n) s = .next (s.setRing n { r with enable := false, window := false })) ∧
     (∀ l x, s.dram.parked = [.bell l n x] → exec (.ringDisable n) s =
       .next (logEvent { s.setRing n { r with enable := false, window := false } with dram := { s.dram with parked := [] } }
         0x0004 (n / 16) 0x0E n 0 (BitVec.ofNat 64 n) x)) ∧
     (c.enable = false → place → exec (.cqEnable n v) s =
       .next (s.setCq n { c' with head := 0, tail := 0, phase := true, refused := false })) ∧
     (c.enable = true ∨ ¬ place →
       exec (.cqEnable n v) s = .next (regDiscard s (regOff (n / 16) 0x0E (0x808 + 0x40 * (n % 16))) n (v ||| 1#64))) ∧
     exec (.cqDisable n) s = .next (s.setCq n { c with enable := false }) ∧
     ((c.tail - p).toNat ≤ c.size → exec (.cqHeadWrite n p) s = .next (s.setCq n { c with head := p })) ∧
     (c.size < (c.tail - p).toNat → exec (.cqHeadWrite n p) s =
       .next (regDiscard s (regOff (n / 16) 0x0E (0x810 + 0x40 * (n % 16))) n (p.setWidth 64))))

/-- Records in host memory: the first record that a ring has goes to the slot at TAIL, TAIL advances, and the
interrupt it asks for is raised; where the ring's link does not take the write nothing is written, and an event says
so once. The event ring's and the fault ring's registers: an accepted ENABLE starts the ring at HEAD and TAIL 0, and
the fault ring's begins the rewrite of every unanswered fault that waits in no queue; clearing ENABLE stops it; HEAD
is taken while it leaves no more than the ring's records. -/
def Obligations.HostRings : Prop :=
  (∀ (q : Nat) (r : Rec) (e : Ev) (f : XFault) (es : List Ev) (fs : List W32) (s : State),
     let c := s.cq q
     let a := c.base + c.tail.toNat % c.size * 32
     let g := s.evt.ring
     let ga := g.base + g.tail.toNat % 2 ^ (g.log2 + 7) * 32
     let x := s.xlt.ring
     let xa := x.base + x.tail.toNat % 2 ^ (x.log2 + 6) * 64
     (c.enable = true → c.full = false → nextRec s q = some r → s.iso (q / 16) = false → c.loc = false →
       (linkTakes (s.link c.link) a 32 = true → r.irq = false → Gives (.completionRecordWrite q) s fun t =>
         t.hostMem = Memory.writeN s.hostMem a (r.bytes c.phase) ∧
         t.cq q = { c with
           tail := c.tail + 1, phase := if (c.tail + 1).toNat % c.size = 0 then !c.phase else c.phase, refused := false } ∧
         tget [] t.host.held q = removeOne r (tget [] s.host.held q) ∧
         { t with host := s.host, hostMem := s.hostMem } = s ∧
         { t.host with cqs := s.host.cqs, held := s.host.held, lastRo := s.host.lastRo } = s.host) ∧
       (linkTakes (s.link c.link) a 32 = false → c.refused = false → exec (.completionRecordWrite q) s =
         .next (ev (s.setCq q { c with refused := true }) 0x0007 (q / 16) 0x0E q a (0x100 + q))) ∧
       (linkTakes (s.link c.link) a 32 = false → c.refused = true → exec (.completionRecordWrite q) s = .next s)) ∧
     (g.enable = true → g.full 7 = false → s.evt.out = e :: es → s.evt.held = [] →
       (linkTakes (s.link g.link) ga 32 = true → e.sev < g.irqSev → Gives .eventRingWrite s fun t =>
         t.evt = { s.evt with out := es, ring := { g with tail := g.tail + 1, refused := false } } ∧
         t.hostMem = Memory.writeN s.hostMem ga e.bytes ∧
         { t with evt := s.evt, hostMem := s.hostMem, host := { t.host with lastRo := s.host.lastRo } } = s) ∧
       (linkTakes (s.link g.link) ga 32 = false → g.refused = false → exec .eventRingWrite s =
         .next (ev { s with evt := { s.evt with ring := { g with refused := true } } } 0x0007 0 0x12 0 ga 0))) ∧
     (x.enable = true → x.full 6 = false → s.xlt.rewrite = [] → s.xlt.fq = f.id :: fs → s.xlt.offered = [] →
       s.xlt.faults.find? (fun y => y.id = f.id) = some f →
       (linkTakes (s.link x.link) xa 64 = true → (tget {} (s.link x.link).msix x.vector : Msix).masked = false →
         winCovers (s.link x.link) (tget {} (s.link x.link).msix x.vector : Msix).addr 4 = true →
         Gives .faultRingWrite s fun t =>
           let m : Msix := tget {} (s.link x.link).msix x.vector
           t.hostMem = Memory.writeLe (Memory.writeN s.hostMem xa f.bytes) m.addr 4 m.data ∧
           t.xlt = { s.xlt with fq := fs, ring := { x with tail := x.tail + 1, refused := false } } ∧
           tget 0 (t.link x.link).irq x.vector = tget 0 (s.link x.link).irq x.vector + 1 ∧
           { t with host := s.host, hostMem := s.hostMem, xlt := s.xlt } = s) ∧
       (linkTakes (s.link x.link) xa 64 = false → x.refused = false → exec .faultRingWrite s =
         .next (ev { s with xlt := { s.xlt with ring := { x with refused := true } } } 0x0007 0 0x0C 0 xa 1)))) ∧
  (∀ (v : Word) (s : State),
     let w := v.toNat
     let g := s.evt.ring
     let x := s.xlt.ring
     let starts (r : RingRegs) (sev : Nat) : RingRegs := { r with
       vector := bits w 14 9, irqSev := sev, link := bits w 6 5, log2 := bits w 4 1, enable := true, head := 0, tail := 0
       refused := false }
     let p : W32 := v.setWidth 32
     (bits w 4 1 ≤ 10 → (s.link (bits w 6 5)).up = true →
       (g.enable = false → exec (.eventRingEnable v) s =
         .next { s with evt := { s.evt with ring := starts g (bits w 16 15) } }) ∧
       (x.enable = false → exec (.faultRingEnable v) s =
         .next { s with xlt := { s.xlt with
           ring := starts x x.irqSev
           rewrite := s.xlt.rewrite ++
             (s.xlt.faults.filter fun f => !(s.xlt.rewrite ++ s.xlt.fq).contains f.id).map (·.id) } })) ∧
     (10 < bits w 4 1 →
       (g.enable = false → exec (.eventRingEnable v) s = .next (regDiscard s (regOff 0 0x12 0x18) 0 v)) ∧
       (x.enable = false → exec (.faultRingEnable v) s = .next (regDiscard s (regOff 0 0x0C 0x18) 0 v))) ∧
     exec .eventRingDisable s = .next { s with evt := { s.evt with ring := { g with enable := false } } } ∧
     exec .faultRingDisable s = .next { s with xlt := { s.xlt with ring := { x with enable := false } } } ∧
     ((g.tail - p).toNat ≤ 2 ^ (g.log2 + 7) → exec (.eventRingHeadWrite v) s =
       .next { s with evt := { s.evt with ring := { g with head := p } } }) ∧
     (2 ^ (g.log2 + 7) < (g.tail - p).toNat → exec (.eventRingHeadWrite v) s =
       .next (regDiscard s (regOff 0 0x12 0x20) 0 v)) ∧
     ((x.tail - p).toNat ≤ 2 ^ (x.log2 + 6) → exec (.faultRingHeadWrite v) s =
       .next { s with xlt := { s.xlt with ring := { x with head := p } } }) ∧
     (2 ^ (x.log2 + 6) < (x.tail - p).toNat → exec (.faultRingHeadWrite v) s =
       .next (regDiscard s (regOff 0 0x0C 0x20) 0 v)))

/-- Events: a record of an FB that is not isolated enters the queue with its severity and its stamp, merges with a
record of its kind, or, INFO and WARNING beyond 960, is dropped and counted; the first record is released once every
FB that is up has reported a stamp as late; a poll collects the oldest copy of the sideband. -/
def Obligations.Events : Prop :=
  ∀ (e : EvReport) (fb : Nat) (stamp : Word) (r : Ev) (rest : List Ev) (s : State),
    let sev := evSev e.code
    let k := 4 * (e.source / 2 ^ 14) + sev
    let like (x : Ev) : Bool := x.code = e.code && x.source = e.source && x.ctx = e.ctx && x.d0 = e.d0
    let counts (t : State) : Prop := tget 0 t.evt.local_ k = satInc 65535 (tget 0 s.evt.local_ k) ∧
      ∀ j, j ≠ k → tget 0 t.evt.local_ j = tget 0 s.evt.local_ j
    let only (t : State) : Prop := { t with evt := s.evt, mer := s.mer, free := s.free } = s
    (s.iso (e.source / 2 ^ 14) = false →
      (s.evt.queue.any like = false → (if sev < 2 then s.evt.used < 960 else s.evt.used < 1024) →
        Gives (.eventRaise e) s fun t => only t ∧ counts t ∧
          ∃ m, t.evt.queue = insertBy Ev.le ⟨sev, false, 1, e.code, e.source, e.ctx, m, e.d0, e.d1⟩ s.evt.queue) ∧
      (s.evt.queue.any like = true → Gives (.eventRaise e) s fun t => only t ∧ counts t ∧
        t.evt.queue = replaceFirst like (fun q => { q with count := satInc 255 q.count }) s.evt.queue) ∧
      (s.evt.queue.any like = false → sev < 2 → 960 ≤ s.evt.used → Gives (.eventRaise e) s fun t => only t ∧ counts t ∧
        t.evt.queue = s.evt.queue ∧ t.evt.loss = true ∧ t.evt.dropped = satInc (2 ^ 24 - 1) s.evt.dropped)) ∧
    (s.iso fb = false → Gives (.stampReport fb stamp) s fun t =>
      { t with evt := s.evt } = s ∧ { t.evt with stamps := s.evt.stamps } = s.evt ∧
      tget (0 : Word) t.evt.stamps fb = (if tget 0 s.evt.stamps fb < stamp then stamp else tget 0 s.evt.stamps fb) ∧
      ∀ j, j ≠ fb → tget (0 : Word) t.evt.stamps j = tget 0 s.evt.stamps j) ∧
    (s.evt.queue = r :: rest → (∀ f, f < 4 → fbUp s f = true → r.mer ≤ tget (0 : Word) s.evt.stamps f) →
      (s.evt.loss = false → s.evt.sbCount = 0 → r.sev < s.evt.minSev → exec .eventQueueRelease s = .next { s with
        evt := { s.evt with queue := rest, out := s.evt.out ++ [{ r with loss := false }] } }) ∧
      (s.evt.loss = true → Gives .eventQueueRelease s fun t => t.evt.queue = rest ∧ t.evt.loss = false ∧
        t.evt.qCount = 0 ∧ t.evt.sbCount = 0 ∧ ∃ x, t.evt.out = s.evt.out ++ [{ r with loss := true }, x] ∧
          x.code = 0x0900 ∧ x.sev = 1 ∧ x.mer = r.mer ∧ x.d0 = BitVec.ofNat 64 s.evt.qCount)) ∧
    (mctpServed s = true → exec .pollForPlatformEventMessage s = .next { s with
      evt := { s.evt with polled := s.evt.sb.head?, sb := s.evt.sb.tail } })

/-- PERST#, a hot reset and an FLR cut their link off and clear what a reset clears; a retrain changes the link alone,
its timeout and that of an outbound read cut the link off, and accesses that waited for it translate again; the return
to L0 takes the speed and width that were negotiated. An outbound read's data go to the thread that waits for them,
whose load completes; answered Unsupported Request or Completer Abort, the thread takes a RIGHTS fault. -/
def Obligations.HostLinks : Prop :=
  (∀ (port l speed width : Nat) (s : State),
     let k := s.link l
     let reset (t : State) (l : Nat) : Prop :=
       (t.link l).up = false ∧ (t.link l).retraining = false ∧ (t.link l).busMaster = false ∧ (t.link l).winBase = [] ∧
       (t.link l).winLimit = [] ∧ (t.link l).rid = 0 ∧ (t.link l).ridMask = 0 ∧ (t.link l).msix = [] ∧
       (t.link l).pend = [] ∧ (t.link l).loss = (if running s then max 1 (s.link l).loss else 0) ∧
       (t.link l).lossReset = true ∧
       (∀ r, (s.ring r).loc = false → (s.ring r).link = l → (t.ring r).enable = false) ∧
       ∀ q, (s.cq q).loc = false → (s.cq q).link = l → (t.cq q).enable = false
     let rings (t : State) : Prop := t.evt.ring.enable = false ∧ t.evt.ring.base = 0 ∧ t.xlt.ring.enable = false ∧
       t.xlt.ring.base = 0 ∧ { t with host := s.host, evt := s.evt, xlt := s.xlt } = s ∧
       ∀ j x d, tget none t.xlt.l2 j = some x → t.seg x.key.ctx x.key.seg = some d → d.kind = 0
     let toLink (h : XHeld) : Bool := h.ts.any fun p => match p.1 with
       | .host j _ => j = l
       | .dev _ => false
     let lost (t : State) : Prop := t.link l = { k with
         up := false, retraining := false, speed := 0, width := 0, busMaster := false
         loss := if running s then max 1 k.loss else 0, lossReset := k.lossReset && decide (0 < k.loss) } ∧
       (∀ j, j ≠ l → t.link j = s.link j) ∧ { t with host := s.host, xlt := s.xlt } = s ∧
       { t.host with links := s.host.links } = s.host ∧
       t.xlt = { s.xlt with atHome := s.xlt.atHome.filter fun h => !toLink h }
     let noInval := ∀ j, ZWho.inval ∉ (s.link j).zlr
     (s.dram.parked = [] → noInval → (s.link port).perst = false → (s.link (port + 2)).perst = false → Gives (.perstAssert port) s fun t =>
       rings t ∧ ∀ l ∈ [port, port + 2], (t.link l).perst = true ∧ reset t l) ∧
     (Gives (.perstDeassert port) s fun t => { t with host := s.host } = s ∧ { t.host with links := s.host.links } = s.host ∧
       (∀ l ∈ [port, port + 2], t.link l = { s.link l with perst := false }) ∧
       ∀ l, l ≠ port → l ≠ port + 2 → t.link l = s.link l) ∧
     (s.dram.parked = [] → noInval → l < 4 → k.up = true ∨ k.retraining = true →
       (Gives (.hotReset l) s fun t => rings t ∧ reset t l ∧ ∀ j, j ≠ l → t.link j = s.link j) ∧
       Gives (.flr l) s fun t => rings t ∧ reset t l ∧ ∀ j, j ≠ l → t.link j = s.link j) ∧
     (k.up = true → exec (.linkRetrainStart l) s =
       .next (s.setLink l { k with up := false, retraining := true, retrains := satInc 65535 k.retrains })) ∧
     (k.retraining = true → noInval → Gives (.linkRetrainTimeout l) s lost) ∧
     ((k.reads.any fun r => r.tag.isSome) = true → noInval → Gives (.outboundReadTimeout l) s lost) ∧
     (k.up = false → mayTrain s l = true → rateOk s l speed width = true → k.pend = [] → s.evt.ring.refused = false →
       s.xlt.ring.refused = false → (∀ e ∈ s.host.cqs, e.2.refused = false) → NothingHeld s →
       exec (.linkL0Return l speed width) s = .next (s.setLink l { k with
         up := true, retraining := false, speed := speed, width := width, busMaster := true }))) ∧
  (∀ (l n u pr d a size tag : Nat) (data : List Byte) (r : ORead) (s : State),
     let x := s.thr n u
     let me : Agent := .thread n u
     twf {} s.host.links = true → (s.link l).reads = [r] → r.tag = some tag → r.got = none → r.seq = 0 → r.who = me →
     readsOf s me = [r] → x.st = .waiting → x.blk = some (.ldg pr d a size) → x.dfr = none →
     s.xlt.inval = none → u ≠ 0 → (s.link l).retraining = false → s.car.slots = [] →
     (data.length = r.len → size ≤ 3 → r.len = sizeBytes size → (x.rp pr).getLsbD 0 = true →
       Clear (dvaChecks (x.rs a).toNat r.len) → pcOk u (x.pc.toNat + 8) = true →
       s.xlt.atHome = [⟨me, 0, (x.rs a).toNat, r.len, [(.host l r.addr, r.len)]⟩] →
       Gives (.outboundReadCompletion l tag true data) s fun t =>
         OnlyThread { s with host := t.host, xlt := { s.xlt with atHome := [] } } t n u ∧ Retired x (t.thr n u) ∧
         ScalarSet x (t.thr n u) d (BitVec.ofNat 64 (leNat data)) ∧ (t.link l).reads = []) ∧
     Gives (.outboundReadCompletion l tag false []) s fun t =>
       (t.thr n u).st = .faulted ∧ (t.thr n u).fCause = cRIGHTS ∧ (t.thr n u).fStatus = 0x0201 ∧
       (t.thr n u).faddr = BitVec.ofNat 64 r.dva ∧ (t.thr n u).pc = x.pc ∧ SameRegs x (t.thr n u) ∧ (t.link l).reads = [])

/-- Host loss: the first step holds every kernel thread of the link's contexts, the second suspends the contexts, the
last keeps everything where PRESERVE is armed, and otherwise disables the link's rings, every ring after a reset, with
device memory to be zeroed and scratch beyond the firmware's zero, LOST being set once that is done; RECOVER RESUME
makes a context ACTIVE on its new link and lets its held threads go on. That RECOVER writes the held records and makes
the context ACTIVE in one step is the model's reading (DEDUCED, log entry 112). -/
def Obligations.HostLoss : Prop :=
  ∀ (l n u c : Nat) (h : Hdr) (s : State),
    let k := s.link l
    let s0 : State := s.setLink l { k with loss := 0, lossReset := false }
    let gone := destroyAll { s0 with host := { s0.host with lossEnds := true } }
      ((tkeys s.xlt.ctxs).filter fun c => c ≠ 0 && (s.ctx c).state ≠ 0)
    (k.loss = 1 → (s.core n).ctx = c → c ≠ 0 → (s.ctx c).state ≠ 0 → (s.ctx c).link = l → 0 < u → u < 16 →
      Gives (.hostLossHold l) s fun t => (t.link l).loss = 2 ∧ ((s.thr n u).st = .ready → (t.thr n u).st = .held ∧
        (t.thr n u).prev = .ready ∧ (t.thr n u).pc = (s.thr n u).pc ∧ SameRegs (s.thr n u) (t.thr n u)) ∧
        { t with cores := s.cores, host := s.host } = s) ∧
    (k.loss = 2 → k.reads = [] → k.zlr = [] → s.car.slots = [] → s.car.queue = [] → s.host.parked = [] →
      (∀ e ∈ s.cores, e.2.aops = [] ∧ ∀ x ∈ e.2.thr, x.2.blk = none) → (∀ g, (s.group g).depWait = none) →
      Gives (.hostLossSuspend l) s fun t =>
        (t.link l).loss = 3 ∧ { t with host := s.host, xlt := s.xlt } = s ∧ { t.xlt with ctxs := s.xlt.ctxs } = s.xlt ∧
        (c ≠ 0 → (s.ctx c).state = 1 → (s.ctx c).link = l → t.ctx c = { s.ctx c with state := 2 }) ∧
        ((s.ctx c).state ≠ 1 ∨ (s.ctx c).link ≠ l → t.ctx c = s.ctx c)) ∧
    (k.loss = 3 → s.host.armed = true → s.dram.parked = [] → s.dram.zeroing = false → s.xlt.inval = none →
      s.xlt.invalQ = [] → s.xlt.dying = [] → Gives (.hostLossFinalStep l) s fun t =>
      OnlyHost s t ∧ (t.link l).loss = 0 ∧ t.host.lost = true ∧ t.host.inflight = s.host.inflight ∧
      t.host.held = s.host.held ∧ ∀ r, (t.ring r).enable = ((s.ring r).enable && ((s.ring r).loc || (s.ring r).link != l))) ∧
    (k.loss = 3 → s.host.armed = false → k.lossReset = true → gone.dram.parked = [] →
      Gives (.hostLossFinalStep l) s fun t =>
      t.host.lost = s.host.lost ∧ t.host.lossEnds = true ∧ t.dram.zeroing = true ∧ t.dram.lines = [] ∧
      (∀ r, (t.ring r).enable = false) ∧ (∀ q, (t.cq q).enable = false) ∧
      ∀ a, scrBase + 0x400000 ≤ a → a < scrTop → Memory.read t.mem a = 0) ∧
    (k.loss = 3 → s.host.armed = false → k.lossReset = false → Gives (.hostLossFinalStep l) s fun t =>
      (t.host.lost = true ∨ t.host.lossEnds = true) ∧ (∀ r, (t.ring r).link = l → (t.ring r).enable = false) ∧
      ∀ q, (t.cq q).link = l → (t.cq q).enable = false) ∧
    (Startable s 0x82 h [(1, 1, c), (2, 1, 2 * l)] → 1 ≤ c → c ≤ 31 → (s.ctx c).state = 2 → trained s l = true →
      (∀ r ∈ ringsOf s c, (s.ring r).enable = true ∧ (s.ring r).link = l) → s.host.held = [] →
      (∀ i, (tget {} s.car.slots i : CarSlot).job = none) → (∀ m v, (s.thr m v).st = .held → (s.thr m v).prev = .ready) → Gives (.recoverResume h c l) s fun t =>
        Completed s t h 0x82 stDONE 0 ∧ t.ctx c = { s.ctx c with state := 1, link := l } ∧
        (∀ j, j ≠ c → t.ctx j = s.ctx j) ∧ ((s.core n).ctx = c → (s.thr n u).st = .held → 0 < u → u < 16 →
          (t.thr n u).st = .ready ∧ (t.thr n u).pc = (s.thr n u).pc ∧ SameRegs (s.thr n u) (t.thr n u)))

/-- Doorbells and command windows: an accepted doorbell moves TAIL, and with WINDOW names the packet in the window;
one that is not is discarded and logged; a write to the window's first 4 KiB is stored; while the window holds a
packet both wait. BAR2 and the reserved part of BAR4: an access of the host reads and writes at its DPA; before READY,
and of a peer outside the regions, it has no effect and is logged; a ring's page of BAR4 reads its HEAD, and a
reserved offset zero. Host windows and regions: a window write of the side that owns the windows waits for its time
and then takes effect, one of the other side is discarded; a released region leaves the check and completes once no
write waits under it. -/
def Obligations.HostAccesses : Prop :=
  (∀ (l ring off : Nat) (v : Word) (data : List Byte) (s : State), s.dram.zeroing = false → s.dram.parked = [] →
     let r := s.ring ring
     let t : W32 := v.setWidth 32
     let fits := r.enable = true ∧ (t - r.head).toNat ≤ 2 ^ (r.log2 + 6) ∧ (r.tail - r.head).toNat ≤ (t - r.head).toNat
     let n := windowLen s ring
     (v.toNat < 2 ^ 32 → fits → exec (.doorbell l ring v) s = .next (s.setRing ring { r with tail := t })) ∧
     (v.toNat < 2 ^ 32 → ¬ fits →
       exec (.doorbell l ring v) s = .next (logEvent s 0x0004 (ring / 16) 0x0E ring 0 (BitVec.ofNat 64 ring) v)) ∧
     (v.toNat < 2 ^ 32 → r.window = false → fits → t = r.tail + BitVec.ofNat 32 n →
       exec (.windowDoorbell l ring v) s =
         .next (s.setRing ring { r with tail := t, window := true, winAt := r.tail })) ∧
     (r.enable = false → exec (.windowDoorbell l ring v) s = .next
       (logEvent s 0x0004 (ring / 16) 0x0E ring 0 (BitVec.ofNat 64 ring) (v ||| 0x100000000#64))) ∧
     (r.window = false → off < 4096 → exec (.commandWindowWrite l ring off data) s = .next { s with host := { s.host with
       windows := Memory.writeN s.host.windows (65536 * ring + off) (data.take (min data.length (4096 - off))) } }) ∧
     (r.window = true →
       (r.enable = true → exec (.windowDoorbell l ring v) s = .next { s with dram := { s.dram with
         parked := [.bell l ring (v ||| 0x100000000#64)] } }) ∧
       (off < 4096 → exec (.commandWindowWrite l ring off data) s = .next { s with dram := { s.dram with
         parked := [.window ring off data] } })) ∧
     (4096 ≤ off → off < 65536 → ring < 64 → exec (.commandWindowWrite l ring off data) s =
       .next (ev s 0x0003 (ring / 16) 0x0E ring (2 ^ 63 + (0x1000000 + 0x10000 * ring + off)) 1))) ∧
  (∀ (l off len ring : Nat) (ro ido : Bool) (rid : BitVec 16) (data bs : List Byte) (s s1 : State),
     let k := s.link l
     let a := k.bar2 + off
     let fb := if l % 2 = 0 then 0 else 3
     let answers (t : State) (r : Resp) : State := t.setLink l { t.link l with answer := r }
     let ready := (s.boot.phase = 8 ∨ s.boot.phase = 9) ∧ (rid &&& k.ridMask) = k.rid ∧ s.dram.zeroing = false ∧
       s.dram.parked = []
     let early := s.boot.phase ≠ 8 ∧ s.boot.phase ≠ 9
     let peer := (s.boot.phase = 8 ∨ s.boot.phase = 9) ∧ (rid &&& k.ridMask) ≠ k.rid ∧ s.host.regions = []
     (ready → memRead s a len = (s1, .ok bs) → exec (.bar2Read l rid off len) s = .next (answers s1 (.data bs))) ∧
     (early → exec (.bar2Read l rid off len) s =
       .next (answers (ev s 0x0003 fb 0x0D l off 0) (.data (List.replicate len 0)))) ∧
     (peer → exec (.bar2Read l rid off len) s =
       .next (answers (ev s 0x0005 fb 0x0D l a rid.toNat) (.fail stRIGHTS a))) ∧
     (ready → memWrite s a data = (s1, none) → exec (.bar2Write l rid ro ido off data) s = .next s1) ∧
     (early → exec (.bar2Write l rid ro ido off data) s = .next (ev s 0x0003 fb 0x0D l off 1)) ∧
     (peer → exec (.bar2Write l rid ro ido off data) s = .next (ev s 0x0005 fb 0x0D l a rid.toNat)) ∧
     (ring < 64 → exec (.barReservedAccess l (0x1000 * ring + 8) false) s =
       .next (answers s (.data (leBytes 8 (s.ring ring).head.toNat)))) ∧
     (0x1400000 ≤ off → exec (.barReservedAccess l off false) s = .next (answers s (.data (List.replicate 8 0))) ∧
       exec (.barReservedAccess l off true) s = .next (ev s 0x0003 fb 0x0D l (2 ^ 63 + off) 1))) ∧
  (∀ (l idx region : Nat) (limit pcie : Bool) (v w : Word) (h : Hdr) (g : Region) (s : State),
     let k := s.link l
     (s.iso (linkFb l) = false → (pcie = true ∨ tget true s.host.winOwn (l % 2) = false) →
       exec (.hostWindowWrite l idx limit pcie v) s = .next (s.setLink l { k with
         winPending := k.winPending ++
           [(idx, limit, v &&& if limit then 0xFFFFFFFFFFFFF000#64 else 0xFFFFFFFFFFFFF001#64)] })) ∧
     (s.iso (linkFb l) = false → pcie = false → tget true s.host.winOwn (l % 2) = true →
       exec (.hostWindowWrite l idx limit pcie v) s = .next (regDiscard s
         (regOff (linkFb l) 0x0D (0x100 + 0x100 * (l / 2) + 16 * idx + if limit then 8 else 0)) l v)) ∧
     (k.winPending = [(idx, limit, w)] → k.pend = [] → s.evt.ring.refused = false → s.xlt.ring.refused = false →
       (∀ e ∈ s.host.cqs, e.2.refused = false) → Gives (.hostWindowEffective l) s fun t =>
         OnlyHost s t ∧ { t.host with links := s.host.links } = s.host ∧ (∀ j, j ≠ l → t.link j = s.link j) ∧
         (t.link l).winPending = [] ∧
         (∀ i, tget 0 (t.link l).winBase i = if limit = false ∧ i = idx then w else tget 0 k.winBase i) ∧
         ∀ i, tget 0 (t.link l).winLimit i = if limit = true ∧ i = idx then w else tget 0 k.winLimit i) ∧
     (Startable s 0x61 h [(1, 1, region)] → region ≤ 255 → tget none s.host.regions region = some g →
       s.dram.parked = [] → Gives (.regionRelease h region) s fun t =>
         Completed s t h 0x61 stDONE 0 ∧ OnlyHost s t ∧ tget none t.host.regions region = none ∧
         ∀ j, j ≠ region → tget none t.host.regions j = tget none s.host.regions j))

/-! ### Power, clocks and temperature -/

/-- The input and the emergency lines: a rise through 40 V begins a cold start; an undervoltage warning asks for level
1, which holds every SC at 0.6 GHz; an orderly reset turns every domain off and keeps flash and fuses; an overvoltage
shutdown takes every rail but the always-on supply. The limiter, budgets and caps: a sample above 0.93 L asks for
level 3 and starts the hold of 500 µs; a full quiet window releases one level; an FB's budget, 170 W for it and 112 W
for an SC at most, binds its clocks and completes a PWR_SET that waits for it; a rail fault takes its die, a section
fault every die of its quadrant, and that of quadrant 0 is fatal. How a section fault shows, and how the limiter's
windows follow, are the model's reading (DEDUCED, log entries 26 and 78). -/
def Obligations.Power : Prop :=
  (∀ (mv us : Nat) (s : State),
     let p := s.pwr
     let keeps (t : State) : Prop := t.boot.fuse = s.boot.fuse ∧ t.boot.slots = s.boot.slots ∧ t.boot.soft = s.boot.soft ∧
       t.sec.rollback = s.sec.rollback ∧ t.hostMem = s.hostMem
     let dark (t : State) : Prop := t.cores = [] ∧ t.mem = [] ∧ t.gmem = [] ∧ t.xlt = {} ∧ t.lock = false
     (p.input = false → Gives .inputRising40v s fun t => keeps t ∧ dark t ∧ t.pwr.input = true ∧ t.pwr.railsOff = false ∧
       t.boot.phase = 1 ∧ t.boot.cause = (if s.boot.inputFell then 1 else 0) ∧ t.mer = State.reset.mer) ∧
     (p.input = true → mv ≤ 38000 → Gives (.undervoltageWarning mv) s fun t =>
       t.pwr = { p with uvWarn := true, uvMin := if p.uvWarn then min p.uvMin mv else mv, voltage := mv } ∧
       { t with pwr := p, clk := s.clk } = s ∧ { t.clk with freq := s.clk.freq } = s.clk ∧
       (∀ fb u, fb < 4 → u < 5 → freqOf t fb u = min (freqOf s fb u) (targetFreq t fb u)) ∧
       ∀ fb u, fb < 4 → 1 ≤ u → u < 5 → freqOf t fb u ≤ 24) ∧
     (p.uvWarn = true → exec (.undervoltageClear us) s =
       .next (ev { s with pwr := { p with uvWarn := false } } 0x0700 0 0x03 0 p.uvMin us)) ∧
     (p.input = true → Gives .orderlyReset s fun t =>
       keeps t ∧ dark t ∧ t.pwr.input = false ∧ t.boot.phase = State.reset.boot.phase ∧ t.boot.inputFell = true) ∧
     (p.input = true → 52000 ≤ mv → p.ovWarn = false → exec (.ovWarnSet mv) s =
       .next (ev { s with pwr := { p with ovWarn := true, ovMax := mv } } 0x0701 0 0x03 0 mv 0)) ∧
     (p.input = true → 52000 ≤ mv → p.ovWarn = true → exec (.ovWarnSet mv) s =
       .next { s with pwr := { p with ovMax := max p.ovMax mv } }) ∧
     exec .ovWarnClear s = .next { s with pwr := { p with ovWarn := false } } ∧
     (p.input = true → Gives .overvoltageShutdown s fun t => keeps t ∧ dark t ∧ t.pwr.ovLatch = true ∧
       t.pwr.railsOff = true ∧ t.pwr.rail = [] ∧ t.mer = { s.mer with slew := 0 })) ∧
  (∀ (w mv ca fb d rail b0 b1 b2 b3 b4 : Nat) (h : Hdr) (s : State),
     let p := s.pwr
     let l := limitW s
     (p.input = true → 93 * l < 100 * w → p.limReq ≠ 3 → Gives (.limiterSample w mv ca) s fun t =>
       t.pwr.limReq = 3 ∧ t.pwr.limHold = 500 ∧ t.pwr.limitTrips = satInc 65535 p.limitTrips ∧ t.pwr.sampleW = w ∧
       t.pwr.samples = (w :: p.samples).take 1000 ∧ ∀ f u, f < 4 → u < 5 → freqOf t f u ≤ 24) ∧
     (p.input = true → 100 * w ≤ 93 * l → Gives (.limiterSample w mv ca) s fun t =>
       { t with pwr := p } = s ∧ t.pwr.limReq = p.limReq ∧ t.pwr.sampleW = w ∧
       (0 < p.limReq → 0 < p.limHold → t.pwr.limHold = p.limHold - 1 ∧ t.pwr.limWin = p.limWin) ∧
       (0 < p.limReq → p.limHold = 0 → p.limWin < 99 → t.pwr.limWin = p.limWin + 1 ∧
         t.pwr.limQuiet = (p.limQuiet && decide (100 * w ≤ 88 * l))) ∧
       (0 < p.limReq → p.limHold = 0 → p.limWin = 99 →
         t.pwr.limWin = if p.limQuiet && decide (100 * w ≤ 88 * l) then 100 else 0)) ∧
     (0 < p.limReq → p.limHold = 0 → p.limWin = 100 → exec .limiterReleaseStep s =
       .next { s with pwr := { p with limReq := p.limReq - 1, limWin := 0, limQuiet := true } }) ∧
     (s.powered = true → s.iso fb = false → reeveDown s 0 = false →
       (s.host.parked = [] → Gives (.powerBudgetMessage fb b0 b1 b2 b3 b4) s fun t =>
         { t with pwr := p, clk := s.clk } = s ∧
         (∀ u, u < 5 → budgetFreq t fb u = 24 +
           Config.budgetFreq (min ([b0, b1, b2, b3, b4].getD u 0) (if u = 0 then 170 else 112)) % 25) ∧
         (∀ f u, f ≠ fb → u < 8 → budgetFreq t f u = budgetFreq s f u) ∧
         ∀ f u, f < 4 → u < 5 → freqOf t f u = min (freqOf s f u) (targetFreq t f u)) ∧
       (s.host.parked = [(h.ring, h.seq, .budget [fb])] → s.cmd? h.ring h.seq = some (cmdOf h 0x72) →
         s.iso (h.ring / 16) = false → Gives (.powerBudgetMessage fb b0 b1 b2 b3 b4) s fun t =>
           Completed s t h 0x72 stDONE 0 ∧ t.host.parked = [])) ∧
     (mctpServed s = true → 1200 ≤ w → w ≤ p.ceilingW →
       exec (.powerCapEffecterSet w) s = .next { s with pwr := { p with capW := w } }) ∧
     (w < 1200 ∨ p.ceilingW < w → exec (.powerCapEffecterSet w) s = .next s) ∧
     (s.powered = true → exec (.railFault fb d rail) s = .next (ev (setRail s fb d 3) 0x0703 fb 0x03 d d rail)) ∧
     (s.powered = true → fb ≠ 0 → Gives (.stage1SectionFault fb) s fun t =>
       (∀ j, j < 8 → railOf t fb j = 3) ∧ (∀ f j, f ≠ fb → j < 8 → railOf t f j = railOf s f j) ∧
       { t with pwr := p } = s) ∧
     (s.powered = true → Gives (.stage1SectionFault 0) s fun t => t.boot.phase = 1 ∧ t.boot.cause = 2))

/-- Temperatures (R403 to R407): a Dome's hottest sensor counts; warning, throttle and shutdown trip at their kind's
limits and clear below them, with the stack's doubled refresh, its throttle, and a retrain of every ACTIVE link of a
Lantern; a throttle step lowers the clocks; a shutdown takes the rails and its trip is kept; a restart follows where
it is enabled and every die is below 70. -/
def Obligations.Temperatures : Prop :=
  ∀ (fb d temp : Nat) (rs : List Int) (s : State), fb < 4 → d < 8 →
    let limit (fbsc stack lantern : Nat) : Nat := if d < 5 then fbsc else if d = 7 then lantern else stack
    let k := 8 * fb + d
    let x := s.thm
    let own := rs.foldl (fun m r => max m r.toNat) 0
    let t' := min 255 (if d = 5 ∨ d = 6 then max own (s.stack (2 * fb + (d - 5))).temp else own)
    let y := s.stack (2 * fb + (d - 5))
    let warm (on : Bool) : State := { s with thm := { x with warn := tset false x.warn k on } }
    let hot (on : Bool) : State := { s with thm := { x with throttle := tset false x.throttle k on } }
    let step := tget 0 x.step k
    (s.pwr.input = true → exec (.domeDigitise fb d rs) s = .next { s with
      thm := { x with temp := tset 0 x.temp k t', peak := tset 0 x.peak k (max t' (tget 0 x.peak k)) } }) ∧
    (s.powered = true → tget false x.warn k = false → limit 95 85 80 ≤ temp →
      exec (.thmWarnTrip fb d temp) s = .next (if d = 5 ∨ d = 6 then
        (warm true).setStack (2 * fb + (d - 5)) { y with refresh2x := true } else ev (warm true) 0x0710 fb 0x04 d d temp)) ∧
    (s.powered = true → tget false x.warn k = true → temp < limit 90 80 75 →
      exec (.thmWarnClear fb d temp) s = .next (if d = 5 ∨ d = 6 then
        (warm false).setStack (2 * fb + (d - 5)) { y with refresh2x := false } else warm false)) ∧
    (s.powered = true → tget false x.throttle k = false → limit 105 95 90 ≤ temp →
      (d < 5 → exec (.throttleEntry fb d temp) s = .next (ev (hot true) 0x0711 fb 0x04 d d 1)) ∧
      (d = 5 ∨ d = 6 → exec (.throttleEntry fb d temp) s = .next
        (ev ((hot true).setStack (2 * fb + (d - 5)) { y with throttled := true }) 0x0711 fb 0x04 d d 1)) ∧
      (d = 7 → Gives (.throttleEntry fb d temp) s fun t =>
        tget false t.thm.throttle k = true ∧ ∀ i, i < 24 →
          (s.flink (24 * fb + i)).st = 3 → (t.flink (24 * fb + i)).st = 4)) ∧
    (s.powered = true → tget false x.throttle k = true → temp < limit 100 90 85 → d < 5 →
      exec (.throttleExit fb d temp) s = .next (ev (hot false) 0x0711 fb 0x04 d d 0)) ∧
    (d < 5 → Gives (.throttleStep fb d temp) s fun t =>
      { t with thm := x, clk := s.clk } = s ∧
      tget 0 t.thm.step k = (if 105 ≤ temp then min 5 (step + 1) else if temp < 100 then step - 1 else step) ∧
      ∀ f u, f < 4 → u < 5 → freqOf t f u = min (freqOf s f u) (targetFreq t f u)) ∧
    (s.powered = true → Gives (.thermalShutdown fb d) s fun t =>
      t.thm.thermtrip = true ∧ t.thm.tripValid = true ∧ t.thm.tripFb = fb ∧ t.thm.tripDie = d ∧
      t.thm.tripTemp = limit 120 105 100 ∧ t.pwr.railsOff = true ∧ t.pwr.rail = [] ∧ t.cores = [] ∧ t.mem = []) ∧
    (x.thermtrip = true → x.autoHeld = true → s.pwr.input = true → s.pwr.ovLatch = false → (∀ e ∈ x.temp, e.2 < 70) →
      Gives .autoRestart s fun t =>
        t.thm.thermtrip = false ∧ t.boot.phase = 1 ∧ t.boot.cause = 3 ∧ t.pwr.railsOff = false)

/-- The Meridian: an edge adds 40 ns and its corrections to every copy, a copy that is ahead waits for FB0's; a check
brings a copy that is behind level and marks one that is ahead; the temperature correction is the part's own. The
rounding of a correction and what a copy that is isolated does are the model's reading (DEDUCED, log entry 79).
Clocks: a raise reaches what the unit's ceiling and budget allow; a cluster whose cores are idle stops, and the last
stops its SC, which may sleep at retention and wakes at 0.6 GHz with the lowest cluster that has work; base fabrics
and Reeves stop while idle and wake; a new FMAX lowers what runs above it. That a wake starts at 0.6 GHz with the
lowest cluster that has work, and which core counts as idle, are the model's reading (DEDUCED, log entries 75 and 77).
-/
def Obligations.ClocksAndMeridian : Prop :=
  (∀ (k : Nat) (reading : Int) (s : State), s.pwr.input = true →
     let m := s.mer
     let acc (t : State) (j : Nat) : BitVec 96 := tget 0 t.mer.acc j
     let ppb := m.tempPpb + slewPpb s
     let add := (40 * 2 ^ 32 + (2 * (40 * 2 ^ 32 * ppb) + 10 ^ 9) / (2 * 10 ^ 9)).toNat + m.stepNs * 2 ^ 32
     let next (j : Nat) : Nat := ((acc s j).toNat + add) % 2 ^ 96
     (Gives .meridianEdge s fun t => { t with mer := m, dram := s.dram } = s ∧ t.mer.stepNs = 0 ∧
       ∀ j, j < 4 → acc t j = BitVec.ofNat 96 (
         if s.iso j then (acc s j).toNat
         else if j ≠ 0 ∧ tget false m.hold j = true then (if (acc s j).toNat ≤ next 0 then next 0 else (acc s j).toNat)
         else next j)) ∧
     (s.fab.role ≠ 2 → m.tempPpb = 0 → m.stepNs = 0 → add = 40 * 2 ^ 32) ∧
     Gives (.tempPpbUpdate reading) s (fun t => { t with mer := { t.mer with tempPpb := m.tempPpb } } = s ∧
       -(2 ^ 31 : Int) ≤ t.mer.tempPpb ∧ t.mer.tempPpb < 2 ^ 31) ∧
     ((∀ j, j ∈ [1, 2, 3] → acc s j = acc s 0) → exec .meridianCopyCheck s = .next s) ∧
     (k ∈ [1, 2, 3] → (∀ j, j ∈ [1, 2, 3] → j ≠ k → acc s j = acc s 0) → s.iso k = false → tget false m.hold k = false →
       (acc s k < acc s 0 → Gives .meridianCopyCheck s fun t => acc t k = acc s 0 ∧ tget false t.mer.hold k = false ∧
         tget 0 t.mer.resyncs k = satInc 65535 (tget 0 m.resyncs k) ∧ ∀ j, j ≠ k → acc t j = acc s j) ∧
       (acc s 0 < acc s k → Gives .meridianCopyCheck s fun t => acc t k = acc s k ∧ tget false t.mer.hold k = true ∧
         ∀ j, j ≠ k → acc t j = acc s j))) ∧
  (∀ (fb u sc k : Nat) (v : Word) (s : State),
     let c := s.clk
     let run := tget 0 c.running sc
     let f := bits v.toNat 5 0
     let unit := sc % 4 + 1
     let freq (t : State) (fb u f : Nat) : State :=
       { t with clk := { t.clk with freq := tset 0 t.clk.freq (8 * fb + u) f } }
     let rail (v : Nat) : State := { s with pwr := { s.pwr with rail := tset 0 s.pwr.rail (8 * (sc / 4) + unit) v } }
     (0 < freqOf s fb u → freqOf s fb u < targetFreq s fb u →
       exec (.clockRaiseDone fb u) s = .next (freq s fb u (targetFreq s fb u))) ∧
     (clusterRuns s sc k = true → (∀ n ∈ clusterCores s sc k, coreIdle s n = true) →
       exec (.clusterClockStop sc k) s = .next { s with clk := { c with
         running := tset 0 c.running sc (run - 2 ^ k)
         scState := if run = 2 ^ k then tset 0 c.scState sc 1 else c.scState } }) ∧
     (s.scAdmitted.getLsbD sc = true → clusterRuns s sc k = false → k < 17 → scSleeps s sc = false →
       exec (.clusterWake sc k) s = .next { s with clk := { c with
         running := tset 0 c.running sc (run + 2 ^ k), scState := tset 0 c.scState sc 0 } }) ∧
     (s.scAdmitted.getLsbD sc = true → run = 0 → scSleeps s sc = false →
       exec (.scSleep sc) s = .next (freq (rail 2) (sc / 4) unit 0)) ∧
     (scSleeps s sc = true → ¬ (∀ n ∈ clusterCores s sc k, coreIdle s n = true) → k < 17 →
       (∀ j, j < k → ∀ n ∈ clusterCores s sc j, coreIdle s n = true) → Gives (.scWake sc) s fun t =>
         freqOf t (sc / 4) unit = 24 ∧ railOf t (sc / 4) unit = 1 ∧ runningOf t sc = 2 ^ k ∧
         { t with clk := c, pwr := s.pwr } = s) ∧
     (tget false c.baseStop fb = false → s.iso fb = false → fabricIdle s fb = true →
       exec (.baseFabricClockStop fb) s = .next { s with clk := { c with baseStop := tset false c.baseStop fb true } }) ∧
     (tget false c.baseStop fb = true →
       exec (.baseFabricWake fb) s = .next { s with clk := { c with baseStop := tset false c.baseStop fb false } }) ∧
     (tget false c.reeveStop fb = false → s.iso fb = false → starting s = false →
       (∀ x ∈ s.host.inflight, x.ring / 16 = fb → isFw x.op = false) →
       exec (.reeveClockStop fb) s = .next { s with clk := { c with reeveStop := tset false c.reeveStop fb true } }) ∧
     (tget false c.reeveStop fb = true →
       exec (.reeveWake fb) s = .next { s with clk := { c with reeveStop := tset false c.reeveStop fb false } }) ∧
     (s.iso fb = false → fb < 4 → 24 ≤ f → f ≤ 48 → Gives (.fmaxWrite fb v) s fun t =>
       fmaxOf t fb = f ∧ { t with clk := c } = s ∧
       ∀ g w, g < 4 → w < 5 → freqOf t g w = min (freqOf s g w) (targetFreq t g w)) ∧
     (s.iso fb = false → f < 24 ∨ 48 < f →
       exec (.fmaxWrite fb v) s = .next (regDiscard s (regOff fb 0x05 0) 0 v)))

/-! ### Dies -/

/-- Detection: a heartbeat that fails or a clock that two windows in succession find wrong declares its die lost and
freezes the ports that face it, and the loss of FB0 starts the module anew; an FB that loses its reference is lost,
but FB3 takes its other source. That FB3 takes its other source, and that a monitor watches the source in use, are the
model's reading (DEDUCED, log entry 97). Isolation and containment: a lost die leaves the inventory with its cause and
its cores run no more, an FB with its bundles DOWN and its cached lines gone; containment leaves nothing of its cores
but their mapping and stops the context of a LAUNCH that ran there. That the SCs of an isolated FB go OFF and its
bundles DOWN with it, and that cause 6 is not counted as a loss, are the model's reading (DEDUCED, log entries 90 and
95). -/
def Obligations.DieLoss : Prop :=
  (∀ (d : Die) (fb kind idx edges nominal : Nat) (s : State), s.powered = true →
     let x := s.fbDie fb
     let off := nominal < 4 * ((edges - nominal) + (nominal - edges))
     let c := (fb, kind, idx)
     let set (l : List (Nat × Nat × Nat)) : State := { s with die := { s.die with bad := l } }
     let declared (t : State) (d : Die) (cause : Nat) : Prop := t.die.lost = s.die.lost ++ [(d, cause)] ∧
       t.die.marked = s.die.marked ∧ t.scAdmitted = s.scAdmitted ∧ t.die.fbIso = s.die.fbIso ∧
       ∀ p ∈ facing d, connected s p = true → (t.port p).freeze = true
     exec (.heartbeatSend d) s = .next s ∧
     (d ≠ .fb 0 → dieOut s d = false → Gives (.heartbeatLost d) s fun t => declared t d 2) ∧
     (Gives (.heartbeatLost (.fb 0)) s fun t => t.boot.phase = 1 ∧ t.boot.cause = 2) ∧
     (fb ≠ 0 → x.source = 1 → x.altOk = false → dieOut s (.fb fb) = false →
       Gives (.referenceSourceSwitch fb) s fun t =>
         declared t (.fb fb) 1 ∧ t.fbDie fb = { x with primaryOk := false }) ∧
     (fb = 3 → s.iso 3 = false → x.source = 1 → x.altOk = true → Gives (.referenceSourceSwitch 3) s fun t =>
       t.fbDie 3 = { x with primaryOk := false, source := 2, switches := satInc 65535 x.switches } ∧
       t.die.lost = s.die.lost ∧ ∀ j, j ≠ 3 → t.fbDie j = s.fbDie j) ∧
     (s.iso fb = false →
       (¬ off → exec (.clockMonitorWindow fb kind idx edges nominal) s = .next (set (s.die.bad.filter (· ≠ c)))) ∧
       (off → c ∉ s.die.bad → exec (.clockMonitorWindow fb kind idx edges nominal) s = .next (set (s.die.bad ++ [c]))) ∧
       (off → c ∈ s.die.bad → kind = 2 → dieOut s (.sc (4 * fb + idx % 4)) = false →
         Gives (.clockMonitorWindow fb kind idx edges nominal) s fun t =>
           declared t (.sc (4 * fb + idx % 4)) 1 ∧ c ∉ t.die.bad))) ∧
  (∀ (j k cause : Nat) (l : Launch) (s : State),
     (j < 16 → s.die.lost = [(.sc j, cause)] → NothingHeld s → (s.iso 1 && s.iso 2) = false →
       Gives (.dieIsolateMark (.sc j)) s fun t =>
         (t.sc j).st = 3 ∧ (t.sc j).cause = cause ∧ t.scAdmitted.getLsbD j = false ∧
         (∀ i, i ≠ j → t.sc i = s.sc i ∧ t.scAdmitted.getLsbD i = s.scAdmitted.getLsbD i) ∧ t.die.lost = [] ∧
         t.die.marked = s.die.marked ++ [(.sc j, cause)] ∧ ∀ n, n / 256 = j → (t.core n).reset = true ∨ t.core n = s.core n) ∧
     (k = 1 ∨ k = 2 → s.die.lost = [(.fb k, cause)] → NothingHeld s → s.fab.links = [] → (s.iso 1 || s.iso 2) = false →
       Gives (.dieIsolateMark (.fb k)) s fun t =>
         t.iso k = true ∧ t.fbReady.getLsbD k = false ∧ (t.fbDie k).isoCause = cause ∧ t.die.lost = [] ∧
         t.die.marked = s.die.marked ++ [(.fb k, cause)] ∧
         (∀ i, i < 4 → (t.sc (4 * k + i)).st = 0 ∧ t.scAdmitted.getLsbD (4 * k + i) = false) ∧
         (∀ b ∈ bundlesOf k, (t.bend b).st = 7 ∧ (t.bend (peerEnd b)).st = 7) ∧
         ∀ i, homeQ (256 * i) = k → t.cline i = none) ∧
     (s.die.marked = [(.sc j, cause)] → s.mil.groups = [] → s.fab.reqs = [] → s.host.launches = [] →
       (s.sc j).lossWin ≠ some (windowOf s 0) → Die.sc j ∉ s.die.readmit → cause ≠ 6 →
       Gives (.dieLossContainment (.sc j)) s fun t =>
         t.die.marked = [] ∧ (∀ n, n / 256 = j → t.core n = { phys := (s.core n).phys }) ∧
         (∀ n, n / 256 ≠ j → t.core n = s.core n) ∧ (t.sc j).lossWin = some (windowOf s 0)) ∧
     (s.die.marked = [(.sc j, cause)] → s.mil.groups = [] → s.fab.reqs = [] → s.host.launches = [l] →
       launchOn (.sc j) l = true → l.ctx ≠ 0 → (s.ctx l.ctx).state = 1 → Gives (.dieLossContainment (.sc j)) s fun t =>
         (t.ctx l.ctx).state = 3 ∧ (t.ctx l.ctx).reason = 0x0401 ∧ t.launch? l.ring l.seq = none))

/-- Readmission: a reset of an admitted SC isolates it first, one of an isolated SC begins its readmission, and so
does Reeve-0 by itself; an SC whose record was admitted and that passes is admitted with its ports thawed, one that
fails is refused for good; an FB's readmission tests its bundles and SCs and ends with the FB up, its Granary off and
its memory zero, or isolated still. That SC_RESET isolates with cause 6, that a failed readmission shows REFUSED with
GEN taken, and that an admitted SC runs at 0.6 GHz are the model's reading (DEDUCED, log entries 75, 95 and 96).
Bundles: a frame in order advances its sequence number and the eighth NAK of one frame retrains the bundle at both
ends, a frame of another version is not read; a lane test marks what failed; 16 lanes and a lane clock make the lane
set, fewer put the bundle DOWN; ends that report the same set go to GULGEN, their hop frozen once more after a
retrain, and after three rounds of dispute DOWN; a retrain ends with the ports that it froze thawed, or DOWN. The
order of FREEZE_CLEAR and BUNDLE_RETRAIN_DONE and the count of disputes are the model's reading (DEDUCED, log entries
91 and 92). -/
def Obligations.DiesAndBundles : Prop :=
  (∀ (sc k cause bonds : Nat) (r : List Byte) (s : State),
     let x := s.sc sc
     let begins : State := s.setSc sc { x with st := 4, proto := 0, resets := satInc 255 x.resets }
     (s.powered = true → s.iso (sc / 4) = false →
       (s.scAdmitted.getLsbD sc = true → dieOut s (.sc sc) = false → Gives (.scReset sc) s fun t =>
         t.die.lost = s.die.lost ++ [(.sc sc, 6)] ∧ t.die.readmit = s.die.readmit ++ [.sc sc]) ∧
       (s.scAdmitted.getLsbD sc = false → mayReadmit s sc = true → exec (.scReset sc) s = .next begins)) ∧
     (mayReadmit s sc = true → (s.fbDie (sc / 4)).autoReadmit = true → reeveDown s (sc / 4) = false →
       exec (.scAutoReadmit sc) s = .next begins) ∧
     (x.st = 4 → x.proto = 1 → sc < 16 → bonds ≤ 32 → Gives (.scReadmitComplete sc true cause bonds) s fun t =>
       t.sc sc = { x with st := 2, cause := 0, bonds := bonds, proto := 1 } ∧ t.scAdmitted.getLsbD sc = true ∧
       (∀ p ∈ facing (.sc sc), (t.port p).freeze = false) ∧ freqOf t (sc / 4) (sc % 4 + 1) = 24 ∧
       ∀ n, n / 256 = sc → inService t n = true → t.core n = { phys := (s.core n).phys, reset := false }) ∧
     (x.st = 4 → Gives (.scReadmitComplete sc false cause bonds) s fun t =>
       t.sc sc = { x with st := 5, cause := cause % 16 } ∧ ⟨8, sc, 0⟩ ∈ t.boot.disabled ∧ t.scAdmitted = s.scAdmitted) ∧
     (x.st = 1 → recordCheck s (.sc sc) r = 0 → exec (.dieCapabilityRecord (.sc sc) r) s =
       .next (s.setSc sc { x with gen := recField r 1 1 / 16, proto := 1 })) ∧
     (x.st = 1 → recordCheck s (.sc sc) r ≠ 0 → Gives (.dieCapabilityRecord (.sc sc) r) s fun t =>
       t.sc sc = { x with gen := recField r 1 1 / 16, proto := 0, st := 5, cause := recordCheck s (.sc sc) r }) ∧
     (s.boot.phase = 4 → recordCheck s (.fb k) r = 0 →
       exec (.dieCapabilityRecord (.fb k) r) s = .next (s.setFbDie k { s.fbDie k with record := true })) ∧
     (1 ≤ k → k ≤ 3 → s.iso k = true → Die.fb k ∉ s.die.readmit → s.die.marked = [] → Gives (.fbReadmit k) s fun t =>
       t.die.readmit = s.die.readmit ++ [.fb k] ∧ (t.fbDie k).record = false ∧ t.iso k = true ∧
       (∀ b ∈ bundlesOf k, s.iso (peerFb b) = false → (t.bend b).st = 1 ∧ (t.bend (peerEnd b)).st = 1) ∧
       ∀ i, i < 4 → t.sc (4 * k + i) = { st := 1 }) ∧
     (1 ≤ k → k ≤ 3 → Die.fb k ∈ s.die.readmit → (s.fbDie k).record = true →
       Gives (.fbReadmitComplete k true) s fun t =>
         t.iso k = false ∧ t.fbReady.getLsbD k = true ∧ t.grn k = {} ∧ Die.fb k ∉ t.die.readmit ∧
         ∀ a, (isDev a || isScr a) = true → homeFb a = k → a < 0xBE00000000 ∨ 0xBE00000C08 ≤ a → Memory.read t.mem a = 0) ∧
     (1 ≤ k → k ≤ 3 → Die.fb k ∈ s.die.readmit → Gives (.fbReadmitComplete k false) s fun t =>
       (t.fbDie k).isoCause = 4 ∧ t.die.fbIso = s.die.fbIso ∧ Die.fb k ∉ t.die.readmit ∧
       ∀ i, i < 4 → (t.sc (4 * k + i)).st = 0)) ∧
  (∀ (b : Bundle) (v fseq ack width : Nat) (good peer inuse : BitVec 18) (ck peerCk : BitVec 2) (s : State),
     let x := s.bend b
     let m := x.mine &&& peer
     let c := x.mineCk &&& peerCk
     let up := s.setBend b { x with st := 4, rxSeq := 0, txSeq := 0, acked := 0, nakRun := 0, nakOwed := false, crcErr := 0 }
     (x.st = 4 → x.crcErr < 16 → fseq = x.rxSeq → Gives (.gulgenFrameReceive b 1 fseq ack false true) s fun t =>
       (t.bend b).st = 4 ∧ (t.bend b).rxSeq = (x.rxSeq + 1) % 4096 ∧ (t.bend b).acked = ack % 4096 ∧
       (t.bend b).nakRun = 0 ∧ (t.bend b).nakOwed = false) ∧
     (x.st = 4 → x.crcErr < 16 → x.nakRun < 8 → v ≠ 1 → Gives (.gulgenFrameReceive b v fseq ack false true) s fun t =>
       (t.bend b).st = 4 ∧ (t.bend b).rxSeq = x.rxSeq ∧ (t.bend b).acked = x.acked ∧ (t.bend b).nakOwed = true) ∧
     (x.st = 4 → x.crcErr < 16 → x.nakRun = 7 → x.nakSeq = ack % 4096 → b.fb < 4 → b.s < 2 → b.i < 8 → b.b < 2 →
       Gives (.gulgenFrameReceive b 1 fseq ack true true) s fun t =>
         (t.bend b).st = 6 ∧ (t.bend (peerEnd b)).st = 6 ∧ (t.bend b).retrains = satInc 65535 x.retrains ∧
         ∀ p ∈ pairPorts (edgeOfB b) b.i, connected s p = true → (t.port p).freeze = true) ∧
     (x.st = 1 ∨ x.st = 2 ∨ x.st = 6 → s.boot.disabled = [] → s.boot.fuse = [] → Gives (.laneTestDone b good ck) s fun t =>
       t.bend b = { x with st := 3, rounds := 0, mine := good, mineCk := ck } ∧
       (∀ i, i < 18 → good.getLsbD i = false → laneUnit b i ∈ t.boot.disabled) ∧
       ∀ i, i < 2 → ck.getLsbD i = false → laneUnit b (18 + i) ∈ t.boot.disabled) ∧
     (x.st = 3 ∨ x.st = 5 →
       (16 ≤ popcount18 m → c ≠ 0 → exec (.bundleMaskReceived b peer peerCk) s = .next (s.setBend b { x with
         peer := peer, peerCk := peerCk, inuse := m, ck := if c.getLsbD 0 then 0 else 1 })) ∧
       (popcount18 m < 16 ∨ c = 0 → Gives (.bundleMaskReceived b peer peerCk) s fun t => (t.bend b).st = 7) ∧
       (inuse = x.inuse → width = 16 →
         (hopReturns up (edgeOfB b) b.i = false → exec (.bundleReportReceived b inuse width) s = .next up) ∧
         (hopReturns up (edgeOfB b) b.i = true → Gives (.bundleReportReceived b inuse width) s fun t =>
           t.bend b = up.bend b ∧ ∀ p ∈ pairPorts (edgeOfB b) b.i, connected s p = true → (t.port p).freeze = true)) ∧
       (inuse ≠ x.inuse ∨ width ≠ 16 → x.rounds < 3 → Gives (.bundleReportReceived b inuse width) s fun t =>
         t.bend b = { x with st := 5, rounds := x.rounds + 1 } ∧
         (t.fbDie b.fb).disputes = satInc 255 (s.fbDie b.fb).disputes) ∧
       (inuse ≠ x.inuse ∨ width ≠ 16 → 3 ≤ x.rounds → Gives (.bundleReportReceived b inuse width) s fun t =>
         (t.bend b).st = 7)) ∧
     (bundleUp s (edgeOfB b) b.i b.b = true → x.retrain = true →
       (∀ p ∈ pairPorts (edgeOfB b) b.i, (s.port p).freeze = true ∧ (s.port p).drained = true) →
       Gives (.bundleRetrainDone b) s fun t =>
         { t with msh := s.msh, die := s.die } = s ∧ { t.msh with ports := s.msh.ports } = s.msh ∧
         t.bend b = { x with retrain := false } ∧ ∀ p ∈ pairPorts (edgeOfB b) b.i, t.port p =
           if (s.port p).hopFreeze then { s.port p with freeze := false, drained := false, rr := [], hopFreeze := false }
           else s.port p) ∧
     (x.st = 3 ∨ x.st = 5 ∨ x.st = 6 → starting s = false →
       Gives (.bundleRetrainTimeout b) s fun t => (t.bend b).st = 7))

/-! ### Start-up -/

/-- Start requests: with the key and no start under way a cold start begins at step 1 and a warm start cuts the links
and enters its entry, each counted; otherwise the request is discarded and logged. A step that fails: from a firmware
cause the running slot has failed its trial and the next selection starts at step 2, the module lock as it is, with
the recovery image FAILED; FB0's failure is FAILED; another failure of a warm start escalates to a cold start, and a
step that passes its limit fails so. That a step past its limit fails as one with an empty report is the model's
reading (DEDUCED, log entry 83), and so is the lock that stays (DEDUCED, log entry 138). -/
def Obligations.StartRequestsAndFailures : Prop :=
  (∀ (key : BitVec 16) (s : State), s.powered = true →
     let b := s.boot
     let refused (v : Nat) : State := regDiscard s (regOff 0 0x01 0x08) 0 (BitVec.ofNat 64 (v + 2 ^ 16 * key.toNat))
     (key ≠ 0x57A7 ∨ starting s = true → exec (.warmStartRequest key) s = .next (refused 1) ∧
       exec (.coldStartRequest key) s = .next (refused 2)) ∧
     (key = 0x57A7 → starting s = false →
       (Gives (.coldStartRequest key) s fun t =>
         t.boot.phase = 1 ∧ t.boot.cause = 4 ∧ t.boot.escalated = false ∧ t.boot.starts = satInc (2 ^ 32 - 1) b.starts ∧
         t.boot.fuse = b.fuse ∧ t.boot.slots = b.slots ∧ t.boot.soft = b.soft ∧ t.cores = [] ∧ t.mem = [] ∧
         t.lock = false ∧ t.mer = { s.mer with slew := 0 }) ∧
       ((∀ c, c ≠ 0 → (s.ctx c).state = 0) → Gives (.warmStartRequest key) s fun t =>
         t.boot.phase = 11 ∧ t.boot.warm = true ∧ t.boot.starts = satInc (2 ^ 32 - 1) b.starts ∧ t.lock = false ∧
         (∀ l, (t.link l).up = false ∧ (t.link l).busMaster = false ∧ (t.link l).reads = []) ∧ t.cores = s.cores ∧
         t.mem = s.mem ∧ t.dram = s.dram))) ∧
  (∀ (us : Nat) (r : StepReport) (s : State), s.powered = true →
     let p := s.boot.phase
     (us ≤ stepLimit s.boot.warm p → r.fail = true → r.firmware = true → p = 2 ∨ p = 3 →
       (s.boot.slot < 2 → Gives (.startStepEnd us r) s fun t =>
         t.boot.phase = 2 ∧ t.boot.stepFail = p ∧ (t.fw s.boot.slot).trialFailed = true ∧ t.lock = s.lock ∧
         t.xlt = { c0seg := s.xlt.c0seg }) ∧
       (s.boot.slot = 2 → Gives (.startStepEnd us r) s fun t => t.boot.phase = 10 ∧ t.boot.stepFail = p)) ∧
     (us ≤ stepLimit s.boot.warm p → r.fail = false → 0 ∈ r.fbFail → p = 4 ∨ p = 5 ∨ p = 6 →
       Gives (.startStepEnd us r) s fun t => t.boot.phase = 10 ∧ t.boot.stepFail = p) ∧
     (us ≤ stepLimit s.boot.warm p → r.fail = true → r.firmware = false → r.fbFail = [] → s.boot.warm = true →
       1 ≤ p → p ≤ 6 → Gives (.startStepEnd us r) s fun t =>
         t.boot.phase = 1 ∧ t.boot.cause = 5 ∧ t.boot.escalated = true ∧ t.boot.stepFail = p) ∧
     (stepLimit s.boot.warm p < us → starting s = true → s.boot.warm = true → Gives (.startStepTimeout us) s fun t =>
       t.boot.phase = 1 ∧ t.boot.cause = 5 ∧ t.boot.escalated = true ∧ t.boot.stepFail = (if p = 11 then 8 else p)) ∧
     (stepLimit s.boot.warm p < us → p = 1 → s.boot.warm = false → Gives (.startStepTimeout us) s fun t =>
       t.boot.phase = 2 ∧ t.boot.stepFail = 1 ∧ tget 0 t.boot.stepUs 1 = us))

/-- The steps of a start that its report finds no fault in: each does its part of the machine's state and leads to the
next, the last to READY; the warm entry keeps device memory and what the chapters keep, and the recovery image's start
ends after step 5. -/
def Obligations.StartSteps : Prop :=
  ∀ (us : Nat) (temps st : List Nat) (la : List (Nat × Nat)) (s : State), s.powered = true → us ≤ stepLimit s.boot.warm s.boot.phase →
    let p := s.boot.phase
    let go := Instr.startStepEnd us
      { fail := false, firmware := false, fbFail := [], bad := [], passed := [], temps := temps, stepped := st, lanes := la }
    (p = 1 → Gives go s fun t => t.boot.phase = 2 ∧ tget 0 t.boot.stepUs 1 = us ∧
      (∀ fb d, fb < 4 → d < 8 → railOf t fb d = 1) ∧ { t with boot := s.boot, pwr := s.pwr } = s) ∧
    (p = 2 → s.lock = false → s.boot.toRecovery = false → (c0Check (c0Words s)).2 = [] → Gives go s fun t =>
      t.boot.phase = 3 ∧ t.boot.slot = (selectSlot s).getD 2 ∧ t.lock = true ∧ t.sec.stage = 0 ∧
      t.sec.ratify = false ∧ t.boot.alm = (((selectSlot s).bind fun i => (s.fw i).alm).getD {}) ∧
      t.sec.laserLimit = t.boot.alm.laserLimit ∧ (t.boot.toRecovery = true ↔ selectSlot s = none) ∧
      t.pwr.ceilingW = max 1200 (min t.boot.alm.ceilingW 3600) ∧ t.cores = s.cores ∧ t.mem = s.mem) ∧
    (p = 3 → s.boot.slot ≠ 2 → s.die.fbIso = 0 → Gives go s fun t => t.boot.phase = 4 ∧
      (∀ fb, fb < 4 → tget false t.clk.pll fb = true ∧ freqOf t fb 0 = targetFreq s fb 0 ∧
        (t.fbDie fb).source = (if fb = 0 then 0 else 1)) ∧
      (∀ k, k < 128 → tget {} t.die.bundles k = ({ st := 1 } : BundleEnd)) ∧
      ∀ j, j < 16 → t.sc j = { s.sc j with st := 1 }) ∧
    (∀ j, p = 4 → j < 16 → s.boot.slot ≠ 2 → s.die.fbIso = 0 → s.boot.disabled = [] → (∀ i ∈ [1, 2, 3], (s.fbDie i).record = true) →
      (s.sc j).st = 1 → (s.sc j).proto = 1 → Gives go s fun t =>
        t.boot.phase = 5 ∧ t.fbReady = 15 ∧ (t.sc j).st = 2 ∧ t.scAdmitted.getLsbD j = true ∧
        freqOf t (j / 4) (j % 4 + 1) = 24) ∧
    (p = 5 → s.boot.slot = 2 → s.boot.warm = false → Gives go s fun t =>
      t.boot.phase = 9 ∧ t.gmem = [] ∧ (∀ a, a < 0xBE00000000 → Memory.read t.mem a = 0) ∧
      ∀ i, i < 384 → Memory.readLe t.mem (0xBE00000000 + 8 * i) 8 = i * 2 ^ 31 + 1) ∧
    (∀ n, p = 6 → n < 4096 → Gives go s fun t =>
      t.boot.phase = 7 ∧ t.boot.release = (List.range 16).filter s.scAdmitted.getLsbD ∧
      Memory.readN t.mem (0xF000000000 + 32 * n) 32 = descriptor s n ∧
      Memory.readN t.mem 0xF000020000 s.boot.alm.monitor.length = s.boot.alm.monitor) ∧
    (p = 7 → s.boot.release = [] → Gives go s fun t =>
      t.boot.phase = 8 ∧ (t.fw s.boot.slot).trialFailed = false ∧ { t with boot := s.boot, mer := s.mer, free := s.free } = s) ∧
    (p = 11 → LinesOfMemory s → s.dram.writeBacks = [] → (s.cores.map (·.1)).Nodup → Gives go s fun t =>
      t.boot.phase = 2 ∧ t.dram.lines = [] ∧ t.gmem = [] ∧
      SameBytes s t ∧ t.mer.acc = s.mer.acc ∧
      t.fab.id = s.fab.id ∧ t.fab.route = s.fab.route ∧ t.host.armed = s.host.armed ∧ t.clk.fmax = s.clk.fmax ∧
      ∀ n, t.core n = { phys := (s.core n).phys })

/-- The release of SCs and the start of monitors: an SC's cores leave reset, a core copies the image that its
descriptor names and starts thread 0 at its entry; a bad descriptor leaves it in reset; a core that is never ready is
newly bad and its logical number moves; a monitor that faulted is fetched anew. What follows failed boot reads is the
model's reading (DEDUCED, log entries 85 and 103). Watchdogs and the debug port: an expiry at run time counts and
restarts the Reeve, the third in a window halts it; in steps 2 and 3 of a start it fails the slot's trial; the port is
inert unless the Almanac enables it. What an expiry in step 7 of a start does is the model's reading (DEDUCED, log
entry 100). -/
def Obligations.MonitorsAndWatchdogs : Prop :=
  (∀ (sc n entry img len : Nat) (rest : List Nat) (d bs : List Byte) (s s1 s2 : State),
     (s.boot.phase = 7 → s.boot.release = sc :: rest → Gives (.scRelease sc) s fun t =>
       t.boot.release = rest ∧ (∀ m, m / 256 = sc → inService s m = true →
         t.core m = { phys := (s.core m).phys, reset := false }) ∧
       ∀ m, m / 256 ≠ sc ∨ inService s m = false → t.core m = s.core m) ∧
     (booting s n = true → n < 4096 → memRead s (0xF000000000 + 32 * n) 32 = (s1, .ok d) →
       (goodDescriptor s1 d = some (len, img, entry) → memRead s1 img len = (s2, .ok bs) →
         Gives (.bootDescriptorFetch n .ok .ok) s fun t =>
           (t.core n).reset = false ∧ (t.core n).ls = (s2.core n).ls ∧
           (∀ a, Memory.read (t.core n).is_ a = bs.getD a 0) ∧ (t.thr n 0).st = .ready ∧
           (t.thr n 0).pc = BitVec.ofNat 16 entry ∧ (∀ j, (t.thr n 0).rs j = 0) ∧ (∀ u, u ≠ 0 → t.thr n u = {}) ∧
           (∀ m, m ≠ n → t.core m = s2.core m) ∧ { t with cores := s2.cores } = s2) ∧
       (goodDescriptor s1 d = none → s.boot.phase ≠ 7 → s1.boot.phase = s.boot.phase →
         exec (.bootDescriptorFetch n .ok .ok) s =
           .next (ev (s1.modCore n fun c => { c with reset := true }) 0x0200 (coreFb n) (coreBlock n) (n % 256) n 1))) ∧
     (booting s n = true → Gives (.coreReadyTimeout n) s fun t =>
       ⟨1, n / 256, physCore s n⟩ ∈ t.boot.disabled ∧ physCore t n ≠ physCore s n ∧
       (physCore t n ≠ noCore → t.core n = { phys := (t.core n).phys, reset := false }) ∧
       ∀ m, m ≠ n → t.core m = s.core m) ∧
     ((s.core n).monFault = true → reeveDown s (coreFb n) = false → s.fab.reqs = [] →
       Gives (.monitorFaultReset n) s fun t =>
         t.core n = { phys := (s.core n).phys, reset := false } ∧ ∀ m, m ≠ n → t.core m = s.core m)) ∧
  (∀ (fb : Nat) (s : State), s.powered = true →
     let w : Wdog := tget {} s.sec.wdog fb
     let n := (if w.windowNo = windowOf s fb then w.window else 0) + 1
     (s.iso fb = false → reeveDown s fb = false → s.boot.phase = 8 → Gives (.watchdogExpiry fb) s fun t =>
       tget {} t.sec.wdog fb = { w with
         expiries := satInc 65535 w.expiries, window := min 3 n, windowNo := windowOf s fb, halted := decide (3 ≤ n)
         down := decide (n < 3) } ∧
       (∀ j, j ≠ fb → tget ({} : Wdog) t.sec.wdog j = tget {} s.sec.wdog j) ∧ reeveDown t fb = true) ∧
     (s.iso fb = false → reeveDown s fb = false → s.boot.phase = 2 ∨ s.boot.phase = 3 → s.boot.slot < 2 →
       Gives (.watchdogExpiry fb) s fun t => t.boot.phase = 2 ∧ (t.fw s.boot.slot).trialFailed = true) ∧
     (w.down = true → exec (.reeveRestartDone fb) s =
       .next { s with sec := { s.sec with wdog := tset {} s.sec.wdog fb { w with down := false } } }) ∧
     (s.sec.jtagEn = true → Gives .jtagAttach s fun t =>
       { t with sec := s.sec, evt := s.evt, mer := s.mer, free := s.free } = s ∧
       { t.sec with meas := s.sec.meas } = s.sec ∧ ∀ r, r ≠ 6 → tget 0 t.sec.meas r = tget (0 : BitVec 512) s.sec.meas r) ∧
     (s.sec.jtagEn = false → exec .jtagAttach s = .next s))

/-! ### Scale-up fabric and registers -/

/-- Link training: ENABLE takes an OFF link of an admitted Lantern to DETECT, or to DOWN where its UCIe module failed;
the partner's pulses take it to TRAIN; an exchange that agrees on the widest good width and on identities makes it
ACTIVE, one that does not is repeated, and after three rounds the link is DOWN; MAX_WIDTH retrains an ACTIVE link; the
end of the backoff detects again; the registers of an isolated FB's links take no write. Link failures: a link without
light, one whose retrain takes too long and one that is disabled leave service with their credits and queues empty; a
laser input and a UCIe module take every link they serve DOWN; a Lantern's record admits it and its enabled links
detect, or is refused with the offset of its first fault. The order of the checks of a Lantern's record is the model's
reading (DEDUCED, log entry 48). Frames: one in order is taken and its trailer releases the frames that it
acknowledges; one that fails its codes or its order is NAKed; the eighth NAK of one frame retrains the link; a control
packet returns credits both ways. That it does so both ways is the model's reading (DESIGN CHOICE, log entry 154). -/
def Obligations.FabricLinks : Prop :=
  (∀ (l w : Nat) (x : TrainEx) (s : State), s.fab.waits = [] → s.fab.reqs = [] → s.fab.fwd = [] →
     let k := s.flink l
     let logged (k' : FLink) : State :=
       ev (s.setFlink l k') 0x0600 (l / 24) 0x10 (l % 24) l (k'.st + 16 * k'.width + 256 * k'.good.toNat)
     let m := x.good &&& x.peerGood
     let limit := min (if tget false s.thm.throttle (8 * (l / 24) + 7) = true then min 4 k.maxW else k.maxW) x.peerMax
     let fits (v : Nat) : Prop := v ∈ [8, 6, 4, 2] ∧ v ≤ popcount8 m ∧ v ≤ limit
     (s.iso (l / 24) = false →
       (k.st = 0 → (s.lantern (l / 24)).admitted = true → exec (.linkEnable l) s = .next (logged { k with
         enable := true, st := if (s.lantern (l / 24)).ucieBad.getLsbD (l % 24 / 2) then 5 else 1 })) ∧
       ((s.lantern (l / 24)).admitted = false → exec (.linkEnable l) s = .next (s.setFlink l { k with enable := true })) ∧
       (w ∈ [8, 6, 4, 2] → k.st ≠ 3 → exec (.maxWidthWrite l w) s = .next (s.setFlink l { k with maxW := w })) ∧
       (w ∈ [8, 6, 4, 2] → k.st = 3 → Gives (.maxWidthWrite l w) s fun t => t.flink l = { k with
         maxW := w, st := 4, width := 0, retrains := satInc (2 ^ 24 - 1) k.retrains, rounds := 0, nakRun := 0 }) ∧
       (w ∉ [8, 6, 4, 2] → exec (.maxWidthWrite l w) s = .next
         (regDiscard s (regOff (l / 24) 0x10 (0x100 + 0x20 * (l % 24))) (l % 24) (BitVec.ofNat 64 (w * 256))))) ∧
     (s.iso (l / 24) = true → exec (.linkEnable l) s = .next s ∧ exec (.linkDisable l) s = .next s ∧
       exec (.maxWidthWrite l w) s = .next s) ∧
     (k.st = 1 → exec (.detectPulse l) s = .next s ∧
       exec (.partnerPulsesSeen l) s = .next (logged { k with st := 2, rounds := 0 })) ∧
     (k.st = 2 → k.txq = [] → fits w → (∀ v, fits v → v ≤ w) →
       (x.peerWidth = w → s.fab.idValid = true → x.peerValid = true → x.peerId ≠ s.fab.id →
         exec (.trainingExchange l x) s = .next (followParent (logged { k with
           st := 3, width := w, good := lowGood m w, partner := x.peerId, partnerLink := x.peerLink, rounds := 0
           txSeq := 0, txAck := 0, txFill := 1024, rxSeq := 0 }))) ∧
       (x.peerWidth ≠ w → k.rounds < 2 →
         exec (.trainingExchange l x) s = .next (s.setFlink l { k with rounds := k.rounds + 1 })) ∧
       (x.peerWidth ≠ w → 2 ≤ k.rounds → k.frames = [] → (∀ e ∈ s.cores, ∀ y ∈ e.2.thr, y.2.wait ≠ .xrecv l) →
         Gives (.trainingExchange l x) s fun t => (t.flink l).st = 5 ∧ (t.flink l).good = m)) ∧
     (k.st = 5 → exec (.downBackoffEnd l) s = .next (logged { k with st := 1 }))) ∧
  (∀ (l q input m off : Nat) (r : List Byte) (s : State), s.fab.reqs = [] → s.fab.fwd = [] →
     (∀ j, (s.flink j).txq = [] ∧ (s.flink j).frames = []) → (∀ e ∈ s.cores, ∀ x ∈ e.2.thr, ∀ j, x.2.wait ≠ .xrecv j) →
     let k := s.flink l
     let x := s.lantern q
     let out (t : State) (st : Nat) : Prop :=
       t.flink l = { k with
         st := st, width := 0, used := [], txq := [], frames := [], nakRun := 0, nakOwed := false, rounds := 0
         owed := [], rxUsed := heldCredits k.raw } ∧
       ∀ j, j ≠ l → t.flink j = s.flink j
     let down (t : State) (j : Nat) : Prop := (t.flink j).st = if (s.flink j).st = 0 then 0 else 5
     (k.st = 2 ∨ k.st = 3 ∨ k.st = 4 → Gives (.lightLoss l) s fun t => out t 5) ∧
     (k.st = 4 → Gives (.retrainTimeout l) s fun t => out t 5) ∧
     (k.st = 3 → s.iso (l / 24) = false → Gives (.linkDisable l) s fun t => (t.flink l).st = 0 ∧ (t.flink l).enable = false ∧
       (t.flink l).width = 0 ∧ (t.flink l).used = [] ∧ ∀ j, j ≠ l → t.flink j = s.flink j) ∧
     (input < 2 → Gives (.laserInputLoss q input) s fun t =>
       t.lantern q = (if input = 0 then { x with lightA := false } else { x with lightB := false }) ∧
       (∀ i, i < 12 → down t (24 * q + 12 * input + i)) ∧
       ∀ j, j / 12 ≠ 2 * q + input → t.flink j = s.flink j) ∧
     exec (.laserInputHasLight q input) s = .next (s.setLantern q
       (if input = 0 then { x with lightA := true } else { x with lightB := true })) ∧
     (m < 12 → Gives (.ucieModuleDown q m) s fun t => (t.lantern q).ucieUp.getLsbD m = false ∧
       (t.lantern q).ucieBad.getLsbD m = true ∧
       (∀ i, i ≠ m → (t.lantern q).ucieUp.getLsbD i = x.ucieUp.getLsbD i) ∧
       down t (24 * q + 2 * m) ∧ down t (24 * q + 2 * m + 1) ∧ ∀ j, j / 2 ≠ 12 * q + m → t.flink j = s.flink j) ∧
     (lanternReject s r = none → q < 4 → Gives (.lanternCapabilityRecord q r) s fun t =>
       (t.lantern q).admitted = true ∧ (t.lantern q).reject = 0 ∧ t.lnReady.getLsbD q = true ∧
       ∀ i, i < 24 → (t.flink (24 * q + i)).st =
         if (s.flink (24 * q + i)).enable = true ∧ (s.flink (24 * q + i)).st = 0 then
           (if x.ucieBad.getLsbD (i / 2) then 5 else 1)
         else (s.flink (24 * q + i)).st) ∧
     (lanternReject s r = some off → q < 4 → Gives (.lanternCapabilityRecord q r) s fun t =>
       (t.lantern q).admitted = false ∧ (t.lantern q).reject = off ∧ t.lnReady.getLsbD q = false ∧
       ∀ i, i < 24 → (t.flink (24 * q + i)).st = 0)) ∧
  (∀ (l fseq ack cls credits : Nat) (nak fec crc : Bool) (s : State),
     let k := s.flink l
     let done := (ack + 1 + 4096 - k.txAck) % 4096
     let kept := if framesOut k < done then k.frames
       else k.frames.filter fun e => decide (done ≤ (e.1 + 4096 - k.txAck) % 4096)
     k.st = 3 → k.txq = [] → s.fab.fwd = [] →
     (k.uncorr ≤ 16 → k.nakRun < 8 → fseq = k.rxSeq → Gives (.fabricFrameReceive l fseq ack false true true) s fun t =>
       (t.flink l).st = 3 ∧ (t.flink l).rxSeq = (k.rxSeq + 1) % 4096 ∧ (t.flink l).nakOwed = false ∧
       (t.flink l).frames = kept ∧ (t.flink l).naks = k.naks ∧ ∀ j, j ≠ l → t.flink j = s.flink j) ∧
     (k.uncorr < 16 → k.nakRun < 8 → (fec && crc) = false → Gives (.fabricFrameReceive l fseq ack nak fec crc) s fun t =>
       (t.flink l).st = 3 ∧ (t.flink l).rxSeq = k.rxSeq ∧ (t.flink l).nakOwed = true ∧
       (t.flink l).naks = satInc (2 ^ 24 - 1) k.naks ∧ (t.flink l).frames = k.frames) ∧
     (0 < framesOut k → k.txAck < 4096 → done = 0 → k.nakRun = 7 → k.nakSeq = k.txAck →
       Gives (.fabricFrameReceive l fseq ack true true true) s fun t =>
         (t.flink l).st = 4 ∧ (t.flink l).width = 0 ∧ (t.flink l).frames = k.frames ∧
         (t.flink l).retrains = satInc (2 ^ 24 - 1) k.retrains) ∧
     exec (.linkControlPacket l cls credits) s = .next (s.setFlink l { k with
       used := tset 0 k.used cls (tget 0 k.used cls - credits)
       rxUsed := k.owed.foldl (fun u e => tset 0 u e.1 (tget 0 u e.1 - e.2)) k.rxUsed, owed := [] }))

/-- Packets: a request is performed at its home and answered, one that its range refuses is answered with its status;
a response frees its tag and its data go to local store, and one without a tag has no effect; a packet for another
module goes on over one more link once its egress port has buffer for it, a raw one never; a packet of another version
is not read; an end-to-end timeout and a route that does not come back fail what waits. Collectives between modules: a
chunk of a group that is not ACTIVE here, or that finds no room, is refused; one seen before is acknowledged again; a
child's new chunk is kept and acknowledged; an acknowledgement frees its chunk, a refusal doubles its backoff, its
timer sends it again; a sequence that takes too long faults the group and names who is missing; Bells gather and a
release goes down. The form of the ready notice is the model's reading (DEDUCED, log entry 48). -/
def Obligations.FabricTraffic : Prop :=
  (∀ (l id e : Nat) (p : FPkt) (r : EReq) (o : AOp) (bs : List Byte) (s s1 : State),
     let a := p.addr % 2 ^ 40
     let reply (t : State) (type status : Nat) (data : List Byte) : State := sendQuiet t { errorPkt t p.src p.tag status with
       type := type
       len := data.length, data := data, prio := p.prio }
     -- the packet has passed through the link's receive buffer
     let s' := rxPass s l p
     let q : FPkt := { p with hops := p.hops + 1 }
     (p.version ≠ 1 → exec (.fabricRequestArrival l p) s = .next s ∧ exec (.fabricResponseArrival l p) s = .next s ∧
       exec (.fabricErrorPacket l p) s = .next s ∧ exec (.fabricForward l p) s = .next s ∧
       exec (.rawPacketArrival l p) s = .next s) ∧
     (takesPkt s l p = true →
       (p.dst = s.fab.id → p.type = 0x02 → dpaOk s' a = true → dpaOk s' (a + p.len - 1) = true →
         memRead s' a p.len = (s1, .ok bs) → exec (.fabricRequestArrival l p) s = .next (reply s1 0x08 0 bs)) ∧
       (p.dst = s.fab.id → p.type = 0x01 → (ratOf s' a).peerWr = true → dpaOk s' a = true →
         dpaOk s' (a + p.data.length - 1) = true → s.dram.parked = [] → memWrite s' a p.data = (s1, none) →
         exec (.fabricRequestArrival l p) s = .next (reply s1 0x09 0 [])) ∧
       (p.dst = s.fab.id → p.type = 0x01 → (ratOf s' a).peerWr = false → exec (.fabricRequestArrival l p) s =
         .next (reply (ev s' 0x0006 (l / 24) 0x10 (l % 24) a p.src) 0x0C 0x0201 [])) ∧
       (p.dst = s.fab.id → p.type = 0x08 → s.fab.reqs = [r] → r.tag = some p.tag → r.pkt.dst = p.src → r.dead = false →
         p.data.length = r.pkt.len → (s.core r.n).lsBad = [] → (s.core r.n).aops = [o] → o.id = r.op → o.stage = 1 →
         (∃ x y z, o.kind = .rget x y z) → Gives (.fabricResponseArrival l p) s fun t =>
           t.fab.reqs = [] ∧ (t.core r.n).aops = [] ∧ (t.thr r.n o.t).rc o.k = (s.thr r.n o.t).rc o.k + 1 ∧
           (∀ i, i < r.pkt.len → Memory.read (t.core r.n).ls (r.ls + i) = p.data.getD i 0) ∧
           ∀ b, b < r.ls ∨ r.ls + r.pkt.len ≤ b → Memory.read (t.core r.n).ls b = Memory.read (s.core r.n).ls b) ∧
       (p.dst = s.fab.id → reqOf s p.tag = none →
         exec (.fabricResponseArrival l p) s = .next s' ∧ exec (.fabricErrorPacket l p) s = .next s') ∧
       (p.dst = s.fab.id → reqOf s p.tag = some r → exec (.fabricErrorPacket l p) s =
         .next (pumpAll (reqFail s' r (causeOfStatus p.status) (statusOfError p.status)))) ∧
       (p.dst ≠ s.fab.id → p.type = 0x20 → exec (.fabricForward l p) s = .next s') ∧
       (p.dst ≠ s.fab.id → p.type ≠ 0x20 → s.fab.fwd = [] → routeOf s q = .go e →
         (egressRoom (s.flink e) q = true → exec (.fabricForward l p) s = .next (send s' q)) ∧
         (egressRoom (s.flink e) q = false → exec (.fabricForward l p) s =
           .next { rxTake s l p with fab := { (rxTake s l p).fab with fwd := [(l, p)] } })) ∧
       ((∀ c ∈ s.cores, ∀ x ∈ c.2.thr, x.2.wait ≠ .xrecv l) → exec (.rawPacketArrival l p) s =
         .next (rxTake (s.setFlink l { s.flink l with raw := (s.flink l).raw ++ [p] }) l p))) ∧
     (s.fab.waits = [(id, p)] → p.type = 0x0C → s.fab.reqs = [] → exec (.routeWaitTimeout id) s =
       .next { s with fab := { s.fab with waits := [] } }) ∧
     (s.fab.reqs = [r] → r.tag = some id → exec (.e2eTimeout r.port id) s =
       .next (pumpAll (reqFail s r cREMOTE 0x0403)))) ∧
  (∀ (l g dst : Nat) (p : FPkt) (d : GroupDesc) (t : FTree) (o : FOut) (s : State), takesPkt s l p = true →
     let x := s.group p.group
     let s' := rxPass s l p
     let key := (p.src, p.type, p.seq, p.chunk)
     let m : MillChunk := ⟨p.group, p.seq, p.chunk, p.flags, p.data, 1⟩
     let later (o : FOut) : FOut := { o with backoff := if o.backoff = 0 then 1 else min 64 (2 * o.backoff) }
     let mine (o : FOut) : Bool := o.sent && o.dst = p.src && o.m.seq = p.seq && o.m.chunk = p.chunk
     (activeTree s p.group = none → exec (.collectiveChunkArrival l p) s = .next (chunkAnswer s' p 0x0B) ∧
       exec (.fabricBellArrival l p) s = .next s' ∧ exec (.fabricReleaseArrival l p) s = .next s') ∧
     (activeTree s p.group = some (d, t) →
       (x.seen.contains key = true → exec (.collectiveChunkArrival l p) s = .next (chunkAnswer s' p 0x14)) ∧
       (x.seen.contains key = false → p.type = 0x10 → t.children = [p.src] → stages x d p.seq p.chunk = true →
         exec (.collectiveChunkArrival l p) s = .next (pump (chunkAnswer
           (s'.setGroup p.group { x with seen := key :: x.seen, fin := x.fin ++ [(0, m)] }) p 0x14) p.group)) ∧
       (x.seen.contains key = false → p.type = 0x10 → p.src ∉ t.children →
         exec (.collectiveChunkArrival l p) s = .next (chunkAnswer s' p 0x0B)) ∧
       (t.children = [p.src] → x.fbells = [] → exec (.fabricBellArrival l p) s =
         .next (s'.setGroup p.group { x with fbells := [(0, p.seq)] })) ∧
       (t.parent = some p.src → t.children = [] → exec (.fabricReleaseArrival l p) s =
         .next (startRelease s' p.group d p.seq))) ∧
     (x.fout.find? mine = some o → exec (.collectiveChunkAck l p) s =
       .next (pump (s'.setGroup p.group { x with fout := removeOne o x.fout }) p.group)) ∧
     exec (.collectiveChunkNack l p) s = .next (s'.setGroup p.group { x with fout := replaceFirst mine later x.fout }) ∧
     ((s.group g).fout = [o] → (s.group g).desc = some d → o.sent = true → o.backoff ≠ 0 →
       exec (.chunkResendTimer g o.m.seq o.m.chunk o.dst) s = .next (send (s.setGroup g (s.group g))
         (collPkt s (fabKind o.kind) o.dst g (if d.prio = 1 then 1 else 2) o.m))) ∧
     (activeTree s g = some (d, t) → t.timeout ≠ 0 → t.children = [dst] → t.parent = none → (s.group g).fout = [o] →
       o.sent = true → o.dst = dst → s.host.parked = [] → Gives (.collectiveTimeout g) s fun u =>
         (u.group g).state = 3 ∧ (u.group g).status = 0x0403 ∧ (u.group g).waits = [] ∧
         tget (0, 0, 0) u.fab.collSts g = (0x0403, 1, o.m.seq)))

/-- The FOLLOWER's exchange: it is sent over the parent link that is ACTIVE; what comes back sets the offset and the
slew, or a step forward when the module is more than 1 µs behind; the fabric's registers are written with what their
fields hold, and where that is not allowed the write is discarded and logged. Writes of BAR0 registers by their access
types (R3, R4, R5, R31). A write completes always: one that is not of 32 or 64 bits, is not aligned, comes without
power or goes to an isolated FB has no effect. An RW field takes the bits written, a 32-bit write among them; RW1C
bits are cleared by writing 1 and kept by writing 0; a BL field is set by boot code while the lock is clear and
otherwise only a write of another value does anything: it is reported (0x0002). A block without a writable register
discards the write in silence. -/
def Obligations.RegisterWrites : Prop :=
  (∀ (t1 t2 t3 t4 : Int) (m g w : Nat) (v : Word) (s : State),
     let off := ((t2 - t1) - (t4 - t3)) / 2
     let f := s.fab
     let up (l : Nat) : Prop := l < 96 ∧ (s.flink l).st = 3
     let got : State := { s with fab := { f with
       exchange := false, offset := sext 32 (off % 2 ^ 32).toNat, synced := decide (-64 ≤ off ∧ off ≤ 64) } }
     let badRoute := v.getLsbD 63 = true ∧ (bits v.toNat 34 32 = 0 ∨ 4 < bits v.toNat 34 32 ∨
       ∃ l ∈ routeAlts v.toNat, 95 < l)
     (f.role = 2 → up f.parent → (s.flink f.parent).txq = [] → f.reqs = [] → Gives .meridianExchangeSend s fun t =>
       t.fab.exchange = true ∧ t.fab.activeParent = f.parent) ∧
     (f.role = 2 → ¬ up f.parent → ¬ up f.altParent → exec .meridianExchangeSend s = .next (
       if f.activeParent = 0x7F ∧ f.synced = false then s
       else ev { s with fab := { f with synced := false, activeParent := 0x7F, exchange := false } } 0x0605 0 0x10 0
         f.parent 0)) ∧
     (f.role = 2 → f.exchange = true →
       (-16000 ≤ off → exec (.meridianExchangeReceive t1 t2 t3 t4) s =
         .next { got with mer := { s.mer with slew := -off * 2 ^ 28 } }) ∧
       (off < -16000 → exec (.meridianExchangeReceive t1 t2 t3 t4) s =
         .next (ev { got with mer := { s.mer with stepNs := ((-off) / 16).toNat, slew := 0 } } 0x0604 0 0x10 0
           ((-off) / 16).toNat 0))) ∧
     ((∀ l, l < 96 → (s.flink l).st ≠ 3) → exec (.fabIdWrite v) s =
       .next { s with fab := { f with id := bits v.toNat 13 0, idValid := v.getLsbD 16 } }) ∧
     ((∃ l, up l) → exec (.fabIdWrite v) s = .next (regDiscard s (regOff 0 0x10 0) 0 v)) ∧
     (¬ badRoute → exec (.fabRouteWrite m v) s =
       .next { s with fab := { f with route := tset 0 f.route m (v &&& 0x800000077F7F7F7F) } }) ∧
     (badRoute → exec (.fabRouteWrite m v) s = .next (regDiscard s (regOff 0 0x10 (0x40000 + 8 * m)) 0 v)) ∧
     ((s.group g).state = 0 → exec (.fabCollWrite g w v) s = .next { s with fab := { f with
       coll := tset 0 f.coll (4 * g + w) (v &&& if w = 0 then 0xEFFFFFFF00003FFF else 0x3FFF3FFF3FFF3FFF) } }) ∧
     ((s.group g).state ≠ 0 → exec (.fabCollWrite g w v) s =
       .next (regDiscard s (regOff 0 0x10 (0x10000 + 0x20 * g + 8 * w)) 0 v))) ∧
  ((∀ off size v boot pcie s,
     (size ≠ 4 ∧ size ≠ 8) ∨ off % size ≠ 0 ∨ s.powered = false ∨ s.iso (off / 2 ^ 24) = true →
     exec (.registerWrite off size v boot pcie) s = .next s) ∧
   (∀ fb size v boot pcie s, fb < 4 → (size = 4 ∨ size = 8) → s.powered = true → s.iso fb = false →
     exec (.registerWrite (fb * 2 ^ 24 + 0x0F * 2 ^ 19 + 8) size v boot pcie) s =
       .next { s with car := { s.car with disable := tset 0 s.car.disable fb (v.setWidth 12) } }) ∧
   (∀ fb v boot pcie s, fb < 4 → s.powered = true → s.iso fb = false →
     exec (.registerWrite (fb * 2 ^ 24 + 0x08 * 2 ^ 19 + 0x30) 8 v boot pcie) s =
       .next (s.setHbm fb { s.hbm fb with
         ueValid := (s.hbm fb).ueValid && !v.getLsbD 63, ueOverflow := (s.hbm fb).ueOverflow && !v.getLsbD 62 })) ∧
   (∀ v pcie s, s.powered = true → s.iso 0 = false → s.lock = false →
     exec (.registerWrite (0x03 * 2 ^ 19 + 8) 8 v true pcie) s =
       .next { s with pwr := { s.pwr with ceilingW := v.toNat % 2 ^ 16 } }) ∧
   (∀ v boot pcie s, s.powered = true → s.iso 0 = false → (boot = false ∨ s.lock = true) →
     exec (.registerWrite (0x03 * 2 ^ 19 + 8) 8 v boot pcie) s =
       .next (if s.pwr.ceilingW = v.toNat % 2 ^ 16 then s
         else logEvent s 0x0002 0 0x03 0 0 (BitVec.ofNat 64 (0x03 * 2 ^ 19 + 8)) v)) ∧
   (∀ fb block r size v boot pcie s, fb < 4 → block < 32 → r < 2 ^ 19 →
     (block = 0x00 ∨ block = 0x06 ∨ block = 0x0B ∨ 0x12 < block) →
     exec (.registerWrite (fb * 2 ^ 24 + block * 2 ^ 19 + r) size v boot pcie) s = .next s))
end

