-- ==== Sys2Proof/Laws/Table.lean ====
section
/-! SUPPORT. Sparse tables and byte memories: a read after a write, and the canonical form.  The read laws hold for
every table, in canonical form or not. -/

namespace Sys2Proof.Machine

variable {α : Type}

/-! ### Tables -/

@[simp] theorem tget_nil (d : α) (k : Nat) : tget d [] k = d := rfl

theorem tget_tdel (d : α) (t : Tbl α) (k j : Nat) :
    tget d (tdel t k) j = if j = k then d else tget d t j := by
  induction t with
  | nil => simp [tdel, tget]
  | cons e r ih =>
    obtain ⟨i, x⟩ := e
    by_cases h : k = i
    · subst h
      simp only [tdel, if_true, ih, tget]
      split <;> simp_all
    · simp only [tdel, if_neg h, tget, ih]
      split
      · rename_i hj; subst hj
        simp [Ne.symm h]
      · rfl

theorem tget_tput (d : α) (t : Tbl α) (k j : Nat) (x : α) :
    tget d (tput t k x) j = if j = k then x else tget d t j := by
  induction t with
  | nil => simp [tput, tget]
  | cons e r ih =>
    obtain ⟨i, y⟩ := e
    unfold tput
    split
    · simp [tget]
    · split
      · rename_i h; subst h
        simp only [tget]
        split <;> rfl
      · rename_i h
        simp only [tget, ih]
        split
        · rename_i hj; subst hj
          simp [Ne.symm h]
        · rfl

variable [DecidableEq α]

/-- A read of a table after a write. -/
theorem tget_tset (d : α) (t : Tbl α) (k j : Nat) (x : α) :
    tget d (tset d t k x) j = if j = k then x else tget d t j := by
  unfold tset
  split
  · rename_i h; rw [tget_tdel, h]
  · exact tget_tput d t k j x

@[simp] theorem tget_tset_same (d : α) (t : Tbl α) (k : Nat) (x : α) : tget d (tset d t k x) k = x := by
  simp [tget_tset]

theorem tget_tset_ne (d : α) (t : Tbl α) {k j : Nat} (x : α) (h : j ≠ k) :
    tget d (tset d t k x) j = tget d t j := by
  simp [tget_tset, h]

theorem tget_tmod (d : α) (t : Tbl α) (k j : Nat) (f : α → α) :
    tget d (tmod d t k f) j = if j = k then f (tget d t k) else tget d t j :=
  tget_tset d t k j _

@[simp] theorem tget_tmod_same (d : α) (t : Tbl α) (k : Nat) (f : α → α) :
    tget d (tmod d t k f) k = f (tget d t k) := by simp [tget_tmod]

theorem twfFrom_mono {d : α} {t : Tbl α} {k j : Nat} (h : j ≤ k) (ht : twfFrom d k t = true) :
    twfFrom d j t = true := by
  cases t with
  | nil => rfl
  | cons e r =>
    obtain ⟨i, x⟩ := e
    simp only [twfFrom, Bool.and_eq_true, decide_eq_true_eq] at ht ⊢
    exact ⟨⟨Nat.le_trans h ht.1.1, ht.1.2⟩, ht.2⟩

theorem twfFrom_tdel {d : α} {t : Tbl α} {k j : Nat} (ht : twfFrom d j t = true) :
    twfFrom d j (tdel t k) = true := by
  induction t generalizing j with
  | nil => rfl
  | cons e r ih =>
    obtain ⟨i, x⟩ := e
    simp only [twfFrom, Bool.and_eq_true, decide_eq_true_eq] at ht
    unfold tdel
    split
    · exact twfFrom_mono (by omega) (ih ht.2)
    · simp only [twfFrom, Bool.and_eq_true, decide_eq_true_eq]
      exact ⟨ht.1, ih ht.2⟩

theorem twfFrom_tput {d : α} {t : Tbl α} {k j : Nat} {x : α} (hx : x ≠ d) (hj : j ≤ k)
    (ht : twfFrom d j t = true) : twfFrom d j (tput t k x) = true := by
  induction t generalizing j with
  | nil => simp [tput, twfFrom, hx, hj]
  | cons e r ih =>
    obtain ⟨i, y⟩ := e
    simp only [twfFrom, Bool.and_eq_true, decide_eq_true_eq] at ht
    unfold tput
    split
    · simp only [twfFrom, Bool.and_eq_true, decide_eq_true_eq]
      exact ⟨⟨hj, hx⟩, ⟨by omega, ht.1.2⟩, ht.2⟩
    · split
      · simp only [twfFrom, Bool.and_eq_true, decide_eq_true_eq]
        rename_i h; subst h
        exact ⟨⟨hj, hx⟩, ht.2⟩
      · simp only [twfFrom, Bool.and_eq_true, decide_eq_true_eq]
        exact ⟨ht.1, ih (by omega) ht.2⟩

/-- Every write keeps the canonical form. -/
theorem twf_tset {d : α} {t : Tbl α} {k : Nat} {x : α} (ht : twf d t = true) : twf d (tset d t k x) = true := by
  unfold tset
  split
  · exact twfFrom_tdel ht
  · rename_i h; exact twfFrom_tput h (Nat.zero_le k) ht

theorem twf_tmod {d : α} {t : Tbl α} {k : Nat} {f : α → α} (ht : twf d t = true) : twf d (tmod d t k f) = true :=
  twf_tset ht

theorem twfFrom_filter {d : α} {p : Nat × α → Bool} {t : Tbl α} {j : Nat} (ht : twfFrom d j t = true) :
    twfFrom d j (t.filter p) = true := by
  induction t generalizing j with
  | nil => rfl
  | cons e r ih =>
    obtain ⟨i, x⟩ := e
    simp only [twfFrom, Bool.and_eq_true, decide_eq_true_eq] at ht
    rw [List.filter_cons]
    split
    · simp only [twfFrom, Bool.and_eq_true, decide_eq_true_eq]
      exact ⟨ht.1, ih ht.2⟩
    · exact twfFrom_mono (by omega) (ih ht.2)

/-! ### Byte memories -/

theorem Memory.read_write (m : Memory) (a b : Nat) (x : Byte) :
    Memory.read (Memory.write m a x) b = if b = a then x else Memory.read m b :=
  tget_tset _ m a b x

theorem Memory.wf_nil : Memory.wf [] := rfl

theorem Memory.wf_write {m : Memory} {a : Nat} {x : Byte} (h : Memory.wf m) : Memory.wf (Memory.write m a x) :=
  twf_tset h

theorem Memory.wf_writeN {bs : List Byte} : ∀ {m : Memory} {a : Nat}, Memory.wf m → Memory.wf (Memory.writeN m a bs) := by
  induction bs with
  | nil => intro m a h; exact h
  | cons b bs ih => intro m a h; exact ih (Memory.wf_write h)

theorem Memory.wf_writeLe {m : Memory} {a n v : Nat} (h : Memory.wf m) : Memory.wf (Memory.writeLe m a n v) :=
  Memory.wf_writeN h

theorem Memory.wf_filter {m : Memory} {p : Host.Cell → Bool} (h : Memory.wf m) : Memory.wf (m.filter p) :=
  twfFrom_filter h

theorem Memory.wf_clearRange {m : Memory} {a b : Nat} (h : Memory.wf m) : Memory.wf (Memory.clearRange m a b) :=
  Memory.wf_filter h

/-- A read after a write of bytes: the bytes written, and every other address as before. -/
theorem Memory.read_writeN (bs : List Byte) : ∀ (m : Memory) (a b : Nat),
    Memory.read (Memory.writeN m a bs) b =
      if a ≤ b ∧ b < a + bs.length then bs[b - a]?.getD Memory.blank else Memory.read m b := by
  induction bs with
  | nil => intro m a b; rw [if_neg (by simp only [List.length_nil]; omega)]; rfl
  | cons x bs ih =>
    intro m a b
    simp only [Memory.writeN, ih, Memory.read_write, List.length_cons]
    by_cases h1 : b = a
    · subst h1
      rw [if_neg (by omega), if_pos rfl, if_pos (by omega)]
      simp
    · by_cases h2 : a + 1 ≤ b ∧ b < a + 1 + bs.length
      · rw [if_pos h2, if_pos (by omega)]
        have : b - a = (b - (a + 1)) + 1 := by omega
        rw [this, List.getElem?_cons_succ]
      · rw [if_neg h2, if_neg h1, if_neg (by omega)]

theorem Memory.read_writeN_out {bs : List Byte} {m : Memory} {a b : Nat} (h : b < a ∨ a + bs.length ≤ b) :
    Memory.read (Memory.writeN m a bs) b = Memory.read m b := by
  rw [Memory.read_writeN, if_neg (by omega)]

@[simp] theorem Memory.length_readN (m : Memory) (a n : Nat) : (Memory.readN m a n).length = n := by
  induction n generalizing a with
  | zero => rfl
  | succ n ih => simp [Memory.readN, ih]

theorem Memory.readN_get (m : Memory) (a n i : Nat) (h : i < n) :
    (Memory.readN m a n)[i]? = some (Memory.read m (a + i)) := by
  induction n generalizing a i with
  | zero => omega
  | succ n ih =>
    cases i with
    | zero => rfl
    | succ i =>
      rw [Memory.readN, List.getElem?_cons_succ, ih (a + 1) i (by omega)]
      congr 2; omega

/-- Bytes just written read back. -/
theorem Memory.readN_writeN (m : Memory) (a : Nat) (bs : List Byte) :
    Memory.readN (Memory.writeN m a bs) a bs.length = bs := by
  apply List.ext_getElem?
  intro i
  by_cases h : i < bs.length
  · rw [Memory.readN_get _ _ _ _ h, Memory.read_writeN, if_pos (by omega)]
    have : a + i - a = i := by omega
    rw [this, List.getElem?_eq_getElem h]
    rfl
  · rw [List.getElem?_eq_none (by simp; omega), List.getElem?_eq_none (by omega)]

/-- Bytes outside what is written read as before. -/
theorem Memory.readN_writeN_out {m : Memory} {a b n : Nat} {bs : List Byte} (h : b + n ≤ a ∨ a + bs.length ≤ b) :
    Memory.readN (Memory.writeN m a bs) b n = Memory.readN m b n := by
  apply List.ext_getElem?
  intro i
  by_cases hi : i < n
  · rw [Memory.readN_get _ _ _ _ hi, Memory.readN_get _ _ _ _ hi, Memory.read_writeN_out (by omega)]
  · rw [List.getElem?_eq_none (by simp; omega), List.getElem?_eq_none (by simp; omega)]

/-! ### Bytes and numbers -/

@[simp] theorem length_leBytes (n v : Nat) : (leBytes n v).length = n := by
  induction n generalizing v with
  | zero => rfl
  | succ n ih => simp [leBytes, ih]

theorem leNat_leBytes (n v : Nat) : leNat (leBytes n v) = v % 256 ^ n := by
  induction n generalizing v with
  | zero => simp [leBytes, leNat, Nat.mod_one]
  | succ n ih =>
    have h : v % (256 * 256 ^ n) = v % 256 + 256 * (v / 256 % 256 ^ n) := Nat.mod_mul
    rw [leBytes, leNat, ih, Nat.pow_succ', h]
    rfl

end Sys2Proof.Machine
end

