-- ==== Sys2Proof/Laws/State.lean ====
section
/-! SUPPORT. The setters of the state, one lemma per field and setter, and a read of each kind of state after a write.
A write of one kind of state leaves every other field alone. -/

namespace Sys2Proof.Machine

/-! ### `State.setCore` -/

@[simp] theorem State.setCore_pwr (s : State) (n : Nat) (x : Core) : (s.setCore n x).pwr = s.pwr := rfl
@[simp] theorem State.setCore_clk (s : State) (n : Nat) (x : Core) : (s.setCore n x).clk = s.clk := rfl
@[simp] theorem State.setCore_thm (s : State) (n : Nat) (x : Core) : (s.setCore n x).thm = s.thm := rfl
@[simp] theorem State.setCore_mer (s : State) (n : Nat) (x : Core) : (s.setCore n x).mer = s.mer := rfl
@[simp] theorem State.setCore_evt (s : State) (n : Nat) (x : Core) : (s.setCore n x).evt = s.evt := rfl
@[simp] theorem State.setCore_dram (s : State) (n : Nat) (x : Core) : (s.setCore n x).dram = s.dram := rfl
@[simp] theorem State.setCore_mem (s : State) (n : Nat) (x : Core) : (s.setCore n x).mem = s.mem := rfl
@[simp] theorem State.setCore_gmem (s : State) (n : Nat) (x : Core) : (s.setCore n x).gmem = s.gmem := rfl
@[simp] theorem State.setCore_hostMem (s : State) (n : Nat) (x : Core) : (s.setCore n x).hostMem = s.hostMem := rfl
@[simp] theorem State.setCore_msh (s : State) (n : Nat) (x : Core) : (s.setCore n x).msh = s.msh := rfl
@[simp] theorem State.setCore_rgl (s : State) (n : Nat) (x : Core) : (s.setCore n x).rgl = s.rgl := rfl
@[simp] theorem State.setCore_mil (s : State) (n : Nat) (x : Core) : (s.setCore n x).mil = s.mil := rfl
@[simp] theorem State.setCore_xlt (s : State) (n : Nat) (x : Core) : (s.setCore n x).xlt = s.xlt := rfl
@[simp] theorem State.setCore_host (s : State) (n : Nat) (x : Core) : (s.setCore n x).host = s.host := rfl
@[simp] theorem State.setCore_car (s : State) (n : Nat) (x : Core) : (s.setCore n x).car = s.car := rfl
@[simp] theorem State.setCore_fab (s : State) (n : Nat) (x : Core) : (s.setCore n x).fab = s.fab := rfl
@[simp] theorem State.setCore_die (s : State) (n : Nat) (x : Core) : (s.setCore n x).die = s.die := rfl
@[simp] theorem State.setCore_boot (s : State) (n : Nat) (x : Core) : (s.setCore n x).boot = s.boot := rfl
@[simp] theorem State.setCore_sec (s : State) (n : Nat) (x : Core) : (s.setCore n x).sec = s.sec := rfl
@[simp] theorem State.setCore_scAdmitted (s : State) (n : Nat) (x : Core) : (s.setCore n x).scAdmitted = s.scAdmitted := rfl
@[simp] theorem State.setCore_msReady (s : State) (n : Nat) (x : Core) : (s.setCore n x).msReady = s.msReady := rfl
@[simp] theorem State.setCore_lnReady (s : State) (n : Nat) (x : Core) : (s.setCore n x).lnReady = s.lnReady := rfl
@[simp] theorem State.setCore_fbReady (s : State) (n : Nat) (x : Core) : (s.setCore n x).fbReady = s.fbReady := rfl
@[simp] theorem State.setCore_degraded (s : State) (n : Nat) (x : Core) : (s.setCore n x).degraded = s.degraded := rfl
@[simp] theorem State.setCore_lock (s : State) (n : Nat) (x : Core) : (s.setCore n x).lock = s.lock := rfl
@[simp] theorem State.setCore_free (s : State) (n : Nat) (x : Core) : (s.setCore n x).free = s.free := rfl
@[simp] theorem State.setCore_pending (s : State) (n : Nat) (x : Core) : (s.setCore n x).pending = s.pending := rfl
theorem State.core_setCore (s : State) (n : Nat) (n' : Nat) (x : Core) :
    (s.setCore n x).core n' = if n' = n then x else s.core n' := tget_tset _ _ _ _ _
@[simp] theorem State.core_setCore_same (s : State) (n : Nat) (x : Core) : (s.setCore n x).core n = x :=
  tget_tset_same _ _ _ _
@[simp] theorem State.setCore_grn (s : State) (n : Nat) (x : Core) (fb' : Nat) :
    (s.setCore n x).grn fb' = s.grn fb' := rfl
@[simp] theorem State.setCore_bank (s : State) (n : Nat) (x : Core) (fb' : Nat) (b' : Nat) :
    (s.setCore n x).bank fb' b' = s.bank fb' b' := rfl
@[simp] theorem State.setCore_hbm (s : State) (n : Nat) (x : Core) (fb' : Nat) :
    (s.setCore n x).hbm fb' = s.hbm fb' := rfl
@[simp] theorem State.setCore_stack (s : State) (n : Nat) (x : Core) (k' : Nat) :
    (s.setCore n x).stack k' = s.stack k' := rfl
@[simp] theorem State.setCore_chan (s : State) (n : Nat) (x : Core) (q' : Nat) (c' : Nat) :
    (s.setCore n x).chan q' c' = s.chan q' c' := rfl
@[simp] theorem State.setCore_lost (s : State) (n : Nat) (x : Core) (line' : Nat) :
    (s.setCore n x).lost line' = s.lost line' := rfl
@[simp] theorem State.setCore_lostBurst (s : State) (n : Nat) (x : Core) (k' : Nat) :
    (s.setCore n x).lostBurst k' = s.lostBurst k' := rfl
@[simp] theorem State.setCore_badBurst (s : State) (n : Nat) (x : Core) (k' : Nat) :
    (s.setCore n x).badBurst k' = s.badBurst k' := rfl
@[simp] theorem State.setCore_link (s : State) (n : Nat) (x : Core) (l' : Nat) :
    (s.setCore n x).link l' = s.link l' := rfl
@[simp] theorem State.setCore_ring (s : State) (n : Nat) (x : Core) (r' : Nat) :
    (s.setCore n x).ring r' = s.ring r' := rfl
@[simp] theorem State.setCore_cq (s : State) (n : Nat) (x : Core) (r' : Nat) :
    (s.setCore n x).cq r' = s.cq r' := rfl
@[simp] theorem State.setCore_ctx (s : State) (n : Nat) (x : Core) (c' : Nat) :
    (s.setCore n x).ctx c' = s.ctx c' := rfl
@[simp] theorem State.setCore_group (s : State) (n : Nat) (x : Core) (g' : Nat) :
    (s.setCore n x).group g' = s.group g' := rfl
@[simp] theorem State.setCore_slot (s : State) (n : Nat) (x : Core) (fb' : Nat) (car' : Nat) (sl' : Nat) :
    (s.setCore n x).slot fb' car' sl' = s.slot fb' car' sl' := rfl

/-! ### `State.setGrn` -/

@[simp] theorem State.setGrn_pwr (s : State) (fb : Nat) (x : Grn) : (s.setGrn fb x).pwr = s.pwr := rfl
@[simp] theorem State.setGrn_clk (s : State) (fb : Nat) (x : Grn) : (s.setGrn fb x).clk = s.clk := rfl
@[simp] theorem State.setGrn_thm (s : State) (fb : Nat) (x : Grn) : (s.setGrn fb x).thm = s.thm := rfl
@[simp] theorem State.setGrn_mer (s : State) (fb : Nat) (x : Grn) : (s.setGrn fb x).mer = s.mer := rfl
@[simp] theorem State.setGrn_evt (s : State) (fb : Nat) (x : Grn) : (s.setGrn fb x).evt = s.evt := rfl
@[simp] theorem State.setGrn_mem (s : State) (fb : Nat) (x : Grn) : (s.setGrn fb x).mem = s.mem := rfl
@[simp] theorem State.setGrn_gmem (s : State) (fb : Nat) (x : Grn) : (s.setGrn fb x).gmem = s.gmem := rfl
@[simp] theorem State.setGrn_hostMem (s : State) (fb : Nat) (x : Grn) : (s.setGrn fb x).hostMem = s.hostMem := rfl
@[simp] theorem State.setGrn_msh (s : State) (fb : Nat) (x : Grn) : (s.setGrn fb x).msh = s.msh := rfl
@[simp] theorem State.setGrn_rgl (s : State) (fb : Nat) (x : Grn) : (s.setGrn fb x).rgl = s.rgl := rfl
@[simp] theorem State.setGrn_mil (s : State) (fb : Nat) (x : Grn) : (s.setGrn fb x).mil = s.mil := rfl
@[simp] theorem State.setGrn_xlt (s : State) (fb : Nat) (x : Grn) : (s.setGrn fb x).xlt = s.xlt := rfl
@[simp] theorem State.setGrn_host (s : State) (fb : Nat) (x : Grn) : (s.setGrn fb x).host = s.host := rfl
@[simp] theorem State.setGrn_car (s : State) (fb : Nat) (x : Grn) : (s.setGrn fb x).car = s.car := rfl
@[simp] theorem State.setGrn_cores (s : State) (fb : Nat) (x : Grn) : (s.setGrn fb x).cores = s.cores := rfl
@[simp] theorem State.setGrn_fab (s : State) (fb : Nat) (x : Grn) : (s.setGrn fb x).fab = s.fab := rfl
@[simp] theorem State.setGrn_die (s : State) (fb : Nat) (x : Grn) : (s.setGrn fb x).die = s.die := rfl
@[simp] theorem State.setGrn_boot (s : State) (fb : Nat) (x : Grn) : (s.setGrn fb x).boot = s.boot := rfl
@[simp] theorem State.setGrn_sec (s : State) (fb : Nat) (x : Grn) : (s.setGrn fb x).sec = s.sec := rfl
@[simp] theorem State.setGrn_scAdmitted (s : State) (fb : Nat) (x : Grn) : (s.setGrn fb x).scAdmitted = s.scAdmitted := rfl
@[simp] theorem State.setGrn_msReady (s : State) (fb : Nat) (x : Grn) : (s.setGrn fb x).msReady = s.msReady := rfl
@[simp] theorem State.setGrn_lnReady (s : State) (fb : Nat) (x : Grn) : (s.setGrn fb x).lnReady = s.lnReady := rfl
@[simp] theorem State.setGrn_fbReady (s : State) (fb : Nat) (x : Grn) : (s.setGrn fb x).fbReady = s.fbReady := rfl
@[simp] theorem State.setGrn_degraded (s : State) (fb : Nat) (x : Grn) : (s.setGrn fb x).degraded = s.degraded := rfl
@[simp] theorem State.setGrn_lock (s : State) (fb : Nat) (x : Grn) : (s.setGrn fb x).lock = s.lock := rfl
@[simp] theorem State.setGrn_free (s : State) (fb : Nat) (x : Grn) : (s.setGrn fb x).free = s.free := rfl
@[simp] theorem State.setGrn_pending (s : State) (fb : Nat) (x : Grn) : (s.setGrn fb x).pending = s.pending := rfl
theorem State.grn_setGrn (s : State) (fb : Nat) (fb' : Nat) (x : Grn) :
    (s.setGrn fb x).grn fb' = if fb' = fb then x else s.grn fb' := tget_tset _ _ _ _ _
@[simp] theorem State.grn_setGrn_same (s : State) (fb : Nat) (x : Grn) : (s.setGrn fb x).grn fb = x :=
  tget_tset_same _ _ _ _
@[simp] theorem State.setGrn_core (s : State) (fb : Nat) (x : Grn) (n' : Nat) :
    (s.setGrn fb x).core n' = s.core n' := rfl
@[simp] theorem State.setGrn_bank (s : State) (fb : Nat) (x : Grn) (fb' : Nat) (b' : Nat) :
    (s.setGrn fb x).bank fb' b' = s.bank fb' b' := rfl
@[simp] theorem State.setGrn_hbm (s : State) (fb : Nat) (x : Grn) (fb' : Nat) :
    (s.setGrn fb x).hbm fb' = s.hbm fb' := rfl
@[simp] theorem State.setGrn_stack (s : State) (fb : Nat) (x : Grn) (k' : Nat) :
    (s.setGrn fb x).stack k' = s.stack k' := rfl
@[simp] theorem State.setGrn_chan (s : State) (fb : Nat) (x : Grn) (q' : Nat) (c' : Nat) :
    (s.setGrn fb x).chan q' c' = s.chan q' c' := rfl
@[simp] theorem State.setGrn_lost (s : State) (fb : Nat) (x : Grn) (line' : Nat) :
    (s.setGrn fb x).lost line' = s.lost line' := rfl
@[simp] theorem State.setGrn_lostBurst (s : State) (fb : Nat) (x : Grn) (k' : Nat) :
    (s.setGrn fb x).lostBurst k' = s.lostBurst k' := rfl
@[simp] theorem State.setGrn_badBurst (s : State) (fb : Nat) (x : Grn) (k' : Nat) :
    (s.setGrn fb x).badBurst k' = s.badBurst k' := rfl
@[simp] theorem State.setGrn_link (s : State) (fb : Nat) (x : Grn) (l' : Nat) :
    (s.setGrn fb x).link l' = s.link l' := rfl
@[simp] theorem State.setGrn_ring (s : State) (fb : Nat) (x : Grn) (r' : Nat) :
    (s.setGrn fb x).ring r' = s.ring r' := rfl
@[simp] theorem State.setGrn_cq (s : State) (fb : Nat) (x : Grn) (r' : Nat) :
    (s.setGrn fb x).cq r' = s.cq r' := rfl
@[simp] theorem State.setGrn_ctx (s : State) (fb : Nat) (x : Grn) (c' : Nat) :
    (s.setGrn fb x).ctx c' = s.ctx c' := rfl
@[simp] theorem State.setGrn_group (s : State) (fb : Nat) (x : Grn) (g' : Nat) :
    (s.setGrn fb x).group g' = s.group g' := rfl
@[simp] theorem State.setGrn_slot (s : State) (fb : Nat) (x : Grn) (fb' : Nat) (car' : Nat) (sl' : Nat) :
    (s.setGrn fb x).slot fb' car' sl' = s.slot fb' car' sl' := rfl
@[simp] theorem State.setGrn_thr (s : State) (fb : Nat) (x : Grn) (n t : Nat) : (s.setGrn fb x).thr n t = s.thr n t := rfl

/-! ### `State.setBank` -/

@[simp] theorem State.setBank_pwr (s : State) (fb : Nat) (b : Nat) (x : Bank) : (s.setBank fb b x).pwr = s.pwr := rfl
@[simp] theorem State.setBank_clk (s : State) (fb : Nat) (b : Nat) (x : Bank) : (s.setBank fb b x).clk = s.clk := rfl
@[simp] theorem State.setBank_thm (s : State) (fb : Nat) (b : Nat) (x : Bank) : (s.setBank fb b x).thm = s.thm := rfl
@[simp] theorem State.setBank_mer (s : State) (fb : Nat) (b : Nat) (x : Bank) : (s.setBank fb b x).mer = s.mer := rfl
@[simp] theorem State.setBank_evt (s : State) (fb : Nat) (b : Nat) (x : Bank) : (s.setBank fb b x).evt = s.evt := rfl
@[simp] theorem State.setBank_mem (s : State) (fb : Nat) (b : Nat) (x : Bank) : (s.setBank fb b x).mem = s.mem := rfl
@[simp] theorem State.setBank_gmem (s : State) (fb : Nat) (b : Nat) (x : Bank) : (s.setBank fb b x).gmem = s.gmem := rfl
@[simp] theorem State.setBank_hostMem (s : State) (fb : Nat) (b : Nat) (x : Bank) : (s.setBank fb b x).hostMem = s.hostMem := rfl
@[simp] theorem State.setBank_msh (s : State) (fb : Nat) (b : Nat) (x : Bank) : (s.setBank fb b x).msh = s.msh := rfl
@[simp] theorem State.setBank_rgl (s : State) (fb : Nat) (b : Nat) (x : Bank) : (s.setBank fb b x).rgl = s.rgl := rfl
@[simp] theorem State.setBank_mil (s : State) (fb : Nat) (b : Nat) (x : Bank) : (s.setBank fb b x).mil = s.mil := rfl
@[simp] theorem State.setBank_xlt (s : State) (fb : Nat) (b : Nat) (x : Bank) : (s.setBank fb b x).xlt = s.xlt := rfl
@[simp] theorem State.setBank_host (s : State) (fb : Nat) (b : Nat) (x : Bank) : (s.setBank fb b x).host = s.host := rfl
@[simp] theorem State.setBank_car (s : State) (fb : Nat) (b : Nat) (x : Bank) : (s.setBank fb b x).car = s.car := rfl
@[simp] theorem State.setBank_cores (s : State) (fb : Nat) (b : Nat) (x : Bank) : (s.setBank fb b x).cores = s.cores := rfl
@[simp] theorem State.setBank_fab (s : State) (fb : Nat) (b : Nat) (x : Bank) : (s.setBank fb b x).fab = s.fab := rfl
@[simp] theorem State.setBank_die (s : State) (fb : Nat) (b : Nat) (x : Bank) : (s.setBank fb b x).die = s.die := rfl
@[simp] theorem State.setBank_boot (s : State) (fb : Nat) (b : Nat) (x : Bank) : (s.setBank fb b x).boot = s.boot := rfl
@[simp] theorem State.setBank_sec (s : State) (fb : Nat) (b : Nat) (x : Bank) : (s.setBank fb b x).sec = s.sec := rfl
@[simp] theorem State.setBank_scAdmitted (s : State) (fb : Nat) (b : Nat) (x : Bank) : (s.setBank fb b x).scAdmitted = s.scAdmitted := rfl
@[simp] theorem State.setBank_msReady (s : State) (fb : Nat) (b : Nat) (x : Bank) : (s.setBank fb b x).msReady = s.msReady := rfl
@[simp] theorem State.setBank_lnReady (s : State) (fb : Nat) (b : Nat) (x : Bank) : (s.setBank fb b x).lnReady = s.lnReady := rfl
@[simp] theorem State.setBank_fbReady (s : State) (fb : Nat) (b : Nat) (x : Bank) : (s.setBank fb b x).fbReady = s.fbReady := rfl
@[simp] theorem State.setBank_degraded (s : State) (fb : Nat) (b : Nat) (x : Bank) : (s.setBank fb b x).degraded = s.degraded := rfl
@[simp] theorem State.setBank_lock (s : State) (fb : Nat) (b : Nat) (x : Bank) : (s.setBank fb b x).lock = s.lock := rfl
@[simp] theorem State.setBank_free (s : State) (fb : Nat) (b : Nat) (x : Bank) : (s.setBank fb b x).free = s.free := rfl
@[simp] theorem State.setBank_pending (s : State) (fb : Nat) (b : Nat) (x : Bank) : (s.setBank fb b x).pending = s.pending := rfl
theorem State.bank_setBank (s : State) (fb : Nat) (b : Nat) (fb' : Nat) (b' : Nat) (x : Bank) :
    (s.setBank fb b x).bank fb' b' = if 64 * fb' + b' = 64 * fb + b then x else s.bank fb' b' := tget_tset _ _ _ _ _
@[simp] theorem State.bank_setBank_same (s : State) (fb : Nat) (b : Nat) (x : Bank) : (s.setBank fb b x).bank fb b = x :=
  tget_tset_same _ _ _ _
@[simp] theorem State.setBank_core (s : State) (fb : Nat) (b : Nat) (x : Bank) (n' : Nat) :
    (s.setBank fb b x).core n' = s.core n' := rfl
@[simp] theorem State.setBank_grn (s : State) (fb : Nat) (b : Nat) (x : Bank) (fb' : Nat) :
    (s.setBank fb b x).grn fb' = s.grn fb' := rfl
@[simp] theorem State.setBank_hbm (s : State) (fb : Nat) (b : Nat) (x : Bank) (fb' : Nat) :
    (s.setBank fb b x).hbm fb' = s.hbm fb' := rfl
@[simp] theorem State.setBank_stack (s : State) (fb : Nat) (b : Nat) (x : Bank) (k' : Nat) :
    (s.setBank fb b x).stack k' = s.stack k' := rfl
@[simp] theorem State.setBank_chan (s : State) (fb : Nat) (b : Nat) (x : Bank) (q' : Nat) (c' : Nat) :
    (s.setBank fb b x).chan q' c' = s.chan q' c' := rfl
@[simp] theorem State.setBank_lost (s : State) (fb : Nat) (b : Nat) (x : Bank) (line' : Nat) :
    (s.setBank fb b x).lost line' = s.lost line' := rfl
@[simp] theorem State.setBank_lostBurst (s : State) (fb : Nat) (b : Nat) (x : Bank) (k' : Nat) :
    (s.setBank fb b x).lostBurst k' = s.lostBurst k' := rfl
@[simp] theorem State.setBank_badBurst (s : State) (fb : Nat) (b : Nat) (x : Bank) (k' : Nat) :
    (s.setBank fb b x).badBurst k' = s.badBurst k' := rfl
@[simp] theorem State.setBank_link (s : State) (fb : Nat) (b : Nat) (x : Bank) (l' : Nat) :
    (s.setBank fb b x).link l' = s.link l' := rfl
@[simp] theorem State.setBank_ring (s : State) (fb : Nat) (b : Nat) (x : Bank) (r' : Nat) :
    (s.setBank fb b x).ring r' = s.ring r' := rfl
@[simp] theorem State.setBank_cq (s : State) (fb : Nat) (b : Nat) (x : Bank) (r' : Nat) :
    (s.setBank fb b x).cq r' = s.cq r' := rfl
@[simp] theorem State.setBank_ctx (s : State) (fb : Nat) (b : Nat) (x : Bank) (c' : Nat) :
    (s.setBank fb b x).ctx c' = s.ctx c' := rfl
@[simp] theorem State.setBank_group (s : State) (fb : Nat) (b : Nat) (x : Bank) (g' : Nat) :
    (s.setBank fb b x).group g' = s.group g' := rfl
@[simp] theorem State.setBank_slot (s : State) (fb : Nat) (b : Nat) (x : Bank) (fb' : Nat) (car' : Nat) (sl' : Nat) :
    (s.setBank fb b x).slot fb' car' sl' = s.slot fb' car' sl' := rfl
@[simp] theorem State.setBank_thr (s : State) (fb : Nat) (b : Nat) (x : Bank) (n t : Nat) : (s.setBank fb b x).thr n t = s.thr n t := rfl

/-! ### `State.setHbm` -/

@[simp] theorem State.setHbm_pwr (s : State) (fb : Nat) (x : Hbm) : (s.setHbm fb x).pwr = s.pwr := rfl
@[simp] theorem State.setHbm_clk (s : State) (fb : Nat) (x : Hbm) : (s.setHbm fb x).clk = s.clk := rfl
@[simp] theorem State.setHbm_thm (s : State) (fb : Nat) (x : Hbm) : (s.setHbm fb x).thm = s.thm := rfl
@[simp] theorem State.setHbm_mer (s : State) (fb : Nat) (x : Hbm) : (s.setHbm fb x).mer = s.mer := rfl
@[simp] theorem State.setHbm_evt (s : State) (fb : Nat) (x : Hbm) : (s.setHbm fb x).evt = s.evt := rfl
@[simp] theorem State.setHbm_mem (s : State) (fb : Nat) (x : Hbm) : (s.setHbm fb x).mem = s.mem := rfl
@[simp] theorem State.setHbm_gmem (s : State) (fb : Nat) (x : Hbm) : (s.setHbm fb x).gmem = s.gmem := rfl
@[simp] theorem State.setHbm_hostMem (s : State) (fb : Nat) (x : Hbm) : (s.setHbm fb x).hostMem = s.hostMem := rfl
@[simp] theorem State.setHbm_msh (s : State) (fb : Nat) (x : Hbm) : (s.setHbm fb x).msh = s.msh := rfl
@[simp] theorem State.setHbm_rgl (s : State) (fb : Nat) (x : Hbm) : (s.setHbm fb x).rgl = s.rgl := rfl
@[simp] theorem State.setHbm_mil (s : State) (fb : Nat) (x : Hbm) : (s.setHbm fb x).mil = s.mil := rfl
@[simp] theorem State.setHbm_xlt (s : State) (fb : Nat) (x : Hbm) : (s.setHbm fb x).xlt = s.xlt := rfl
@[simp] theorem State.setHbm_host (s : State) (fb : Nat) (x : Hbm) : (s.setHbm fb x).host = s.host := rfl
@[simp] theorem State.setHbm_car (s : State) (fb : Nat) (x : Hbm) : (s.setHbm fb x).car = s.car := rfl
@[simp] theorem State.setHbm_cores (s : State) (fb : Nat) (x : Hbm) : (s.setHbm fb x).cores = s.cores := rfl
@[simp] theorem State.setHbm_fab (s : State) (fb : Nat) (x : Hbm) : (s.setHbm fb x).fab = s.fab := rfl
@[simp] theorem State.setHbm_die (s : State) (fb : Nat) (x : Hbm) : (s.setHbm fb x).die = s.die := rfl
@[simp] theorem State.setHbm_boot (s : State) (fb : Nat) (x : Hbm) : (s.setHbm fb x).boot = s.boot := rfl
@[simp] theorem State.setHbm_sec (s : State) (fb : Nat) (x : Hbm) : (s.setHbm fb x).sec = s.sec := rfl
@[simp] theorem State.setHbm_scAdmitted (s : State) (fb : Nat) (x : Hbm) : (s.setHbm fb x).scAdmitted = s.scAdmitted := rfl
@[simp] theorem State.setHbm_msReady (s : State) (fb : Nat) (x : Hbm) : (s.setHbm fb x).msReady = s.msReady := rfl
@[simp] theorem State.setHbm_lnReady (s : State) (fb : Nat) (x : Hbm) : (s.setHbm fb x).lnReady = s.lnReady := rfl
@[simp] theorem State.setHbm_fbReady (s : State) (fb : Nat) (x : Hbm) : (s.setHbm fb x).fbReady = s.fbReady := rfl
@[simp] theorem State.setHbm_degraded (s : State) (fb : Nat) (x : Hbm) : (s.setHbm fb x).degraded = s.degraded := rfl
@[simp] theorem State.setHbm_lock (s : State) (fb : Nat) (x : Hbm) : (s.setHbm fb x).lock = s.lock := rfl
@[simp] theorem State.setHbm_free (s : State) (fb : Nat) (x : Hbm) : (s.setHbm fb x).free = s.free := rfl
@[simp] theorem State.setHbm_pending (s : State) (fb : Nat) (x : Hbm) : (s.setHbm fb x).pending = s.pending := rfl
theorem State.hbm_setHbm (s : State) (fb : Nat) (fb' : Nat) (x : Hbm) :
    (s.setHbm fb x).hbm fb' = if fb' = fb then x else s.hbm fb' := tget_tset _ _ _ _ _
@[simp] theorem State.hbm_setHbm_same (s : State) (fb : Nat) (x : Hbm) : (s.setHbm fb x).hbm fb = x :=
  tget_tset_same _ _ _ _
@[simp] theorem State.setHbm_core (s : State) (fb : Nat) (x : Hbm) (n' : Nat) :
    (s.setHbm fb x).core n' = s.core n' := rfl
@[simp] theorem State.setHbm_grn (s : State) (fb : Nat) (x : Hbm) (fb' : Nat) :
    (s.setHbm fb x).grn fb' = s.grn fb' := rfl
@[simp] theorem State.setHbm_bank (s : State) (fb : Nat) (x : Hbm) (fb' : Nat) (b' : Nat) :
    (s.setHbm fb x).bank fb' b' = s.bank fb' b' := rfl
@[simp] theorem State.setHbm_stack (s : State) (fb : Nat) (x : Hbm) (k' : Nat) :
    (s.setHbm fb x).stack k' = s.stack k' := rfl
@[simp] theorem State.setHbm_chan (s : State) (fb : Nat) (x : Hbm) (q' : Nat) (c' : Nat) :
    (s.setHbm fb x).chan q' c' = s.chan q' c' := rfl
@[simp] theorem State.setHbm_lost (s : State) (fb : Nat) (x : Hbm) (line' : Nat) :
    (s.setHbm fb x).lost line' = s.lost line' := rfl
@[simp] theorem State.setHbm_lostBurst (s : State) (fb : Nat) (x : Hbm) (k' : Nat) :
    (s.setHbm fb x).lostBurst k' = s.lostBurst k' := rfl
@[simp] theorem State.setHbm_badBurst (s : State) (fb : Nat) (x : Hbm) (k' : Nat) :
    (s.setHbm fb x).badBurst k' = s.badBurst k' := rfl
@[simp] theorem State.setHbm_link (s : State) (fb : Nat) (x : Hbm) (l' : Nat) :
    (s.setHbm fb x).link l' = s.link l' := rfl
@[simp] theorem State.setHbm_ring (s : State) (fb : Nat) (x : Hbm) (r' : Nat) :
    (s.setHbm fb x).ring r' = s.ring r' := rfl
@[simp] theorem State.setHbm_cq (s : State) (fb : Nat) (x : Hbm) (r' : Nat) :
    (s.setHbm fb x).cq r' = s.cq r' := rfl
@[simp] theorem State.setHbm_ctx (s : State) (fb : Nat) (x : Hbm) (c' : Nat) :
    (s.setHbm fb x).ctx c' = s.ctx c' := rfl
@[simp] theorem State.setHbm_group (s : State) (fb : Nat) (x : Hbm) (g' : Nat) :
    (s.setHbm fb x).group g' = s.group g' := rfl
@[simp] theorem State.setHbm_slot (s : State) (fb : Nat) (x : Hbm) (fb' : Nat) (car' : Nat) (sl' : Nat) :
    (s.setHbm fb x).slot fb' car' sl' = s.slot fb' car' sl' := rfl
@[simp] theorem State.setHbm_thr (s : State) (fb : Nat) (x : Hbm) (n t : Nat) : (s.setHbm fb x).thr n t = s.thr n t := rfl

/-! ### `State.setStack` -/

@[simp] theorem State.setStack_pwr (s : State) (k : Nat) (x : Stack) : (s.setStack k x).pwr = s.pwr := rfl
@[simp] theorem State.setStack_clk (s : State) (k : Nat) (x : Stack) : (s.setStack k x).clk = s.clk := rfl
@[simp] theorem State.setStack_thm (s : State) (k : Nat) (x : Stack) : (s.setStack k x).thm = s.thm := rfl
@[simp] theorem State.setStack_mer (s : State) (k : Nat) (x : Stack) : (s.setStack k x).mer = s.mer := rfl
@[simp] theorem State.setStack_evt (s : State) (k : Nat) (x : Stack) : (s.setStack k x).evt = s.evt := rfl
@[simp] theorem State.setStack_mem (s : State) (k : Nat) (x : Stack) : (s.setStack k x).mem = s.mem := rfl
@[simp] theorem State.setStack_gmem (s : State) (k : Nat) (x : Stack) : (s.setStack k x).gmem = s.gmem := rfl
@[simp] theorem State.setStack_hostMem (s : State) (k : Nat) (x : Stack) : (s.setStack k x).hostMem = s.hostMem := rfl
@[simp] theorem State.setStack_msh (s : State) (k : Nat) (x : Stack) : (s.setStack k x).msh = s.msh := rfl
@[simp] theorem State.setStack_rgl (s : State) (k : Nat) (x : Stack) : (s.setStack k x).rgl = s.rgl := rfl
@[simp] theorem State.setStack_mil (s : State) (k : Nat) (x : Stack) : (s.setStack k x).mil = s.mil := rfl
@[simp] theorem State.setStack_xlt (s : State) (k : Nat) (x : Stack) : (s.setStack k x).xlt = s.xlt := rfl
@[simp] theorem State.setStack_host (s : State) (k : Nat) (x : Stack) : (s.setStack k x).host = s.host := rfl
@[simp] theorem State.setStack_car (s : State) (k : Nat) (x : Stack) : (s.setStack k x).car = s.car := rfl
@[simp] theorem State.setStack_cores (s : State) (k : Nat) (x : Stack) : (s.setStack k x).cores = s.cores := rfl
@[simp] theorem State.setStack_fab (s : State) (k : Nat) (x : Stack) : (s.setStack k x).fab = s.fab := rfl
@[simp] theorem State.setStack_die (s : State) (k : Nat) (x : Stack) : (s.setStack k x).die = s.die := rfl
@[simp] theorem State.setStack_boot (s : State) (k : Nat) (x : Stack) : (s.setStack k x).boot = s.boot := rfl
@[simp] theorem State.setStack_sec (s : State) (k : Nat) (x : Stack) : (s.setStack k x).sec = s.sec := rfl
@[simp] theorem State.setStack_scAdmitted (s : State) (k : Nat) (x : Stack) : (s.setStack k x).scAdmitted = s.scAdmitted := rfl
@[simp] theorem State.setStack_msReady (s : State) (k : Nat) (x : Stack) : (s.setStack k x).msReady = s.msReady := rfl
@[simp] theorem State.setStack_lnReady (s : State) (k : Nat) (x : Stack) : (s.setStack k x).lnReady = s.lnReady := rfl
@[simp] theorem State.setStack_fbReady (s : State) (k : Nat) (x : Stack) : (s.setStack k x).fbReady = s.fbReady := rfl
@[simp] theorem State.setStack_degraded (s : State) (k : Nat) (x : Stack) : (s.setStack k x).degraded = s.degraded := rfl
@[simp] theorem State.setStack_lock (s : State) (k : Nat) (x : Stack) : (s.setStack k x).lock = s.lock := rfl
@[simp] theorem State.setStack_free (s : State) (k : Nat) (x : Stack) : (s.setStack k x).free = s.free := rfl
@[simp] theorem State.setStack_pending (s : State) (k : Nat) (x : Stack) : (s.setStack k x).pending = s.pending := rfl
theorem State.stack_setStack (s : State) (k : Nat) (k' : Nat) (x : Stack) :
    (s.setStack k x).stack k' = if k' = k then x else s.stack k' := tget_tset _ _ _ _ _
@[simp] theorem State.stack_setStack_same (s : State) (k : Nat) (x : Stack) : (s.setStack k x).stack k = x :=
  tget_tset_same _ _ _ _
@[simp] theorem State.setStack_core (s : State) (k : Nat) (x : Stack) (n' : Nat) :
    (s.setStack k x).core n' = s.core n' := rfl
@[simp] theorem State.setStack_grn (s : State) (k : Nat) (x : Stack) (fb' : Nat) :
    (s.setStack k x).grn fb' = s.grn fb' := rfl
@[simp] theorem State.setStack_bank (s : State) (k : Nat) (x : Stack) (fb' : Nat) (b' : Nat) :
    (s.setStack k x).bank fb' b' = s.bank fb' b' := rfl
@[simp] theorem State.setStack_hbm (s : State) (k : Nat) (x : Stack) (fb' : Nat) :
    (s.setStack k x).hbm fb' = s.hbm fb' := rfl
@[simp] theorem State.setStack_chan (s : State) (k : Nat) (x : Stack) (q' : Nat) (c' : Nat) :
    (s.setStack k x).chan q' c' = s.chan q' c' := rfl
@[simp] theorem State.setStack_lost (s : State) (k : Nat) (x : Stack) (line' : Nat) :
    (s.setStack k x).lost line' = s.lost line' := rfl
@[simp] theorem State.setStack_lostBurst (s : State) (k : Nat) (x : Stack) (k' : Nat) :
    (s.setStack k x).lostBurst k' = s.lostBurst k' := rfl
@[simp] theorem State.setStack_badBurst (s : State) (k : Nat) (x : Stack) (k' : Nat) :
    (s.setStack k x).badBurst k' = s.badBurst k' := rfl
@[simp] theorem State.setStack_link (s : State) (k : Nat) (x : Stack) (l' : Nat) :
    (s.setStack k x).link l' = s.link l' := rfl
@[simp] theorem State.setStack_ring (s : State) (k : Nat) (x : Stack) (r' : Nat) :
    (s.setStack k x).ring r' = s.ring r' := rfl
@[simp] theorem State.setStack_cq (s : State) (k : Nat) (x : Stack) (r' : Nat) :
    (s.setStack k x).cq r' = s.cq r' := rfl
@[simp] theorem State.setStack_ctx (s : State) (k : Nat) (x : Stack) (c' : Nat) :
    (s.setStack k x).ctx c' = s.ctx c' := rfl
@[simp] theorem State.setStack_group (s : State) (k : Nat) (x : Stack) (g' : Nat) :
    (s.setStack k x).group g' = s.group g' := rfl
@[simp] theorem State.setStack_slot (s : State) (k : Nat) (x : Stack) (fb' : Nat) (car' : Nat) (sl' : Nat) :
    (s.setStack k x).slot fb' car' sl' = s.slot fb' car' sl' := rfl
@[simp] theorem State.setStack_thr (s : State) (k : Nat) (x : Stack) (n t : Nat) : (s.setStack k x).thr n t = s.thr n t := rfl

/-! ### `State.setChan` -/

@[simp] theorem State.setChan_pwr (s : State) (q : Nat) (c : Nat) (x : Chan) : (s.setChan q c x).pwr = s.pwr := rfl
@[simp] theorem State.setChan_clk (s : State) (q : Nat) (c : Nat) (x : Chan) : (s.setChan q c x).clk = s.clk := rfl
@[simp] theorem State.setChan_thm (s : State) (q : Nat) (c : Nat) (x : Chan) : (s.setChan q c x).thm = s.thm := rfl
@[simp] theorem State.setChan_mer (s : State) (q : Nat) (c : Nat) (x : Chan) : (s.setChan q c x).mer = s.mer := rfl
@[simp] theorem State.setChan_evt (s : State) (q : Nat) (c : Nat) (x : Chan) : (s.setChan q c x).evt = s.evt := rfl
@[simp] theorem State.setChan_mem (s : State) (q : Nat) (c : Nat) (x : Chan) : (s.setChan q c x).mem = s.mem := rfl
@[simp] theorem State.setChan_gmem (s : State) (q : Nat) (c : Nat) (x : Chan) : (s.setChan q c x).gmem = s.gmem := rfl
@[simp] theorem State.setChan_hostMem (s : State) (q : Nat) (c : Nat) (x : Chan) : (s.setChan q c x).hostMem = s.hostMem := rfl
@[simp] theorem State.setChan_msh (s : State) (q : Nat) (c : Nat) (x : Chan) : (s.setChan q c x).msh = s.msh := rfl
@[simp] theorem State.setChan_rgl (s : State) (q : Nat) (c : Nat) (x : Chan) : (s.setChan q c x).rgl = s.rgl := rfl
@[simp] theorem State.setChan_mil (s : State) (q : Nat) (c : Nat) (x : Chan) : (s.setChan q c x).mil = s.mil := rfl
@[simp] theorem State.setChan_xlt (s : State) (q : Nat) (c : Nat) (x : Chan) : (s.setChan q c x).xlt = s.xlt := rfl
@[simp] theorem State.setChan_host (s : State) (q : Nat) (c : Nat) (x : Chan) : (s.setChan q c x).host = s.host := rfl
@[simp] theorem State.setChan_car (s : State) (q : Nat) (c : Nat) (x : Chan) : (s.setChan q c x).car = s.car := rfl
@[simp] theorem State.setChan_cores (s : State) (q : Nat) (c : Nat) (x : Chan) : (s.setChan q c x).cores = s.cores := rfl
@[simp] theorem State.setChan_fab (s : State) (q : Nat) (c : Nat) (x : Chan) : (s.setChan q c x).fab = s.fab := rfl
@[simp] theorem State.setChan_die (s : State) (q : Nat) (c : Nat) (x : Chan) : (s.setChan q c x).die = s.die := rfl
@[simp] theorem State.setChan_boot (s : State) (q : Nat) (c : Nat) (x : Chan) : (s.setChan q c x).boot = s.boot := rfl
@[simp] theorem State.setChan_sec (s : State) (q : Nat) (c : Nat) (x : Chan) : (s.setChan q c x).sec = s.sec := rfl
@[simp] theorem State.setChan_scAdmitted (s : State) (q : Nat) (c : Nat) (x : Chan) : (s.setChan q c x).scAdmitted = s.scAdmitted := rfl
@[simp] theorem State.setChan_msReady (s : State) (q : Nat) (c : Nat) (x : Chan) : (s.setChan q c x).msReady = s.msReady := rfl
@[simp] theorem State.setChan_lnReady (s : State) (q : Nat) (c : Nat) (x : Chan) : (s.setChan q c x).lnReady = s.lnReady := rfl
@[simp] theorem State.setChan_fbReady (s : State) (q : Nat) (c : Nat) (x : Chan) : (s.setChan q c x).fbReady = s.fbReady := rfl
@[simp] theorem State.setChan_degraded (s : State) (q : Nat) (c : Nat) (x : Chan) : (s.setChan q c x).degraded = s.degraded := rfl
@[simp] theorem State.setChan_lock (s : State) (q : Nat) (c : Nat) (x : Chan) : (s.setChan q c x).lock = s.lock := rfl
@[simp] theorem State.setChan_free (s : State) (q : Nat) (c : Nat) (x : Chan) : (s.setChan q c x).free = s.free := rfl
@[simp] theorem State.setChan_pending (s : State) (q : Nat) (c : Nat) (x : Chan) : (s.setChan q c x).pending = s.pending := rfl
theorem State.chan_setChan (s : State) (q : Nat) (c : Nat) (q' : Nat) (c' : Nat) (x : Chan) :
    (s.setChan q c x).chan q' c' = if 64 * q' + c' = 64 * q + c then x else s.chan q' c' := tget_tset _ _ _ _ _
@[simp] theorem State.chan_setChan_same (s : State) (q : Nat) (c : Nat) (x : Chan) : (s.setChan q c x).chan q c = x :=
  tget_tset_same _ _ _ _
@[simp] theorem State.setChan_core (s : State) (q : Nat) (c : Nat) (x : Chan) (n' : Nat) :
    (s.setChan q c x).core n' = s.core n' := rfl
@[simp] theorem State.setChan_grn (s : State) (q : Nat) (c : Nat) (x : Chan) (fb' : Nat) :
    (s.setChan q c x).grn fb' = s.grn fb' := rfl
@[simp] theorem State.setChan_bank (s : State) (q : Nat) (c : Nat) (x : Chan) (fb' : Nat) (b' : Nat) :
    (s.setChan q c x).bank fb' b' = s.bank fb' b' := rfl
@[simp] theorem State.setChan_hbm (s : State) (q : Nat) (c : Nat) (x : Chan) (fb' : Nat) :
    (s.setChan q c x).hbm fb' = s.hbm fb' := rfl
@[simp] theorem State.setChan_stack (s : State) (q : Nat) (c : Nat) (x : Chan) (k' : Nat) :
    (s.setChan q c x).stack k' = s.stack k' := rfl
@[simp] theorem State.setChan_lost (s : State) (q : Nat) (c : Nat) (x : Chan) (line' : Nat) :
    (s.setChan q c x).lost line' = s.lost line' := rfl
@[simp] theorem State.setChan_lostBurst (s : State) (q : Nat) (c : Nat) (x : Chan) (k' : Nat) :
    (s.setChan q c x).lostBurst k' = s.lostBurst k' := rfl
@[simp] theorem State.setChan_badBurst (s : State) (q : Nat) (c : Nat) (x : Chan) (k' : Nat) :
    (s.setChan q c x).badBurst k' = s.badBurst k' := rfl
@[simp] theorem State.setChan_link (s : State) (q : Nat) (c : Nat) (x : Chan) (l' : Nat) :
    (s.setChan q c x).link l' = s.link l' := rfl
@[simp] theorem State.setChan_ring (s : State) (q : Nat) (c : Nat) (x : Chan) (r' : Nat) :
    (s.setChan q c x).ring r' = s.ring r' := rfl
@[simp] theorem State.setChan_cq (s : State) (q : Nat) (c : Nat) (x : Chan) (r' : Nat) :
    (s.setChan q c x).cq r' = s.cq r' := rfl
@[simp] theorem State.setChan_ctx (s : State) (q : Nat) (c : Nat) (x : Chan) (c' : Nat) :
    (s.setChan q c x).ctx c' = s.ctx c' := rfl
@[simp] theorem State.setChan_group (s : State) (q : Nat) (c : Nat) (x : Chan) (g' : Nat) :
    (s.setChan q c x).group g' = s.group g' := rfl
@[simp] theorem State.setChan_slot (s : State) (q : Nat) (c : Nat) (x : Chan) (fb' : Nat) (car' : Nat) (sl' : Nat) :
    (s.setChan q c x).slot fb' car' sl' = s.slot fb' car' sl' := rfl
@[simp] theorem State.setChan_thr (s : State) (q : Nat) (c : Nat) (x : Chan) (n t : Nat) : (s.setChan q c x).thr n t = s.thr n t := rfl

/-! ### `State.setLost` -/

@[simp] theorem State.setLost_pwr (s : State) (line : Nat) (x : Bool) : (s.setLost line x).pwr = s.pwr := rfl
@[simp] theorem State.setLost_clk (s : State) (line : Nat) (x : Bool) : (s.setLost line x).clk = s.clk := rfl
@[simp] theorem State.setLost_thm (s : State) (line : Nat) (x : Bool) : (s.setLost line x).thm = s.thm := rfl
@[simp] theorem State.setLost_mer (s : State) (line : Nat) (x : Bool) : (s.setLost line x).mer = s.mer := rfl
@[simp] theorem State.setLost_evt (s : State) (line : Nat) (x : Bool) : (s.setLost line x).evt = s.evt := rfl
@[simp] theorem State.setLost_mem (s : State) (line : Nat) (x : Bool) : (s.setLost line x).mem = s.mem := rfl
@[simp] theorem State.setLost_gmem (s : State) (line : Nat) (x : Bool) : (s.setLost line x).gmem = s.gmem := rfl
@[simp] theorem State.setLost_hostMem (s : State) (line : Nat) (x : Bool) : (s.setLost line x).hostMem = s.hostMem := rfl
@[simp] theorem State.setLost_msh (s : State) (line : Nat) (x : Bool) : (s.setLost line x).msh = s.msh := rfl
@[simp] theorem State.setLost_rgl (s : State) (line : Nat) (x : Bool) : (s.setLost line x).rgl = s.rgl := rfl
@[simp] theorem State.setLost_mil (s : State) (line : Nat) (x : Bool) : (s.setLost line x).mil = s.mil := rfl
@[simp] theorem State.setLost_xlt (s : State) (line : Nat) (x : Bool) : (s.setLost line x).xlt = s.xlt := rfl
@[simp] theorem State.setLost_host (s : State) (line : Nat) (x : Bool) : (s.setLost line x).host = s.host := rfl
@[simp] theorem State.setLost_car (s : State) (line : Nat) (x : Bool) : (s.setLost line x).car = s.car := rfl
@[simp] theorem State.setLost_cores (s : State) (line : Nat) (x : Bool) : (s.setLost line x).cores = s.cores := rfl
@[simp] theorem State.setLost_fab (s : State) (line : Nat) (x : Bool) : (s.setLost line x).fab = s.fab := rfl
@[simp] theorem State.setLost_die (s : State) (line : Nat) (x : Bool) : (s.setLost line x).die = s.die := rfl
@[simp] theorem State.setLost_boot (s : State) (line : Nat) (x : Bool) : (s.setLost line x).boot = s.boot := rfl
@[simp] theorem State.setLost_sec (s : State) (line : Nat) (x : Bool) : (s.setLost line x).sec = s.sec := rfl
@[simp] theorem State.setLost_scAdmitted (s : State) (line : Nat) (x : Bool) : (s.setLost line x).scAdmitted = s.scAdmitted := rfl
@[simp] theorem State.setLost_msReady (s : State) (line : Nat) (x : Bool) : (s.setLost line x).msReady = s.msReady := rfl
@[simp] theorem State.setLost_lnReady (s : State) (line : Nat) (x : Bool) : (s.setLost line x).lnReady = s.lnReady := rfl
@[simp] theorem State.setLost_fbReady (s : State) (line : Nat) (x : Bool) : (s.setLost line x).fbReady = s.fbReady := rfl
@[simp] theorem State.setLost_degraded (s : State) (line : Nat) (x : Bool) : (s.setLost line x).degraded = s.degraded := rfl
@[simp] theorem State.setLost_lock (s : State) (line : Nat) (x : Bool) : (s.setLost line x).lock = s.lock := rfl
@[simp] theorem State.setLost_free (s : State) (line : Nat) (x : Bool) : (s.setLost line x).free = s.free := rfl
@[simp] theorem State.setLost_pending (s : State) (line : Nat) (x : Bool) : (s.setLost line x).pending = s.pending := rfl
theorem State.lost_setLost (s : State) (line : Nat) (line' : Nat) (x : Bool) :
    (s.setLost line x).lost line' = if line' = line then x else s.lost line' := tget_tset _ _ _ _ _
@[simp] theorem State.lost_setLost_same (s : State) (line : Nat) (x : Bool) : (s.setLost line x).lost line = x :=
  tget_tset_same _ _ _ _
@[simp] theorem State.setLost_core (s : State) (line : Nat) (x : Bool) (n' : Nat) :
    (s.setLost line x).core n' = s.core n' := rfl
@[simp] theorem State.setLost_grn (s : State) (line : Nat) (x : Bool) (fb' : Nat) :
    (s.setLost line x).grn fb' = s.grn fb' := rfl
@[simp] theorem State.setLost_bank (s : State) (line : Nat) (x : Bool) (fb' : Nat) (b' : Nat) :
    (s.setLost line x).bank fb' b' = s.bank fb' b' := rfl
@[simp] theorem State.setLost_hbm (s : State) (line : Nat) (x : Bool) (fb' : Nat) :
    (s.setLost line x).hbm fb' = s.hbm fb' := rfl
@[simp] theorem State.setLost_stack (s : State) (line : Nat) (x : Bool) (k' : Nat) :
    (s.setLost line x).stack k' = s.stack k' := rfl
@[simp] theorem State.setLost_chan (s : State) (line : Nat) (x : Bool) (q' : Nat) (c' : Nat) :
    (s.setLost line x).chan q' c' = s.chan q' c' := rfl
@[simp] theorem State.setLost_lostBurst (s : State) (line : Nat) (x : Bool) (k' : Nat) :
    (s.setLost line x).lostBurst k' = s.lostBurst k' := rfl
@[simp] theorem State.setLost_badBurst (s : State) (line : Nat) (x : Bool) (k' : Nat) :
    (s.setLost line x).badBurst k' = s.badBurst k' := rfl
@[simp] theorem State.setLost_link (s : State) (line : Nat) (x : Bool) (l' : Nat) :
    (s.setLost line x).link l' = s.link l' := rfl
@[simp] theorem State.setLost_ring (s : State) (line : Nat) (x : Bool) (r' : Nat) :
    (s.setLost line x).ring r' = s.ring r' := rfl
@[simp] theorem State.setLost_cq (s : State) (line : Nat) (x : Bool) (r' : Nat) :
    (s.setLost line x).cq r' = s.cq r' := rfl
@[simp] theorem State.setLost_ctx (s : State) (line : Nat) (x : Bool) (c' : Nat) :
    (s.setLost line x).ctx c' = s.ctx c' := rfl
@[simp] theorem State.setLost_group (s : State) (line : Nat) (x : Bool) (g' : Nat) :
    (s.setLost line x).group g' = s.group g' := rfl
@[simp] theorem State.setLost_slot (s : State) (line : Nat) (x : Bool) (fb' : Nat) (car' : Nat) (sl' : Nat) :
    (s.setLost line x).slot fb' car' sl' = s.slot fb' car' sl' := rfl
@[simp] theorem State.setLost_thr (s : State) (line : Nat) (x : Bool) (n t : Nat) : (s.setLost line x).thr n t = s.thr n t := rfl

/-! ### `State.setLostBurst` -/

@[simp] theorem State.setLostBurst_pwr (s : State) (k : Nat) (x : Bool) : (s.setLostBurst k x).pwr = s.pwr := rfl
@[simp] theorem State.setLostBurst_clk (s : State) (k : Nat) (x : Bool) : (s.setLostBurst k x).clk = s.clk := rfl
@[simp] theorem State.setLostBurst_thm (s : State) (k : Nat) (x : Bool) : (s.setLostBurst k x).thm = s.thm := rfl
@[simp] theorem State.setLostBurst_mer (s : State) (k : Nat) (x : Bool) : (s.setLostBurst k x).mer = s.mer := rfl
@[simp] theorem State.setLostBurst_evt (s : State) (k : Nat) (x : Bool) : (s.setLostBurst k x).evt = s.evt := rfl
@[simp] theorem State.setLostBurst_mem (s : State) (k : Nat) (x : Bool) : (s.setLostBurst k x).mem = s.mem := rfl
@[simp] theorem State.setLostBurst_gmem (s : State) (k : Nat) (x : Bool) : (s.setLostBurst k x).gmem = s.gmem := rfl
@[simp] theorem State.setLostBurst_hostMem (s : State) (k : Nat) (x : Bool) : (s.setLostBurst k x).hostMem = s.hostMem := rfl
@[simp] theorem State.setLostBurst_msh (s : State) (k : Nat) (x : Bool) : (s.setLostBurst k x).msh = s.msh := rfl
@[simp] theorem State.setLostBurst_rgl (s : State) (k : Nat) (x : Bool) : (s.setLostBurst k x).rgl = s.rgl := rfl
@[simp] theorem State.setLostBurst_mil (s : State) (k : Nat) (x : Bool) : (s.setLostBurst k x).mil = s.mil := rfl
@[simp] theorem State.setLostBurst_xlt (s : State) (k : Nat) (x : Bool) : (s.setLostBurst k x).xlt = s.xlt := rfl
@[simp] theorem State.setLostBurst_host (s : State) (k : Nat) (x : Bool) : (s.setLostBurst k x).host = s.host := rfl
@[simp] theorem State.setLostBurst_car (s : State) (k : Nat) (x : Bool) : (s.setLostBurst k x).car = s.car := rfl
@[simp] theorem State.setLostBurst_cores (s : State) (k : Nat) (x : Bool) : (s.setLostBurst k x).cores = s.cores := rfl
@[simp] theorem State.setLostBurst_fab (s : State) (k : Nat) (x : Bool) : (s.setLostBurst k x).fab = s.fab := rfl
@[simp] theorem State.setLostBurst_die (s : State) (k : Nat) (x : Bool) : (s.setLostBurst k x).die = s.die := rfl
@[simp] theorem State.setLostBurst_boot (s : State) (k : Nat) (x : Bool) : (s.setLostBurst k x).boot = s.boot := rfl
@[simp] theorem State.setLostBurst_sec (s : State) (k : Nat) (x : Bool) : (s.setLostBurst k x).sec = s.sec := rfl
@[simp] theorem State.setLostBurst_scAdmitted (s : State) (k : Nat) (x : Bool) : (s.setLostBurst k x).scAdmitted = s.scAdmitted := rfl
@[simp] theorem State.setLostBurst_msReady (s : State) (k : Nat) (x : Bool) : (s.setLostBurst k x).msReady = s.msReady := rfl
@[simp] theorem State.setLostBurst_lnReady (s : State) (k : Nat) (x : Bool) : (s.setLostBurst k x).lnReady = s.lnReady := rfl
@[simp] theorem State.setLostBurst_fbReady (s : State) (k : Nat) (x : Bool) : (s.setLostBurst k x).fbReady = s.fbReady := rfl
@[simp] theorem State.setLostBurst_degraded (s : State) (k : Nat) (x : Bool) : (s.setLostBurst k x).degraded = s.degraded := rfl
@[simp] theorem State.setLostBurst_lock (s : State) (k : Nat) (x : Bool) : (s.setLostBurst k x).lock = s.lock := rfl
@[simp] theorem State.setLostBurst_free (s : State) (k : Nat) (x : Bool) : (s.setLostBurst k x).free = s.free := rfl
@[simp] theorem State.setLostBurst_pending (s : State) (k : Nat) (x : Bool) : (s.setLostBurst k x).pending = s.pending := rfl
theorem State.lostBurst_setLostBurst (s : State) (k : Nat) (k' : Nat) (x : Bool) :
    (s.setLostBurst k x).lostBurst k' = if k' = k then x else s.lostBurst k' := tget_tset _ _ _ _ _
@[simp] theorem State.lostBurst_setLostBurst_same (s : State) (k : Nat) (x : Bool) : (s.setLostBurst k x).lostBurst k = x :=
  tget_tset_same _ _ _ _
@[simp] theorem State.setLostBurst_core (s : State) (k : Nat) (x : Bool) (n' : Nat) :
    (s.setLostBurst k x).core n' = s.core n' := rfl
@[simp] theorem State.setLostBurst_grn (s : State) (k : Nat) (x : Bool) (fb' : Nat) :
    (s.setLostBurst k x).grn fb' = s.grn fb' := rfl
@[simp] theorem State.setLostBurst_bank (s : State) (k : Nat) (x : Bool) (fb' : Nat) (b' : Nat) :
    (s.setLostBurst k x).bank fb' b' = s.bank fb' b' := rfl
@[simp] theorem State.setLostBurst_hbm (s : State) (k : Nat) (x : Bool) (fb' : Nat) :
    (s.setLostBurst k x).hbm fb' = s.hbm fb' := rfl
@[simp] theorem State.setLostBurst_stack (s : State) (k : Nat) (x : Bool) (k' : Nat) :
    (s.setLostBurst k x).stack k' = s.stack k' := rfl
@[simp] theorem State.setLostBurst_chan (s : State) (k : Nat) (x : Bool) (q' : Nat) (c' : Nat) :
    (s.setLostBurst k x).chan q' c' = s.chan q' c' := rfl
@[simp] theorem State.setLostBurst_lost (s : State) (k : Nat) (x : Bool) (line' : Nat) :
    (s.setLostBurst k x).lost line' = s.lost line' := rfl
@[simp] theorem State.setLostBurst_badBurst (s : State) (k : Nat) (x : Bool) (k' : Nat) :
    (s.setLostBurst k x).badBurst k' = s.badBurst k' := rfl
@[simp] theorem State.setLostBurst_link (s : State) (k : Nat) (x : Bool) (l' : Nat) :
    (s.setLostBurst k x).link l' = s.link l' := rfl
@[simp] theorem State.setLostBurst_ring (s : State) (k : Nat) (x : Bool) (r' : Nat) :
    (s.setLostBurst k x).ring r' = s.ring r' := rfl
@[simp] theorem State.setLostBurst_cq (s : State) (k : Nat) (x : Bool) (r' : Nat) :
    (s.setLostBurst k x).cq r' = s.cq r' := rfl
@[simp] theorem State.setLostBurst_ctx (s : State) (k : Nat) (x : Bool) (c' : Nat) :
    (s.setLostBurst k x).ctx c' = s.ctx c' := rfl
@[simp] theorem State.setLostBurst_group (s : State) (k : Nat) (x : Bool) (g' : Nat) :
    (s.setLostBurst k x).group g' = s.group g' := rfl
@[simp] theorem State.setLostBurst_slot (s : State) (k : Nat) (x : Bool) (fb' : Nat) (car' : Nat) (sl' : Nat) :
    (s.setLostBurst k x).slot fb' car' sl' = s.slot fb' car' sl' := rfl
@[simp] theorem State.setLostBurst_thr (s : State) (k : Nat) (x : Bool) (n t : Nat) : (s.setLostBurst k x).thr n t = s.thr n t := rfl

/-! ### `State.setBadBurst` -/

@[simp] theorem State.setBadBurst_pwr (s : State) (k : Nat) (x : Bool) : (s.setBadBurst k x).pwr = s.pwr := rfl
@[simp] theorem State.setBadBurst_clk (s : State) (k : Nat) (x : Bool) : (s.setBadBurst k x).clk = s.clk := rfl
@[simp] theorem State.setBadBurst_thm (s : State) (k : Nat) (x : Bool) : (s.setBadBurst k x).thm = s.thm := rfl
@[simp] theorem State.setBadBurst_mer (s : State) (k : Nat) (x : Bool) : (s.setBadBurst k x).mer = s.mer := rfl
@[simp] theorem State.setBadBurst_evt (s : State) (k : Nat) (x : Bool) : (s.setBadBurst k x).evt = s.evt := rfl
@[simp] theorem State.setBadBurst_mem (s : State) (k : Nat) (x : Bool) : (s.setBadBurst k x).mem = s.mem := rfl
@[simp] theorem State.setBadBurst_gmem (s : State) (k : Nat) (x : Bool) : (s.setBadBurst k x).gmem = s.gmem := rfl
@[simp] theorem State.setBadBurst_hostMem (s : State) (k : Nat) (x : Bool) : (s.setBadBurst k x).hostMem = s.hostMem := rfl
@[simp] theorem State.setBadBurst_msh (s : State) (k : Nat) (x : Bool) : (s.setBadBurst k x).msh = s.msh := rfl
@[simp] theorem State.setBadBurst_rgl (s : State) (k : Nat) (x : Bool) : (s.setBadBurst k x).rgl = s.rgl := rfl
@[simp] theorem State.setBadBurst_mil (s : State) (k : Nat) (x : Bool) : (s.setBadBurst k x).mil = s.mil := rfl
@[simp] theorem State.setBadBurst_xlt (s : State) (k : Nat) (x : Bool) : (s.setBadBurst k x).xlt = s.xlt := rfl
@[simp] theorem State.setBadBurst_host (s : State) (k : Nat) (x : Bool) : (s.setBadBurst k x).host = s.host := rfl
@[simp] theorem State.setBadBurst_car (s : State) (k : Nat) (x : Bool) : (s.setBadBurst k x).car = s.car := rfl
@[simp] theorem State.setBadBurst_cores (s : State) (k : Nat) (x : Bool) : (s.setBadBurst k x).cores = s.cores := rfl
@[simp] theorem State.setBadBurst_fab (s : State) (k : Nat) (x : Bool) : (s.setBadBurst k x).fab = s.fab := rfl
@[simp] theorem State.setBadBurst_die (s : State) (k : Nat) (x : Bool) : (s.setBadBurst k x).die = s.die := rfl
@[simp] theorem State.setBadBurst_boot (s : State) (k : Nat) (x : Bool) : (s.setBadBurst k x).boot = s.boot := rfl
@[simp] theorem State.setBadBurst_sec (s : State) (k : Nat) (x : Bool) : (s.setBadBurst k x).sec = s.sec := rfl
@[simp] theorem State.setBadBurst_scAdmitted (s : State) (k : Nat) (x : Bool) : (s.setBadBurst k x).scAdmitted = s.scAdmitted := rfl
@[simp] theorem State.setBadBurst_msReady (s : State) (k : Nat) (x : Bool) : (s.setBadBurst k x).msReady = s.msReady := rfl
@[simp] theorem State.setBadBurst_lnReady (s : State) (k : Nat) (x : Bool) : (s.setBadBurst k x).lnReady = s.lnReady := rfl
@[simp] theorem State.setBadBurst_fbReady (s : State) (k : Nat) (x : Bool) : (s.setBadBurst k x).fbReady = s.fbReady := rfl
@[simp] theorem State.setBadBurst_degraded (s : State) (k : Nat) (x : Bool) : (s.setBadBurst k x).degraded = s.degraded := rfl
@[simp] theorem State.setBadBurst_lock (s : State) (k : Nat) (x : Bool) : (s.setBadBurst k x).lock = s.lock := rfl
@[simp] theorem State.setBadBurst_free (s : State) (k : Nat) (x : Bool) : (s.setBadBurst k x).free = s.free := rfl
@[simp] theorem State.setBadBurst_pending (s : State) (k : Nat) (x : Bool) : (s.setBadBurst k x).pending = s.pending := rfl
theorem State.badBurst_setBadBurst (s : State) (k : Nat) (k' : Nat) (x : Bool) :
    (s.setBadBurst k x).badBurst k' = if k' = k then x else s.badBurst k' := tget_tset _ _ _ _ _
@[simp] theorem State.badBurst_setBadBurst_same (s : State) (k : Nat) (x : Bool) : (s.setBadBurst k x).badBurst k = x :=
  tget_tset_same _ _ _ _
@[simp] theorem State.setBadBurst_core (s : State) (k : Nat) (x : Bool) (n' : Nat) :
    (s.setBadBurst k x).core n' = s.core n' := rfl
@[simp] theorem State.setBadBurst_grn (s : State) (k : Nat) (x : Bool) (fb' : Nat) :
    (s.setBadBurst k x).grn fb' = s.grn fb' := rfl
@[simp] theorem State.setBadBurst_bank (s : State) (k : Nat) (x : Bool) (fb' : Nat) (b' : Nat) :
    (s.setBadBurst k x).bank fb' b' = s.bank fb' b' := rfl
@[simp] theorem State.setBadBurst_hbm (s : State) (k : Nat) (x : Bool) (fb' : Nat) :
    (s.setBadBurst k x).hbm fb' = s.hbm fb' := rfl
@[simp] theorem State.setBadBurst_stack (s : State) (k : Nat) (x : Bool) (k' : Nat) :
    (s.setBadBurst k x).stack k' = s.stack k' := rfl
@[simp] theorem State.setBadBurst_chan (s : State) (k : Nat) (x : Bool) (q' : Nat) (c' : Nat) :
    (s.setBadBurst k x).chan q' c' = s.chan q' c' := rfl
@[simp] theorem State.setBadBurst_lost (s : State) (k : Nat) (x : Bool) (line' : Nat) :
    (s.setBadBurst k x).lost line' = s.lost line' := rfl
@[simp] theorem State.setBadBurst_lostBurst (s : State) (k : Nat) (x : Bool) (k' : Nat) :
    (s.setBadBurst k x).lostBurst k' = s.lostBurst k' := rfl
@[simp] theorem State.setBadBurst_link (s : State) (k : Nat) (x : Bool) (l' : Nat) :
    (s.setBadBurst k x).link l' = s.link l' := rfl
@[simp] theorem State.setBadBurst_ring (s : State) (k : Nat) (x : Bool) (r' : Nat) :
    (s.setBadBurst k x).ring r' = s.ring r' := rfl
@[simp] theorem State.setBadBurst_cq (s : State) (k : Nat) (x : Bool) (r' : Nat) :
    (s.setBadBurst k x).cq r' = s.cq r' := rfl
@[simp] theorem State.setBadBurst_ctx (s : State) (k : Nat) (x : Bool) (c' : Nat) :
    (s.setBadBurst k x).ctx c' = s.ctx c' := rfl
@[simp] theorem State.setBadBurst_group (s : State) (k : Nat) (x : Bool) (g' : Nat) :
    (s.setBadBurst k x).group g' = s.group g' := rfl
@[simp] theorem State.setBadBurst_slot (s : State) (k : Nat) (x : Bool) (fb' : Nat) (car' : Nat) (sl' : Nat) :
    (s.setBadBurst k x).slot fb' car' sl' = s.slot fb' car' sl' := rfl
@[simp] theorem State.setBadBurst_thr (s : State) (k : Nat) (x : Bool) (n t : Nat) : (s.setBadBurst k x).thr n t = s.thr n t := rfl

/-! ### `State.setLink` -/

@[simp] theorem State.setLink_pwr (s : State) (l : Nat) (x : Link) : (s.setLink l x).pwr = s.pwr := rfl
@[simp] theorem State.setLink_clk (s : State) (l : Nat) (x : Link) : (s.setLink l x).clk = s.clk := rfl
@[simp] theorem State.setLink_thm (s : State) (l : Nat) (x : Link) : (s.setLink l x).thm = s.thm := rfl
@[simp] theorem State.setLink_mer (s : State) (l : Nat) (x : Link) : (s.setLink l x).mer = s.mer := rfl
@[simp] theorem State.setLink_evt (s : State) (l : Nat) (x : Link) : (s.setLink l x).evt = s.evt := rfl
@[simp] theorem State.setLink_dram (s : State) (l : Nat) (x : Link) : (s.setLink l x).dram = s.dram := rfl
@[simp] theorem State.setLink_mem (s : State) (l : Nat) (x : Link) : (s.setLink l x).mem = s.mem := rfl
@[simp] theorem State.setLink_gmem (s : State) (l : Nat) (x : Link) : (s.setLink l x).gmem = s.gmem := rfl
@[simp] theorem State.setLink_hostMem (s : State) (l : Nat) (x : Link) : (s.setLink l x).hostMem = s.hostMem := rfl
@[simp] theorem State.setLink_msh (s : State) (l : Nat) (x : Link) : (s.setLink l x).msh = s.msh := rfl
@[simp] theorem State.setLink_rgl (s : State) (l : Nat) (x : Link) : (s.setLink l x).rgl = s.rgl := rfl
@[simp] theorem State.setLink_mil (s : State) (l : Nat) (x : Link) : (s.setLink l x).mil = s.mil := rfl
@[simp] theorem State.setLink_xlt (s : State) (l : Nat) (x : Link) : (s.setLink l x).xlt = s.xlt := rfl
@[simp] theorem State.setLink_car (s : State) (l : Nat) (x : Link) : (s.setLink l x).car = s.car := rfl
@[simp] theorem State.setLink_cores (s : State) (l : Nat) (x : Link) : (s.setLink l x).cores = s.cores := rfl
@[simp] theorem State.setLink_fab (s : State) (l : Nat) (x : Link) : (s.setLink l x).fab = s.fab := rfl
@[simp] theorem State.setLink_die (s : State) (l : Nat) (x : Link) : (s.setLink l x).die = s.die := rfl
@[simp] theorem State.setLink_boot (s : State) (l : Nat) (x : Link) : (s.setLink l x).boot = s.boot := rfl
@[simp] theorem State.setLink_sec (s : State) (l : Nat) (x : Link) : (s.setLink l x).sec = s.sec := rfl
@[simp] theorem State.setLink_scAdmitted (s : State) (l : Nat) (x : Link) : (s.setLink l x).scAdmitted = s.scAdmitted := rfl
@[simp] theorem State.setLink_msReady (s : State) (l : Nat) (x : Link) : (s.setLink l x).msReady = s.msReady := rfl
@[simp] theorem State.setLink_lnReady (s : State) (l : Nat) (x : Link) : (s.setLink l x).lnReady = s.lnReady := rfl
@[simp] theorem State.setLink_fbReady (s : State) (l : Nat) (x : Link) : (s.setLink l x).fbReady = s.fbReady := rfl
@[simp] theorem State.setLink_degraded (s : State) (l : Nat) (x : Link) : (s.setLink l x).degraded = s.degraded := rfl
@[simp] theorem State.setLink_lock (s : State) (l : Nat) (x : Link) : (s.setLink l x).lock = s.lock := rfl
@[simp] theorem State.setLink_free (s : State) (l : Nat) (x : Link) : (s.setLink l x).free = s.free := rfl
@[simp] theorem State.setLink_pending (s : State) (l : Nat) (x : Link) : (s.setLink l x).pending = s.pending := rfl
theorem State.link_setLink (s : State) (l : Nat) (l' : Nat) (x : Link) :
    (s.setLink l x).link l' = if l' = l then x else s.link l' := tget_tset _ _ _ _ _
@[simp] theorem State.link_setLink_same (s : State) (l : Nat) (x : Link) : (s.setLink l x).link l = x :=
  tget_tset_same _ _ _ _
@[simp] theorem State.setLink_core (s : State) (l : Nat) (x : Link) (n' : Nat) :
    (s.setLink l x).core n' = s.core n' := rfl
@[simp] theorem State.setLink_grn (s : State) (l : Nat) (x : Link) (fb' : Nat) :
    (s.setLink l x).grn fb' = s.grn fb' := rfl
@[simp] theorem State.setLink_bank (s : State) (l : Nat) (x : Link) (fb' : Nat) (b' : Nat) :
    (s.setLink l x).bank fb' b' = s.bank fb' b' := rfl
@[simp] theorem State.setLink_hbm (s : State) (l : Nat) (x : Link) (fb' : Nat) :
    (s.setLink l x).hbm fb' = s.hbm fb' := rfl
@[simp] theorem State.setLink_stack (s : State) (l : Nat) (x : Link) (k' : Nat) :
    (s.setLink l x).stack k' = s.stack k' := rfl
@[simp] theorem State.setLink_chan (s : State) (l : Nat) (x : Link) (q' : Nat) (c' : Nat) :
    (s.setLink l x).chan q' c' = s.chan q' c' := rfl
@[simp] theorem State.setLink_lost (s : State) (l : Nat) (x : Link) (line' : Nat) :
    (s.setLink l x).lost line' = s.lost line' := rfl
@[simp] theorem State.setLink_lostBurst (s : State) (l : Nat) (x : Link) (k' : Nat) :
    (s.setLink l x).lostBurst k' = s.lostBurst k' := rfl
@[simp] theorem State.setLink_badBurst (s : State) (l : Nat) (x : Link) (k' : Nat) :
    (s.setLink l x).badBurst k' = s.badBurst k' := rfl
@[simp] theorem State.setLink_ring (s : State) (l : Nat) (x : Link) (r' : Nat) :
    (s.setLink l x).ring r' = s.ring r' := rfl
@[simp] theorem State.setLink_cq (s : State) (l : Nat) (x : Link) (r' : Nat) :
    (s.setLink l x).cq r' = s.cq r' := rfl
@[simp] theorem State.setLink_ctx (s : State) (l : Nat) (x : Link) (c' : Nat) :
    (s.setLink l x).ctx c' = s.ctx c' := rfl
@[simp] theorem State.setLink_group (s : State) (l : Nat) (x : Link) (g' : Nat) :
    (s.setLink l x).group g' = s.group g' := rfl
@[simp] theorem State.setLink_slot (s : State) (l : Nat) (x : Link) (fb' : Nat) (car' : Nat) (sl' : Nat) :
    (s.setLink l x).slot fb' car' sl' = s.slot fb' car' sl' := rfl
@[simp] theorem State.setLink_thr (s : State) (l : Nat) (x : Link) (n t : Nat) : (s.setLink l x).thr n t = s.thr n t := rfl

/-! ### `State.setRing` -/

@[simp] theorem State.setRing_pwr (s : State) (r : Nat) (x : Ring) : (s.setRing r x).pwr = s.pwr := rfl
@[simp] theorem State.setRing_clk (s : State) (r : Nat) (x : Ring) : (s.setRing r x).clk = s.clk := rfl
@[simp] theorem State.setRing_thm (s : State) (r : Nat) (x : Ring) : (s.setRing r x).thm = s.thm := rfl
@[simp] theorem State.setRing_mer (s : State) (r : Nat) (x : Ring) : (s.setRing r x).mer = s.mer := rfl
@[simp] theorem State.setRing_evt (s : State) (r : Nat) (x : Ring) : (s.setRing r x).evt = s.evt := rfl
@[simp] theorem State.setRing_dram (s : State) (r : Nat) (x : Ring) : (s.setRing r x).dram = s.dram := rfl
@[simp] theorem State.setRing_mem (s : State) (r : Nat) (x : Ring) : (s.setRing r x).mem = s.mem := rfl
@[simp] theorem State.setRing_gmem (s : State) (r : Nat) (x : Ring) : (s.setRing r x).gmem = s.gmem := rfl
@[simp] theorem State.setRing_hostMem (s : State) (r : Nat) (x : Ring) : (s.setRing r x).hostMem = s.hostMem := rfl
@[simp] theorem State.setRing_msh (s : State) (r : Nat) (x : Ring) : (s.setRing r x).msh = s.msh := rfl
@[simp] theorem State.setRing_rgl (s : State) (r : Nat) (x : Ring) : (s.setRing r x).rgl = s.rgl := rfl
@[simp] theorem State.setRing_mil (s : State) (r : Nat) (x : Ring) : (s.setRing r x).mil = s.mil := rfl
@[simp] theorem State.setRing_xlt (s : State) (r : Nat) (x : Ring) : (s.setRing r x).xlt = s.xlt := rfl
@[simp] theorem State.setRing_car (s : State) (r : Nat) (x : Ring) : (s.setRing r x).car = s.car := rfl
@[simp] theorem State.setRing_cores (s : State) (r : Nat) (x : Ring) : (s.setRing r x).cores = s.cores := rfl
@[simp] theorem State.setRing_fab (s : State) (r : Nat) (x : Ring) : (s.setRing r x).fab = s.fab := rfl
@[simp] theorem State.setRing_die (s : State) (r : Nat) (x : Ring) : (s.setRing r x).die = s.die := rfl
@[simp] theorem State.setRing_boot (s : State) (r : Nat) (x : Ring) : (s.setRing r x).boot = s.boot := rfl
@[simp] theorem State.setRing_sec (s : State) (r : Nat) (x : Ring) : (s.setRing r x).sec = s.sec := rfl
@[simp] theorem State.setRing_scAdmitted (s : State) (r : Nat) (x : Ring) : (s.setRing r x).scAdmitted = s.scAdmitted := rfl
@[simp] theorem State.setRing_msReady (s : State) (r : Nat) (x : Ring) : (s.setRing r x).msReady = s.msReady := rfl
@[simp] theorem State.setRing_lnReady (s : State) (r : Nat) (x : Ring) : (s.setRing r x).lnReady = s.lnReady := rfl
@[simp] theorem State.setRing_fbReady (s : State) (r : Nat) (x : Ring) : (s.setRing r x).fbReady = s.fbReady := rfl
@[simp] theorem State.setRing_degraded (s : State) (r : Nat) (x : Ring) : (s.setRing r x).degraded = s.degraded := rfl
@[simp] theorem State.setRing_lock (s : State) (r : Nat) (x : Ring) : (s.setRing r x).lock = s.lock := rfl
@[simp] theorem State.setRing_free (s : State) (r : Nat) (x : Ring) : (s.setRing r x).free = s.free := rfl
@[simp] theorem State.setRing_pending (s : State) (r : Nat) (x : Ring) : (s.setRing r x).pending = s.pending := rfl
theorem State.ring_setRing (s : State) (r : Nat) (r' : Nat) (x : Ring) :
    (s.setRing r x).ring r' = if r' = r then x else s.ring r' := tget_tset _ _ _ _ _
@[simp] theorem State.ring_setRing_same (s : State) (r : Nat) (x : Ring) : (s.setRing r x).ring r = x :=
  tget_tset_same _ _ _ _
@[simp] theorem State.setRing_core (s : State) (r : Nat) (x : Ring) (n' : Nat) :
    (s.setRing r x).core n' = s.core n' := rfl
@[simp] theorem State.setRing_grn (s : State) (r : Nat) (x : Ring) (fb' : Nat) :
    (s.setRing r x).grn fb' = s.grn fb' := rfl
@[simp] theorem State.setRing_bank (s : State) (r : Nat) (x : Ring) (fb' : Nat) (b' : Nat) :
    (s.setRing r x).bank fb' b' = s.bank fb' b' := rfl
@[simp] theorem State.setRing_hbm (s : State) (r : Nat) (x : Ring) (fb' : Nat) :
    (s.setRing r x).hbm fb' = s.hbm fb' := rfl
@[simp] theorem State.setRing_stack (s : State) (r : Nat) (x : Ring) (k' : Nat) :
    (s.setRing r x).stack k' = s.stack k' := rfl
@[simp] theorem State.setRing_chan (s : State) (r : Nat) (x : Ring) (q' : Nat) (c' : Nat) :
    (s.setRing r x).chan q' c' = s.chan q' c' := rfl
@[simp] theorem State.setRing_lost (s : State) (r : Nat) (x : Ring) (line' : Nat) :
    (s.setRing r x).lost line' = s.lost line' := rfl
@[simp] theorem State.setRing_lostBurst (s : State) (r : Nat) (x : Ring) (k' : Nat) :
    (s.setRing r x).lostBurst k' = s.lostBurst k' := rfl
@[simp] theorem State.setRing_badBurst (s : State) (r : Nat) (x : Ring) (k' : Nat) :
    (s.setRing r x).badBurst k' = s.badBurst k' := rfl
@[simp] theorem State.setRing_link (s : State) (r : Nat) (x : Ring) (l' : Nat) :
    (s.setRing r x).link l' = s.link l' := rfl
@[simp] theorem State.setRing_cq (s : State) (r : Nat) (x : Ring) (r' : Nat) :
    (s.setRing r x).cq r' = s.cq r' := rfl
@[simp] theorem State.setRing_ctx (s : State) (r : Nat) (x : Ring) (c' : Nat) :
    (s.setRing r x).ctx c' = s.ctx c' := rfl
@[simp] theorem State.setRing_group (s : State) (r : Nat) (x : Ring) (g' : Nat) :
    (s.setRing r x).group g' = s.group g' := rfl
@[simp] theorem State.setRing_slot (s : State) (r : Nat) (x : Ring) (fb' : Nat) (car' : Nat) (sl' : Nat) :
    (s.setRing r x).slot fb' car' sl' = s.slot fb' car' sl' := rfl
@[simp] theorem State.setRing_thr (s : State) (r : Nat) (x : Ring) (n t : Nat) : (s.setRing r x).thr n t = s.thr n t := rfl

/-! ### `State.setCq` -/

@[simp] theorem State.setCq_pwr (s : State) (r : Nat) (x : CqRing) : (s.setCq r x).pwr = s.pwr := rfl
@[simp] theorem State.setCq_clk (s : State) (r : Nat) (x : CqRing) : (s.setCq r x).clk = s.clk := rfl
@[simp] theorem State.setCq_thm (s : State) (r : Nat) (x : CqRing) : (s.setCq r x).thm = s.thm := rfl
@[simp] theorem State.setCq_mer (s : State) (r : Nat) (x : CqRing) : (s.setCq r x).mer = s.mer := rfl
@[simp] theorem State.setCq_evt (s : State) (r : Nat) (x : CqRing) : (s.setCq r x).evt = s.evt := rfl
@[simp] theorem State.setCq_dram (s : State) (r : Nat) (x : CqRing) : (s.setCq r x).dram = s.dram := rfl
@[simp] theorem State.setCq_mem (s : State) (r : Nat) (x : CqRing) : (s.setCq r x).mem = s.mem := rfl
@[simp] theorem State.setCq_gmem (s : State) (r : Nat) (x : CqRing) : (s.setCq r x).gmem = s.gmem := rfl
@[simp] theorem State.setCq_hostMem (s : State) (r : Nat) (x : CqRing) : (s.setCq r x).hostMem = s.hostMem := rfl
@[simp] theorem State.setCq_msh (s : State) (r : Nat) (x : CqRing) : (s.setCq r x).msh = s.msh := rfl
@[simp] theorem State.setCq_rgl (s : State) (r : Nat) (x : CqRing) : (s.setCq r x).rgl = s.rgl := rfl
@[simp] theorem State.setCq_mil (s : State) (r : Nat) (x : CqRing) : (s.setCq r x).mil = s.mil := rfl
@[simp] theorem State.setCq_xlt (s : State) (r : Nat) (x : CqRing) : (s.setCq r x).xlt = s.xlt := rfl
@[simp] theorem State.setCq_car (s : State) (r : Nat) (x : CqRing) : (s.setCq r x).car = s.car := rfl
@[simp] theorem State.setCq_cores (s : State) (r : Nat) (x : CqRing) : (s.setCq r x).cores = s.cores := rfl
@[simp] theorem State.setCq_fab (s : State) (r : Nat) (x : CqRing) : (s.setCq r x).fab = s.fab := rfl
@[simp] theorem State.setCq_die (s : State) (r : Nat) (x : CqRing) : (s.setCq r x).die = s.die := rfl
@[simp] theorem State.setCq_boot (s : State) (r : Nat) (x : CqRing) : (s.setCq r x).boot = s.boot := rfl
@[simp] theorem State.setCq_sec (s : State) (r : Nat) (x : CqRing) : (s.setCq r x).sec = s.sec := rfl
@[simp] theorem State.setCq_scAdmitted (s : State) (r : Nat) (x : CqRing) : (s.setCq r x).scAdmitted = s.scAdmitted := rfl
@[simp] theorem State.setCq_msReady (s : State) (r : Nat) (x : CqRing) : (s.setCq r x).msReady = s.msReady := rfl
@[simp] theorem State.setCq_lnReady (s : State) (r : Nat) (x : CqRing) : (s.setCq r x).lnReady = s.lnReady := rfl
@[simp] theorem State.setCq_fbReady (s : State) (r : Nat) (x : CqRing) : (s.setCq r x).fbReady = s.fbReady := rfl
@[simp] theorem State.setCq_degraded (s : State) (r : Nat) (x : CqRing) : (s.setCq r x).degraded = s.degraded := rfl
@[simp] theorem State.setCq_lock (s : State) (r : Nat) (x : CqRing) : (s.setCq r x).lock = s.lock := rfl
@[simp] theorem State.setCq_free (s : State) (r : Nat) (x : CqRing) : (s.setCq r x).free = s.free := rfl
@[simp] theorem State.setCq_pending (s : State) (r : Nat) (x : CqRing) : (s.setCq r x).pending = s.pending := rfl
theorem State.cq_setCq (s : State) (r : Nat) (r' : Nat) (x : CqRing) :
    (s.setCq r x).cq r' = if r' = r then x else s.cq r' := tget_tset _ _ _ _ _
@[simp] theorem State.cq_setCq_same (s : State) (r : Nat) (x : CqRing) : (s.setCq r x).cq r = x :=
  tget_tset_same _ _ _ _
@[simp] theorem State.setCq_core (s : State) (r : Nat) (x : CqRing) (n' : Nat) :
    (s.setCq r x).core n' = s.core n' := rfl
@[simp] theorem State.setCq_grn (s : State) (r : Nat) (x : CqRing) (fb' : Nat) :
    (s.setCq r x).grn fb' = s.grn fb' := rfl
@[simp] theorem State.setCq_bank (s : State) (r : Nat) (x : CqRing) (fb' : Nat) (b' : Nat) :
    (s.setCq r x).bank fb' b' = s.bank fb' b' := rfl
@[simp] theorem State.setCq_hbm (s : State) (r : Nat) (x : CqRing) (fb' : Nat) :
    (s.setCq r x).hbm fb' = s.hbm fb' := rfl
@[simp] theorem State.setCq_stack (s : State) (r : Nat) (x : CqRing) (k' : Nat) :
    (s.setCq r x).stack k' = s.stack k' := rfl
@[simp] theorem State.setCq_chan (s : State) (r : Nat) (x : CqRing) (q' : Nat) (c' : Nat) :
    (s.setCq r x).chan q' c' = s.chan q' c' := rfl
@[simp] theorem State.setCq_lost (s : State) (r : Nat) (x : CqRing) (line' : Nat) :
    (s.setCq r x).lost line' = s.lost line' := rfl
@[simp] theorem State.setCq_lostBurst (s : State) (r : Nat) (x : CqRing) (k' : Nat) :
    (s.setCq r x).lostBurst k' = s.lostBurst k' := rfl
@[simp] theorem State.setCq_badBurst (s : State) (r : Nat) (x : CqRing) (k' : Nat) :
    (s.setCq r x).badBurst k' = s.badBurst k' := rfl
@[simp] theorem State.setCq_link (s : State) (r : Nat) (x : CqRing) (l' : Nat) :
    (s.setCq r x).link l' = s.link l' := rfl
@[simp] theorem State.setCq_ring (s : State) (r : Nat) (x : CqRing) (r' : Nat) :
    (s.setCq r x).ring r' = s.ring r' := rfl
@[simp] theorem State.setCq_ctx (s : State) (r : Nat) (x : CqRing) (c' : Nat) :
    (s.setCq r x).ctx c' = s.ctx c' := rfl
@[simp] theorem State.setCq_group (s : State) (r : Nat) (x : CqRing) (g' : Nat) :
    (s.setCq r x).group g' = s.group g' := rfl
@[simp] theorem State.setCq_slot (s : State) (r : Nat) (x : CqRing) (fb' : Nat) (car' : Nat) (sl' : Nat) :
    (s.setCq r x).slot fb' car' sl' = s.slot fb' car' sl' := rfl
@[simp] theorem State.setCq_thr (s : State) (r : Nat) (x : CqRing) (n t : Nat) : (s.setCq r x).thr n t = s.thr n t := rfl

/-! ### `State.setCtx` -/

@[simp] theorem State.setCtx_pwr (s : State) (c : Nat) (x : Ctx) : (s.setCtx c x).pwr = s.pwr := rfl
@[simp] theorem State.setCtx_clk (s : State) (c : Nat) (x : Ctx) : (s.setCtx c x).clk = s.clk := rfl
@[simp] theorem State.setCtx_thm (s : State) (c : Nat) (x : Ctx) : (s.setCtx c x).thm = s.thm := rfl
@[simp] theorem State.setCtx_mer (s : State) (c : Nat) (x : Ctx) : (s.setCtx c x).mer = s.mer := rfl
@[simp] theorem State.setCtx_evt (s : State) (c : Nat) (x : Ctx) : (s.setCtx c x).evt = s.evt := rfl
@[simp] theorem State.setCtx_dram (s : State) (c : Nat) (x : Ctx) : (s.setCtx c x).dram = s.dram := rfl
@[simp] theorem State.setCtx_mem (s : State) (c : Nat) (x : Ctx) : (s.setCtx c x).mem = s.mem := rfl
@[simp] theorem State.setCtx_gmem (s : State) (c : Nat) (x : Ctx) : (s.setCtx c x).gmem = s.gmem := rfl
@[simp] theorem State.setCtx_hostMem (s : State) (c : Nat) (x : Ctx) : (s.setCtx c x).hostMem = s.hostMem := rfl
@[simp] theorem State.setCtx_msh (s : State) (c : Nat) (x : Ctx) : (s.setCtx c x).msh = s.msh := rfl
@[simp] theorem State.setCtx_rgl (s : State) (c : Nat) (x : Ctx) : (s.setCtx c x).rgl = s.rgl := rfl
@[simp] theorem State.setCtx_mil (s : State) (c : Nat) (x : Ctx) : (s.setCtx c x).mil = s.mil := rfl
@[simp] theorem State.setCtx_host (s : State) (c : Nat) (x : Ctx) : (s.setCtx c x).host = s.host := rfl
@[simp] theorem State.setCtx_car (s : State) (c : Nat) (x : Ctx) : (s.setCtx c x).car = s.car := rfl
@[simp] theorem State.setCtx_cores (s : State) (c : Nat) (x : Ctx) : (s.setCtx c x).cores = s.cores := rfl
@[simp] theorem State.setCtx_fab (s : State) (c : Nat) (x : Ctx) : (s.setCtx c x).fab = s.fab := rfl
@[simp] theorem State.setCtx_die (s : State) (c : Nat) (x : Ctx) : (s.setCtx c x).die = s.die := rfl
@[simp] theorem State.setCtx_boot (s : State) (c : Nat) (x : Ctx) : (s.setCtx c x).boot = s.boot := rfl
@[simp] theorem State.setCtx_sec (s : State) (c : Nat) (x : Ctx) : (s.setCtx c x).sec = s.sec := rfl
@[simp] theorem State.setCtx_scAdmitted (s : State) (c : Nat) (x : Ctx) : (s.setCtx c x).scAdmitted = s.scAdmitted := rfl
@[simp] theorem State.setCtx_msReady (s : State) (c : Nat) (x : Ctx) : (s.setCtx c x).msReady = s.msReady := rfl
@[simp] theorem State.setCtx_lnReady (s : State) (c : Nat) (x : Ctx) : (s.setCtx c x).lnReady = s.lnReady := rfl
@[simp] theorem State.setCtx_fbReady (s : State) (c : Nat) (x : Ctx) : (s.setCtx c x).fbReady = s.fbReady := rfl
@[simp] theorem State.setCtx_degraded (s : State) (c : Nat) (x : Ctx) : (s.setCtx c x).degraded = s.degraded := rfl
@[simp] theorem State.setCtx_lock (s : State) (c : Nat) (x : Ctx) : (s.setCtx c x).lock = s.lock := rfl
@[simp] theorem State.setCtx_free (s : State) (c : Nat) (x : Ctx) : (s.setCtx c x).free = s.free := rfl
@[simp] theorem State.setCtx_pending (s : State) (c : Nat) (x : Ctx) : (s.setCtx c x).pending = s.pending := rfl
theorem State.ctx_setCtx (s : State) (c : Nat) (c' : Nat) (x : Ctx) :
    (s.setCtx c x).ctx c' = if c' = c then x else s.ctx c' := tget_tset _ _ _ _ _
@[simp] theorem State.ctx_setCtx_same (s : State) (c : Nat) (x : Ctx) : (s.setCtx c x).ctx c = x :=
  tget_tset_same _ _ _ _
@[simp] theorem State.setCtx_core (s : State) (c : Nat) (x : Ctx) (n' : Nat) :
    (s.setCtx c x).core n' = s.core n' := rfl
@[simp] theorem State.setCtx_grn (s : State) (c : Nat) (x : Ctx) (fb' : Nat) :
    (s.setCtx c x).grn fb' = s.grn fb' := rfl
@[simp] theorem State.setCtx_bank (s : State) (c : Nat) (x : Ctx) (fb' : Nat) (b' : Nat) :
    (s.setCtx c x).bank fb' b' = s.bank fb' b' := rfl
@[simp] theorem State.setCtx_hbm (s : State) (c : Nat) (x : Ctx) (fb' : Nat) :
    (s.setCtx c x).hbm fb' = s.hbm fb' := rfl
@[simp] theorem State.setCtx_stack (s : State) (c : Nat) (x : Ctx) (k' : Nat) :
    (s.setCtx c x).stack k' = s.stack k' := rfl
@[simp] theorem State.setCtx_chan (s : State) (c : Nat) (x : Ctx) (q' : Nat) (c' : Nat) :
    (s.setCtx c x).chan q' c' = s.chan q' c' := rfl
@[simp] theorem State.setCtx_lost (s : State) (c : Nat) (x : Ctx) (line' : Nat) :
    (s.setCtx c x).lost line' = s.lost line' := rfl
@[simp] theorem State.setCtx_lostBurst (s : State) (c : Nat) (x : Ctx) (k' : Nat) :
    (s.setCtx c x).lostBurst k' = s.lostBurst k' := rfl
@[simp] theorem State.setCtx_badBurst (s : State) (c : Nat) (x : Ctx) (k' : Nat) :
    (s.setCtx c x).badBurst k' = s.badBurst k' := rfl
@[simp] theorem State.setCtx_link (s : State) (c : Nat) (x : Ctx) (l' : Nat) :
    (s.setCtx c x).link l' = s.link l' := rfl
@[simp] theorem State.setCtx_ring (s : State) (c : Nat) (x : Ctx) (r' : Nat) :
    (s.setCtx c x).ring r' = s.ring r' := rfl
@[simp] theorem State.setCtx_cq (s : State) (c : Nat) (x : Ctx) (r' : Nat) :
    (s.setCtx c x).cq r' = s.cq r' := rfl
@[simp] theorem State.setCtx_group (s : State) (c : Nat) (x : Ctx) (g' : Nat) :
    (s.setCtx c x).group g' = s.group g' := rfl
@[simp] theorem State.setCtx_slot (s : State) (c : Nat) (x : Ctx) (fb' : Nat) (car' : Nat) (sl' : Nat) :
    (s.setCtx c x).slot fb' car' sl' = s.slot fb' car' sl' := rfl
@[simp] theorem State.setCtx_thr (s : State) (c : Nat) (x : Ctx) (n t : Nat) : (s.setCtx c x).thr n t = s.thr n t := rfl

/-! ### `State.setGroup` -/

@[simp] theorem State.setGroup_pwr (s : State) (g : Nat) (x : Group) : (s.setGroup g x).pwr = s.pwr := rfl
@[simp] theorem State.setGroup_clk (s : State) (g : Nat) (x : Group) : (s.setGroup g x).clk = s.clk := rfl
@[simp] theorem State.setGroup_thm (s : State) (g : Nat) (x : Group) : (s.setGroup g x).thm = s.thm := rfl
@[simp] theorem State.setGroup_mer (s : State) (g : Nat) (x : Group) : (s.setGroup g x).mer = s.mer := rfl
@[simp] theorem State.setGroup_evt (s : State) (g : Nat) (x : Group) : (s.setGroup g x).evt = s.evt := rfl
@[simp] theorem State.setGroup_dram (s : State) (g : Nat) (x : Group) : (s.setGroup g x).dram = s.dram := rfl
@[simp] theorem State.setGroup_mem (s : State) (g : Nat) (x : Group) : (s.setGroup g x).mem = s.mem := rfl
@[simp] theorem State.setGroup_gmem (s : State) (g : Nat) (x : Group) : (s.setGroup g x).gmem = s.gmem := rfl
@[simp] theorem State.setGroup_hostMem (s : State) (g : Nat) (x : Group) : (s.setGroup g x).hostMem = s.hostMem := rfl
@[simp] theorem State.setGroup_msh (s : State) (g : Nat) (x : Group) : (s.setGroup g x).msh = s.msh := rfl
@[simp] theorem State.setGroup_rgl (s : State) (g : Nat) (x : Group) : (s.setGroup g x).rgl = s.rgl := rfl
@[simp] theorem State.setGroup_xlt (s : State) (g : Nat) (x : Group) : (s.setGroup g x).xlt = s.xlt := rfl
@[simp] theorem State.setGroup_host (s : State) (g : Nat) (x : Group) : (s.setGroup g x).host = s.host := rfl
@[simp] theorem State.setGroup_car (s : State) (g : Nat) (x : Group) : (s.setGroup g x).car = s.car := rfl
@[simp] theorem State.setGroup_cores (s : State) (g : Nat) (x : Group) : (s.setGroup g x).cores = s.cores := rfl
@[simp] theorem State.setGroup_fab (s : State) (g : Nat) (x : Group) : (s.setGroup g x).fab = s.fab := rfl
@[simp] theorem State.setGroup_die (s : State) (g : Nat) (x : Group) : (s.setGroup g x).die = s.die := rfl
@[simp] theorem State.setGroup_boot (s : State) (g : Nat) (x : Group) : (s.setGroup g x).boot = s.boot := rfl
@[simp] theorem State.setGroup_sec (s : State) (g : Nat) (x : Group) : (s.setGroup g x).sec = s.sec := rfl
@[simp] theorem State.setGroup_scAdmitted (s : State) (g : Nat) (x : Group) : (s.setGroup g x).scAdmitted = s.scAdmitted := rfl
@[simp] theorem State.setGroup_msReady (s : State) (g : Nat) (x : Group) : (s.setGroup g x).msReady = s.msReady := rfl
@[simp] theorem State.setGroup_lnReady (s : State) (g : Nat) (x : Group) : (s.setGroup g x).lnReady = s.lnReady := rfl
@[simp] theorem State.setGroup_fbReady (s : State) (g : Nat) (x : Group) : (s.setGroup g x).fbReady = s.fbReady := rfl
@[simp] theorem State.setGroup_degraded (s : State) (g : Nat) (x : Group) : (s.setGroup g x).degraded = s.degraded := rfl
@[simp] theorem State.setGroup_lock (s : State) (g : Nat) (x : Group) : (s.setGroup g x).lock = s.lock := rfl
@[simp] theorem State.setGroup_free (s : State) (g : Nat) (x : Group) : (s.setGroup g x).free = s.free := rfl
@[simp] theorem State.setGroup_pending (s : State) (g : Nat) (x : Group) : (s.setGroup g x).pending = s.pending := rfl
theorem State.group_setGroup (s : State) (g : Nat) (g' : Nat) (x : Group) :
    (s.setGroup g x).group g' = if g' = g then x else s.group g' := tget_tset _ _ _ _ _
@[simp] theorem State.group_setGroup_same (s : State) (g : Nat) (x : Group) : (s.setGroup g x).group g = x :=
  tget_tset_same _ _ _ _
@[simp] theorem State.setGroup_core (s : State) (g : Nat) (x : Group) (n' : Nat) :
    (s.setGroup g x).core n' = s.core n' := rfl
@[simp] theorem State.setGroup_grn (s : State) (g : Nat) (x : Group) (fb' : Nat) :
    (s.setGroup g x).grn fb' = s.grn fb' := rfl
@[simp] theorem State.setGroup_bank (s : State) (g : Nat) (x : Group) (fb' : Nat) (b' : Nat) :
    (s.setGroup g x).bank fb' b' = s.bank fb' b' := rfl
@[simp] theorem State.setGroup_hbm (s : State) (g : Nat) (x : Group) (fb' : Nat) :
    (s.setGroup g x).hbm fb' = s.hbm fb' := rfl
@[simp] theorem State.setGroup_stack (s : State) (g : Nat) (x : Group) (k' : Nat) :
    (s.setGroup g x).stack k' = s.stack k' := rfl
@[simp] theorem State.setGroup_chan (s : State) (g : Nat) (x : Group) (q' : Nat) (c' : Nat) :
    (s.setGroup g x).chan q' c' = s.chan q' c' := rfl
@[simp] theorem State.setGroup_lost (s : State) (g : Nat) (x : Group) (line' : Nat) :
    (s.setGroup g x).lost line' = s.lost line' := rfl
@[simp] theorem State.setGroup_lostBurst (s : State) (g : Nat) (x : Group) (k' : Nat) :
    (s.setGroup g x).lostBurst k' = s.lostBurst k' := rfl
@[simp] theorem State.setGroup_badBurst (s : State) (g : Nat) (x : Group) (k' : Nat) :
    (s.setGroup g x).badBurst k' = s.badBurst k' := rfl
@[simp] theorem State.setGroup_link (s : State) (g : Nat) (x : Group) (l' : Nat) :
    (s.setGroup g x).link l' = s.link l' := rfl
@[simp] theorem State.setGroup_ring (s : State) (g : Nat) (x : Group) (r' : Nat) :
    (s.setGroup g x).ring r' = s.ring r' := rfl
@[simp] theorem State.setGroup_cq (s : State) (g : Nat) (x : Group) (r' : Nat) :
    (s.setGroup g x).cq r' = s.cq r' := rfl
@[simp] theorem State.setGroup_ctx (s : State) (g : Nat) (x : Group) (c' : Nat) :
    (s.setGroup g x).ctx c' = s.ctx c' := rfl
@[simp] theorem State.setGroup_slot (s : State) (g : Nat) (x : Group) (fb' : Nat) (car' : Nat) (sl' : Nat) :
    (s.setGroup g x).slot fb' car' sl' = s.slot fb' car' sl' := rfl
@[simp] theorem State.setGroup_thr (s : State) (g : Nat) (x : Group) (n t : Nat) : (s.setGroup g x).thr n t = s.thr n t := rfl

/-! ### `State.setSlot` -/

@[simp] theorem State.setSlot_pwr (s : State) (fb : Nat) (car : Nat) (sl : Nat) (x : CarSlot) : (s.setSlot fb car sl x).pwr = s.pwr := rfl
@[simp] theorem State.setSlot_clk (s : State) (fb : Nat) (car : Nat) (sl : Nat) (x : CarSlot) : (s.setSlot fb car sl x).clk = s.clk := rfl
@[simp] theorem State.setSlot_thm (s : State) (fb : Nat) (car : Nat) (sl : Nat) (x : CarSlot) : (s.setSlot fb car sl x).thm = s.thm := rfl
@[simp] theorem State.setSlot_mer (s : State) (fb : Nat) (car : Nat) (sl : Nat) (x : CarSlot) : (s.setSlot fb car sl x).mer = s.mer := rfl
@[simp] theorem State.setSlot_evt (s : State) (fb : Nat) (car : Nat) (sl : Nat) (x : CarSlot) : (s.setSlot fb car sl x).evt = s.evt := rfl
@[simp] theorem State.setSlot_dram (s : State) (fb : Nat) (car : Nat) (sl : Nat) (x : CarSlot) : (s.setSlot fb car sl x).dram = s.dram := rfl
@[simp] theorem State.setSlot_mem (s : State) (fb : Nat) (car : Nat) (sl : Nat) (x : CarSlot) : (s.setSlot fb car sl x).mem = s.mem := rfl
@[simp] theorem State.setSlot_gmem (s : State) (fb : Nat) (car : Nat) (sl : Nat) (x : CarSlot) : (s.setSlot fb car sl x).gmem = s.gmem := rfl
@[simp] theorem State.setSlot_hostMem (s : State) (fb : Nat) (car : Nat) (sl : Nat) (x : CarSlot) : (s.setSlot fb car sl x).hostMem = s.hostMem := rfl
@[simp] theorem State.setSlot_msh (s : State) (fb : Nat) (car : Nat) (sl : Nat) (x : CarSlot) : (s.setSlot fb car sl x).msh = s.msh := rfl
@[simp] theorem State.setSlot_rgl (s : State) (fb : Nat) (car : Nat) (sl : Nat) (x : CarSlot) : (s.setSlot fb car sl x).rgl = s.rgl := rfl
@[simp] theorem State.setSlot_mil (s : State) (fb : Nat) (car : Nat) (sl : Nat) (x : CarSlot) : (s.setSlot fb car sl x).mil = s.mil := rfl
@[simp] theorem State.setSlot_xlt (s : State) (fb : Nat) (car : Nat) (sl : Nat) (x : CarSlot) : (s.setSlot fb car sl x).xlt = s.xlt := rfl
@[simp] theorem State.setSlot_host (s : State) (fb : Nat) (car : Nat) (sl : Nat) (x : CarSlot) : (s.setSlot fb car sl x).host = s.host := rfl
@[simp] theorem State.setSlot_cores (s : State) (fb : Nat) (car : Nat) (sl : Nat) (x : CarSlot) : (s.setSlot fb car sl x).cores = s.cores := rfl
@[simp] theorem State.setSlot_fab (s : State) (fb : Nat) (car : Nat) (sl : Nat) (x : CarSlot) : (s.setSlot fb car sl x).fab = s.fab := rfl
@[simp] theorem State.setSlot_die (s : State) (fb : Nat) (car : Nat) (sl : Nat) (x : CarSlot) : (s.setSlot fb car sl x).die = s.die := rfl
@[simp] theorem State.setSlot_boot (s : State) (fb : Nat) (car : Nat) (sl : Nat) (x : CarSlot) : (s.setSlot fb car sl x).boot = s.boot := rfl
@[simp] theorem State.setSlot_sec (s : State) (fb : Nat) (car : Nat) (sl : Nat) (x : CarSlot) : (s.setSlot fb car sl x).sec = s.sec := rfl
@[simp] theorem State.setSlot_scAdmitted (s : State) (fb : Nat) (car : Nat) (sl : Nat) (x : CarSlot) : (s.setSlot fb car sl x).scAdmitted = s.scAdmitted := rfl
@[simp] theorem State.setSlot_msReady (s : State) (fb : Nat) (car : Nat) (sl : Nat) (x : CarSlot) : (s.setSlot fb car sl x).msReady = s.msReady := rfl
@[simp] theorem State.setSlot_lnReady (s : State) (fb : Nat) (car : Nat) (sl : Nat) (x : CarSlot) : (s.setSlot fb car sl x).lnReady = s.lnReady := rfl
@[simp] theorem State.setSlot_fbReady (s : State) (fb : Nat) (car : Nat) (sl : Nat) (x : CarSlot) : (s.setSlot fb car sl x).fbReady = s.fbReady := rfl
@[simp] theorem State.setSlot_degraded (s : State) (fb : Nat) (car : Nat) (sl : Nat) (x : CarSlot) : (s.setSlot fb car sl x).degraded = s.degraded := rfl
@[simp] theorem State.setSlot_lock (s : State) (fb : Nat) (car : Nat) (sl : Nat) (x : CarSlot) : (s.setSlot fb car sl x).lock = s.lock := rfl
@[simp] theorem State.setSlot_free (s : State) (fb : Nat) (car : Nat) (sl : Nat) (x : CarSlot) : (s.setSlot fb car sl x).free = s.free := rfl
@[simp] theorem State.setSlot_pending (s : State) (fb : Nat) (car : Nat) (sl : Nat) (x : CarSlot) : (s.setSlot fb car sl x).pending = s.pending := rfl
theorem State.slot_setSlot (s : State) (fb : Nat) (car : Nat) (sl : Nat) (fb' : Nat) (car' : Nat) (sl' : Nat) (x : CarSlot) :
    (s.setSlot fb car sl x).slot fb' car' sl' = if 48 * fb' + 4 * car' + sl' = 48 * fb + 4 * car + sl then x else s.slot fb' car' sl' := tget_tset _ _ _ _ _
@[simp] theorem State.slot_setSlot_same (s : State) (fb : Nat) (car : Nat) (sl : Nat) (x : CarSlot) : (s.setSlot fb car sl x).slot fb car sl = x :=
  tget_tset_same _ _ _ _
@[simp] theorem State.setSlot_core (s : State) (fb : Nat) (car : Nat) (sl : Nat) (x : CarSlot) (n' : Nat) :
    (s.setSlot fb car sl x).core n' = s.core n' := rfl
@[simp] theorem State.setSlot_grn (s : State) (fb : Nat) (car : Nat) (sl : Nat) (x : CarSlot) (fb' : Nat) :
    (s.setSlot fb car sl x).grn fb' = s.grn fb' := rfl
@[simp] theorem State.setSlot_bank (s : State) (fb : Nat) (car : Nat) (sl : Nat) (x : CarSlot) (fb' : Nat) (b' : Nat) :
    (s.setSlot fb car sl x).bank fb' b' = s.bank fb' b' := rfl
@[simp] theorem State.setSlot_hbm (s : State) (fb : Nat) (car : Nat) (sl : Nat) (x : CarSlot) (fb' : Nat) :
    (s.setSlot fb car sl x).hbm fb' = s.hbm fb' := rfl
@[simp] theorem State.setSlot_stack (s : State) (fb : Nat) (car : Nat) (sl : Nat) (x : CarSlot) (k' : Nat) :
    (s.setSlot fb car sl x).stack k' = s.stack k' := rfl
@[simp] theorem State.setSlot_chan (s : State) (fb : Nat) (car : Nat) (sl : Nat) (x : CarSlot) (q' : Nat) (c' : Nat) :
    (s.setSlot fb car sl x).chan q' c' = s.chan q' c' := rfl
@[simp] theorem State.setSlot_lost (s : State) (fb : Nat) (car : Nat) (sl : Nat) (x : CarSlot) (line' : Nat) :
    (s.setSlot fb car sl x).lost line' = s.lost line' := rfl
@[simp] theorem State.setSlot_lostBurst (s : State) (fb : Nat) (car : Nat) (sl : Nat) (x : CarSlot) (k' : Nat) :
    (s.setSlot fb car sl x).lostBurst k' = s.lostBurst k' := rfl
@[simp] theorem State.setSlot_badBurst (s : State) (fb : Nat) (car : Nat) (sl : Nat) (x : CarSlot) (k' : Nat) :
    (s.setSlot fb car sl x).badBurst k' = s.badBurst k' := rfl
@[simp] theorem State.setSlot_link (s : State) (fb : Nat) (car : Nat) (sl : Nat) (x : CarSlot) (l' : Nat) :
    (s.setSlot fb car sl x).link l' = s.link l' := rfl
@[simp] theorem State.setSlot_ring (s : State) (fb : Nat) (car : Nat) (sl : Nat) (x : CarSlot) (r' : Nat) :
    (s.setSlot fb car sl x).ring r' = s.ring r' := rfl
@[simp] theorem State.setSlot_cq (s : State) (fb : Nat) (car : Nat) (sl : Nat) (x : CarSlot) (r' : Nat) :
    (s.setSlot fb car sl x).cq r' = s.cq r' := rfl
@[simp] theorem State.setSlot_ctx (s : State) (fb : Nat) (car : Nat) (sl : Nat) (x : CarSlot) (c' : Nat) :
    (s.setSlot fb car sl x).ctx c' = s.ctx c' := rfl
@[simp] theorem State.setSlot_group (s : State) (fb : Nat) (car : Nat) (sl : Nat) (x : CarSlot) (g' : Nat) :
    (s.setSlot fb car sl x).group g' = s.group g' := rfl
@[simp] theorem State.setSlot_thr (s : State) (fb : Nat) (car : Nat) (sl : Nat) (x : CarSlot) (n t : Nat) : (s.setSlot fb car sl x).thr n t = s.thr n t := rfl

/-! ### Threads of a core -/

@[simp] theorem Core.setThread_ls (c : Core) (t : Nat) (x : Thread) : (c.setThread t x).ls = c.ls := rfl
@[simp] theorem Core.setThread_lsBad (c : Core) (t : Nat) (x : Thread) : (c.setThread t x).lsBad = c.lsBad := rfl
@[simp] theorem Core.setThread_is_ (c : Core) (t : Nat) (x : Thread) : (c.setThread t x).is_ = c.is_ := rfl
@[simp] theorem Core.setThread_isBad (c : Core) (t : Nat) (x : Thread) : (c.setThread t x).isBad = c.isBad := rfl
@[simp] theorem Core.setThread_tiles (c : Core) (t : Nat) (x : Thread) : (c.setThread t x).tiles = c.tiles := rfl
@[simp] theorem Core.setThread_tq (c : Core) (t : Nat) (x : Thread) : (c.setThread t x).tq = c.tq := rfl
@[simp] theorem Core.setThread_rq (c : Core) (t : Nat) (x : Thread) : (c.setThread t x).rq = c.rq := rfl
@[simp] theorem Core.setThread_aops (c : Core) (t : Nat) (x : Thread) : (c.setThread t x).aops = c.aops := rfl
@[simp] theorem Core.setThread_nextId (c : Core) (t : Nat) (x : Thread) : (c.setThread t x).nextId = c.nextId := rfl
@[simp] theorem Core.setThread_ctx (c : Core) (t : Nat) (x : Thread) : (c.setThread t x).ctx = c.ctx := rfl
@[simp] theorem Core.setThread_last (c : Core) (t : Nat) (x : Thread) : (c.setThread t x).last = c.last := rfl
@[simp] theorem Core.setThread_reset (c : Core) (t : Nat) (x : Thread) : (c.setThread t x).reset = c.reset := rfl
@[simp] theorem Core.setThread_monFault (c : Core) (t : Nat) (x : Thread) : (c.setThread t x).monFault = c.monFault := rfl
@[simp] theorem Core.setThread_launch (c : Core) (t : Nat) (x : Thread) : (c.setThread t x).launch = c.launch := rfl
@[simp] theorem Core.setThread_arrived (c : Core) (t : Nat) (x : Thread) : (c.setThread t x).arrived = c.arrived := rfl
@[simp] theorem Core.setThread_events (c : Core) (t : Nat) (x : Thread) : (c.setThread t x).events = c.events := rfl
@[simp] theorem Core.setThread_phys (c : Core) (t : Nat) (x : Thread) : (c.setThread t x).phys = c.phys := rfl
theorem Core.thread_setThread (c : Core) (t u : Nat) (x : Thread) :
    (c.setThread t x).thread u = if u = t then x else c.thread u := tget_tset _ _ _ _ _
@[simp] theorem Core.thread_setThread_same (c : Core) (t : Nat) (x : Thread) : (c.setThread t x).thread t = x :=
  tget_tset_same _ _ _ _

@[simp] theorem State.setThr_pwr (s : State) (n t : Nat) (x : Thread) : (s.setThr n t x).pwr = s.pwr := rfl
@[simp] theorem State.setThr_clk (s : State) (n t : Nat) (x : Thread) : (s.setThr n t x).clk = s.clk := rfl
@[simp] theorem State.setThr_thm (s : State) (n t : Nat) (x : Thread) : (s.setThr n t x).thm = s.thm := rfl
@[simp] theorem State.setThr_mer (s : State) (n t : Nat) (x : Thread) : (s.setThr n t x).mer = s.mer := rfl
@[simp] theorem State.setThr_evt (s : State) (n t : Nat) (x : Thread) : (s.setThr n t x).evt = s.evt := rfl
@[simp] theorem State.setThr_dram (s : State) (n t : Nat) (x : Thread) : (s.setThr n t x).dram = s.dram := rfl
@[simp] theorem State.setThr_mem (s : State) (n t : Nat) (x : Thread) : (s.setThr n t x).mem = s.mem := rfl
@[simp] theorem State.setThr_gmem (s : State) (n t : Nat) (x : Thread) : (s.setThr n t x).gmem = s.gmem := rfl
@[simp] theorem State.setThr_hostMem (s : State) (n t : Nat) (x : Thread) : (s.setThr n t x).hostMem = s.hostMem := rfl
@[simp] theorem State.setThr_msh (s : State) (n t : Nat) (x : Thread) : (s.setThr n t x).msh = s.msh := rfl
@[simp] theorem State.setThr_rgl (s : State) (n t : Nat) (x : Thread) : (s.setThr n t x).rgl = s.rgl := rfl
@[simp] theorem State.setThr_mil (s : State) (n t : Nat) (x : Thread) : (s.setThr n t x).mil = s.mil := rfl
@[simp] theorem State.setThr_xlt (s : State) (n t : Nat) (x : Thread) : (s.setThr n t x).xlt = s.xlt := rfl
@[simp] theorem State.setThr_host (s : State) (n t : Nat) (x : Thread) : (s.setThr n t x).host = s.host := rfl
@[simp] theorem State.setThr_car (s : State) (n t : Nat) (x : Thread) : (s.setThr n t x).car = s.car := rfl
@[simp] theorem State.setThr_fab (s : State) (n t : Nat) (x : Thread) : (s.setThr n t x).fab = s.fab := rfl
@[simp] theorem State.setThr_die (s : State) (n t : Nat) (x : Thread) : (s.setThr n t x).die = s.die := rfl
@[simp] theorem State.setThr_boot (s : State) (n t : Nat) (x : Thread) : (s.setThr n t x).boot = s.boot := rfl
@[simp] theorem State.setThr_sec (s : State) (n t : Nat) (x : Thread) : (s.setThr n t x).sec = s.sec := rfl
@[simp] theorem State.setThr_scAdmitted (s : State) (n t : Nat) (x : Thread) : (s.setThr n t x).scAdmitted = s.scAdmitted := rfl
@[simp] theorem State.setThr_msReady (s : State) (n t : Nat) (x : Thread) : (s.setThr n t x).msReady = s.msReady := rfl
@[simp] theorem State.setThr_lnReady (s : State) (n t : Nat) (x : Thread) : (s.setThr n t x).lnReady = s.lnReady := rfl
@[simp] theorem State.setThr_fbReady (s : State) (n t : Nat) (x : Thread) : (s.setThr n t x).fbReady = s.fbReady := rfl
@[simp] theorem State.setThr_degraded (s : State) (n t : Nat) (x : Thread) : (s.setThr n t x).degraded = s.degraded := rfl
@[simp] theorem State.setThr_lock (s : State) (n t : Nat) (x : Thread) : (s.setThr n t x).lock = s.lock := rfl
@[simp] theorem State.setThr_free (s : State) (n t : Nat) (x : Thread) : (s.setThr n t x).free = s.free := rfl
@[simp] theorem State.setThr_pending (s : State) (n t : Nat) (x : Thread) : (s.setThr n t x).pending = s.pending := rfl
@[simp] theorem State.modThr_pwr (s : State) (n t : Nat) (f : Thread → Thread) : (s.modThr n t f).pwr = s.pwr := rfl
@[simp] theorem State.modThr_clk (s : State) (n t : Nat) (f : Thread → Thread) : (s.modThr n t f).clk = s.clk := rfl
@[simp] theorem State.modThr_thm (s : State) (n t : Nat) (f : Thread → Thread) : (s.modThr n t f).thm = s.thm := rfl
@[simp] theorem State.modThr_mer (s : State) (n t : Nat) (f : Thread → Thread) : (s.modThr n t f).mer = s.mer := rfl
@[simp] theorem State.modThr_evt (s : State) (n t : Nat) (f : Thread → Thread) : (s.modThr n t f).evt = s.evt := rfl
@[simp] theorem State.modThr_dram (s : State) (n t : Nat) (f : Thread → Thread) : (s.modThr n t f).dram = s.dram := rfl
@[simp] theorem State.modThr_mem (s : State) (n t : Nat) (f : Thread → Thread) : (s.modThr n t f).mem = s.mem := rfl
@[simp] theorem State.modThr_gmem (s : State) (n t : Nat) (f : Thread → Thread) : (s.modThr n t f).gmem = s.gmem := rfl
@[simp] theorem State.modThr_hostMem (s : State) (n t : Nat) (f : Thread → Thread) : (s.modThr n t f).hostMem = s.hostMem := rfl
@[simp] theorem State.modThr_msh (s : State) (n t : Nat) (f : Thread → Thread) : (s.modThr n t f).msh = s.msh := rfl
@[simp] theorem State.modThr_rgl (s : State) (n t : Nat) (f : Thread → Thread) : (s.modThr n t f).rgl = s.rgl := rfl
@[simp] theorem State.modThr_mil (s : State) (n t : Nat) (f : Thread → Thread) : (s.modThr n t f).mil = s.mil := rfl
@[simp] theorem State.modThr_xlt (s : State) (n t : Nat) (f : Thread → Thread) : (s.modThr n t f).xlt = s.xlt := rfl
@[simp] theorem State.modThr_host (s : State) (n t : Nat) (f : Thread → Thread) : (s.modThr n t f).host = s.host := rfl
@[simp] theorem State.modThr_car (s : State) (n t : Nat) (f : Thread → Thread) : (s.modThr n t f).car = s.car := rfl
@[simp] theorem State.modThr_fab (s : State) (n t : Nat) (f : Thread → Thread) : (s.modThr n t f).fab = s.fab := rfl
@[simp] theorem State.modThr_die (s : State) (n t : Nat) (f : Thread → Thread) : (s.modThr n t f).die = s.die := rfl
@[simp] theorem State.modThr_boot (s : State) (n t : Nat) (f : Thread → Thread) : (s.modThr n t f).boot = s.boot := rfl
@[simp] theorem State.modThr_sec (s : State) (n t : Nat) (f : Thread → Thread) : (s.modThr n t f).sec = s.sec := rfl
@[simp] theorem State.modThr_scAdmitted (s : State) (n t : Nat) (f : Thread → Thread) : (s.modThr n t f).scAdmitted = s.scAdmitted := rfl
@[simp] theorem State.modThr_msReady (s : State) (n t : Nat) (f : Thread → Thread) : (s.modThr n t f).msReady = s.msReady := rfl
@[simp] theorem State.modThr_lnReady (s : State) (n t : Nat) (f : Thread → Thread) : (s.modThr n t f).lnReady = s.lnReady := rfl
@[simp] theorem State.modThr_fbReady (s : State) (n t : Nat) (f : Thread → Thread) : (s.modThr n t f).fbReady = s.fbReady := rfl
@[simp] theorem State.modThr_degraded (s : State) (n t : Nat) (f : Thread → Thread) : (s.modThr n t f).degraded = s.degraded := rfl
@[simp] theorem State.modThr_lock (s : State) (n t : Nat) (f : Thread → Thread) : (s.modThr n t f).lock = s.lock := rfl
@[simp] theorem State.modThr_free (s : State) (n t : Nat) (f : Thread → Thread) : (s.modThr n t f).free = s.free := rfl
@[simp] theorem State.modThr_pending (s : State) (n t : Nat) (f : Thread → Thread) : (s.modThr n t f).pending = s.pending := rfl
@[simp] theorem State.modCore_pwr (s : State) (n : Nat) (f : Core → Core) : (s.modCore n f).pwr = s.pwr := rfl
@[simp] theorem State.modCore_clk (s : State) (n : Nat) (f : Core → Core) : (s.modCore n f).clk = s.clk := rfl
@[simp] theorem State.modCore_thm (s : State) (n : Nat) (f : Core → Core) : (s.modCore n f).thm = s.thm := rfl
@[simp] theorem State.modCore_mer (s : State) (n : Nat) (f : Core → Core) : (s.modCore n f).mer = s.mer := rfl
@[simp] theorem State.modCore_evt (s : State) (n : Nat) (f : Core → Core) : (s.modCore n f).evt = s.evt := rfl
@[simp] theorem State.modCore_dram (s : State) (n : Nat) (f : Core → Core) : (s.modCore n f).dram = s.dram := rfl
@[simp] theorem State.modCore_mem (s : State) (n : Nat) (f : Core → Core) : (s.modCore n f).mem = s.mem := rfl
@[simp] theorem State.modCore_gmem (s : State) (n : Nat) (f : Core → Core) : (s.modCore n f).gmem = s.gmem := rfl
@[simp] theorem State.modCore_hostMem (s : State) (n : Nat) (f : Core → Core) : (s.modCore n f).hostMem = s.hostMem := rfl
@[simp] theorem State.modCore_msh (s : State) (n : Nat) (f : Core → Core) : (s.modCore n f).msh = s.msh := rfl
@[simp] theorem State.modCore_rgl (s : State) (n : Nat) (f : Core → Core) : (s.modCore n f).rgl = s.rgl := rfl
@[simp] theorem State.modCore_mil (s : State) (n : Nat) (f : Core → Core) : (s.modCore n f).mil = s.mil := rfl
@[simp] theorem State.modCore_xlt (s : State) (n : Nat) (f : Core → Core) : (s.modCore n f).xlt = s.xlt := rfl
@[simp] theorem State.modCore_host (s : State) (n : Nat) (f : Core → Core) : (s.modCore n f).host = s.host := rfl
@[simp] theorem State.modCore_car (s : State) (n : Nat) (f : Core → Core) : (s.modCore n f).car = s.car := rfl
@[simp] theorem State.modCore_fab (s : State) (n : Nat) (f : Core → Core) : (s.modCore n f).fab = s.fab := rfl
@[simp] theorem State.modCore_die (s : State) (n : Nat) (f : Core → Core) : (s.modCore n f).die = s.die := rfl
@[simp] theorem State.modCore_boot (s : State) (n : Nat) (f : Core → Core) : (s.modCore n f).boot = s.boot := rfl
@[simp] theorem State.modCore_sec (s : State) (n : Nat) (f : Core → Core) : (s.modCore n f).sec = s.sec := rfl
@[simp] theorem State.modCore_scAdmitted (s : State) (n : Nat) (f : Core → Core) : (s.modCore n f).scAdmitted = s.scAdmitted := rfl
@[simp] theorem State.modCore_msReady (s : State) (n : Nat) (f : Core → Core) : (s.modCore n f).msReady = s.msReady := rfl
@[simp] theorem State.modCore_lnReady (s : State) (n : Nat) (f : Core → Core) : (s.modCore n f).lnReady = s.lnReady := rfl
@[simp] theorem State.modCore_fbReady (s : State) (n : Nat) (f : Core → Core) : (s.modCore n f).fbReady = s.fbReady := rfl
@[simp] theorem State.modCore_degraded (s : State) (n : Nat) (f : Core → Core) : (s.modCore n f).degraded = s.degraded := rfl
@[simp] theorem State.modCore_lock (s : State) (n : Nat) (f : Core → Core) : (s.modCore n f).lock = s.lock := rfl
@[simp] theorem State.modCore_free (s : State) (n : Nat) (f : Core → Core) : (s.modCore n f).free = s.free := rfl
@[simp] theorem State.modCore_pending (s : State) (n : Nat) (f : Core → Core) : (s.modCore n f).pending = s.pending := rfl

/-- A write of one thread: the others, and all else of its core and of the other cores, stay. -/
theorem State.core_setThr (s : State) (n t m : Nat) (x : Thread) :
    (s.setThr n t x).core m = if m = n then (s.core n).setThread t x else s.core m :=
  State.core_setCore s n m _

@[simp] theorem State.core_setThr_same (s : State) (n t : Nat) (x : Thread) :
    (s.setThr n t x).core n = (s.core n).setThread t x := by simp [State.core_setThr]

theorem State.thr_setThr (s : State) (n t m u : Nat) (x : Thread) :
    (s.setThr n t x).thr m u = if m = n ∧ u = t then x else s.thr m u := by
  unfold State.thr
  rw [State.core_setThr]
  by_cases h : m = n
  · subst h
    rw [if_pos rfl, Core.thread_setThread]
    by_cases h2 : u = t
    · rw [if_pos h2, if_pos ⟨rfl, h2⟩]
    · rw [if_neg h2, if_neg (fun h => h2 h.2)]
  · rw [if_neg h, if_neg (fun h2 => h h2.1)]

@[simp] theorem State.thr_setThr_same (s : State) (n t : Nat) (x : Thread) : (s.setThr n t x).thr n t = x := by
  simp [State.thr_setThr]

theorem State.thr_modThr (s : State) (n t m u : Nat) (f : Thread → Thread) :
    (s.modThr n t f).thr m u = if m = n ∧ u = t then f (s.thr n t) else s.thr m u :=
  State.thr_setThr s n t m u _

@[simp] theorem State.thr_modThr_same (s : State) (n t : Nat) (f : Thread → Thread) :
    (s.modThr n t f).thr n t = f (s.thr n t) := State.thr_setThr_same s n t _

theorem State.core_modThr (s : State) (n t m : Nat) (f : Thread → Thread) :
    (s.modThr n t f).core m = if m = n then (s.core n).setThread t (f (s.thr n t)) else s.core m :=
  State.core_setThr s n t m _

@[simp] theorem State.core_modThr_same (s : State) (n t : Nat) (f : Thread → Thread) :
    (s.modThr n t f).core n = (s.core n).setThread t (f (s.thr n t)) := State.core_setThr_same s n t _

theorem State.core_modCore (s : State) (n m : Nat) (f : Core → Core) :
    (s.modCore n f).core m = if m = n then f (s.core n) else s.core m := State.core_setCore s n m _

@[simp] theorem State.core_modCore_same (s : State) (n : Nat) (f : Core → Core) :
    (s.modCore n f).core n = f (s.core n) := by simp [State.core_modCore]

/-! ### Registers of a thread (R80, R81) -/

theorem Thread.rs_ws (x : Thread) (i j : Nat) (v : Word) :
    (x.ws i v).rs j = if j % 64 = i % 64 then v else x.rs j := tget_tset _ _ _ _ _
@[simp] theorem Thread.rs_ws_same (x : Thread) (i : Nat) (v : Word) : (x.ws i v).rs i = v := by simp [Thread.rs_ws]

theorem Thread.rv_wv (x : Thread) (i j : Nat) (v : VReg) :
    (x.wv i v).rv j = if j % 16 = i % 16 then v else x.rv j := tget_tset _ _ _ _ _
@[simp] theorem Thread.rv_wv_same (x : Thread) (i : Nat) (v : VReg) : (x.wv i v).rv i = v := by simp [Thread.rv_wv]

theorem Thread.rc_wc (x : Thread) (i j : Nat) (v : W32) :
    (x.wc i v).rc j = if j % 8 = i % 8 then v else x.rc j := tget_tset _ _ _ _ _
@[simp] theorem Thread.rc_wc_same (x : Thread) (i : Nat) (v : W32) : (x.wc i v).rc i = v := by simp [Thread.rc_wc]

/-- p0 reads as all ones, whatever was written to it (R81). -/
theorem Thread.rp_zero (x : Thread) (i : Nat) (h : i % 8 = 0) : x.rp i = BitVec.allOnes 64 := by simp [Thread.rp, h]

theorem Thread.rp_wp (x : Thread) (i j : Nat) (v : Word) :
    (x.wp i v).rp j = if j % 8 = 0 then BitVec.allOnes 64 else if j % 8 = i % 8 then v else x.rp j := by
  unfold Thread.rp Thread.wp
  by_cases h : i % 8 = 0
  · rw [if_pos h]
    by_cases h2 : j % 8 = 0
    · simp [h2]
    · rw [if_neg h2, if_neg h2, if_neg (by omega)]
  · rw [if_neg h]
    by_cases h2 : j % 8 = 0
    · simp [h2]
    · simp only [tget_tset, if_neg h2]

@[simp] theorem Thread.ws_st (x : Thread) (i : Nat) (v : Word) : (x.ws i v).st = x.st := rfl
@[simp] theorem Thread.ws_wait (x : Thread) (i : Nat) (v : Word) : (x.ws i v).wait = x.wait := rfl
@[simp] theorem Thread.ws_prev (x : Thread) (i : Nat) (v : Word) : (x.ws i v).prev = x.prev := rfl
@[simp] theorem Thread.ws_prevWait (x : Thread) (i : Nat) (v : Word) : (x.ws i v).prevWait = x.prevWait := rfl
@[simp] theorem Thread.ws_pc (x : Thread) (i : Nat) (v : Word) : (x.ws i v).pc = x.pc := rfl
@[simp] theorem Thread.ws_v (x : Thread) (i : Nat) (v : Word) : (x.ws i v).v = x.v := rfl
@[simp] theorem Thread.ws_p (x : Thread) (i : Nat) (v : Word) : (x.ws i v).p = x.p := rfl
@[simp] theorem Thread.ws_flg (x : Thread) (i : Nat) (v : Word) : (x.ws i v).flg = x.flg := rfl
@[simp] theorem Thread.ws_cnt (x : Thread) (i : Nat) (v : Word) : (x.ws i v).cnt = x.cnt := rfl
@[simp] theorem Thread.ws_blk (x : Thread) (i : Nat) (v : Word) : (x.ws i v).blk = x.blk := rfl
@[simp] theorem Thread.ws_answer (x : Thread) (i : Nat) (v : Word) : (x.ws i v).answer = x.answer := rfl
@[simp] theorem Thread.ws_holdReq (x : Thread) (i : Nat) (v : Word) : (x.ws i v).holdReq = x.holdReq := rfl
@[simp] theorem Thread.ws_fStatus (x : Thread) (i : Nat) (v : Word) : (x.ws i v).fStatus = x.fStatus := rfl
@[simp] theorem Thread.ws_fCause (x : Thread) (i : Nat) (v : Word) : (x.ws i v).fCause = x.fCause := rfl
@[simp] theorem Thread.ws_fDeferred (x : Thread) (i : Nat) (v : Word) : (x.ws i v).fDeferred = x.fDeferred := rfl
@[simp] theorem Thread.ws_fIssue (x : Thread) (i : Nat) (v : Word) : (x.ws i v).fIssue = x.fIssue := rfl
@[simp] theorem Thread.ws_fStop (x : Thread) (i : Nat) (v : Word) : (x.ws i v).fStop = x.fStop := rfl
@[simp] theorem Thread.ws_faddr (x : Thread) (i : Nat) (v : Word) : (x.ws i v).faddr = x.faddr := rfl
@[simp] theorem Thread.ws_dfr (x : Thread) (i : Nat) (v : Word) : (x.ws i v).dfr = x.dfr := rfl
@[simp] theorem Thread.ws_skip (x : Thread) (i : Nat) (v : Word) : (x.ws i v).skip = x.skip := rfl
@[simp] theorem Thread.ws_hostLinks (x : Thread) (i : Nat) (v : Word) : (x.ws i v).hostLinks = x.hostLinks := rfl
@[simp] theorem Thread.ws_rv (x : Thread) (i j : Nat) (v : Word) : (x.ws i v).rv j = x.rv j := rfl
@[simp] theorem Thread.ws_rc (x : Thread) (i j : Nat) (v : Word) : (x.ws i v).rc j = x.rc j := rfl
@[simp] theorem Thread.ws_rp (x : Thread) (i j : Nat) (v : Word) : (x.ws i v).rp j = x.rp j := rfl
@[simp] theorem Thread.wv_st (x : Thread) (i : Nat) (v : VReg) : (x.wv i v).st = x.st := rfl
@[simp] theorem Thread.wv_wait (x : Thread) (i : Nat) (v : VReg) : (x.wv i v).wait = x.wait := rfl
@[simp] theorem Thread.wv_prev (x : Thread) (i : Nat) (v : VReg) : (x.wv i v).prev = x.prev := rfl
@[simp] theorem Thread.wv_prevWait (x : Thread) (i : Nat) (v : VReg) : (x.wv i v).prevWait = x.prevWait := rfl
@[simp] theorem Thread.wv_pc (x : Thread) (i : Nat) (v : VReg) : (x.wv i v).pc = x.pc := rfl
@[simp] theorem Thread.wv_s (x : Thread) (i : Nat) (v : VReg) : (x.wv i v).s = x.s := rfl
@[simp] theorem Thread.wv_p (x : Thread) (i : Nat) (v : VReg) : (x.wv i v).p = x.p := rfl
@[simp] theorem Thread.wv_flg (x : Thread) (i : Nat) (v : VReg) : (x.wv i v).flg = x.flg := rfl
@[simp] theorem Thread.wv_cnt (x : Thread) (i : Nat) (v : VReg) : (x.wv i v).cnt = x.cnt := rfl
@[simp] theorem Thread.wv_blk (x : Thread) (i : Nat) (v : VReg) : (x.wv i v).blk = x.blk := rfl
@[simp] theorem Thread.wv_answer (x : Thread) (i : Nat) (v : VReg) : (x.wv i v).answer = x.answer := rfl
@[simp] theorem Thread.wv_holdReq (x : Thread) (i : Nat) (v : VReg) : (x.wv i v).holdReq = x.holdReq := rfl
@[simp] theorem Thread.wv_fStatus (x : Thread) (i : Nat) (v : VReg) : (x.wv i v).fStatus = x.fStatus := rfl
@[simp] theorem Thread.wv_fCause (x : Thread) (i : Nat) (v : VReg) : (x.wv i v).fCause = x.fCause := rfl
@[simp] theorem Thread.wv_fDeferred (x : Thread) (i : Nat) (v : VReg) : (x.wv i v).fDeferred = x.fDeferred := rfl
@[simp] theorem Thread.wv_fIssue (x : Thread) (i : Nat) (v : VReg) : (x.wv i v).fIssue = x.fIssue := rfl
@[simp] theorem Thread.wv_fStop (x : Thread) (i : Nat) (v : VReg) : (x.wv i v).fStop = x.fStop := rfl
@[simp] theorem Thread.wv_faddr (x : Thread) (i : Nat) (v : VReg) : (x.wv i v).faddr = x.faddr := rfl
@[simp] theorem Thread.wv_dfr (x : Thread) (i : Nat) (v : VReg) : (x.wv i v).dfr = x.dfr := rfl
@[simp] theorem Thread.wv_skip (x : Thread) (i : Nat) (v : VReg) : (x.wv i v).skip = x.skip := rfl
@[simp] theorem Thread.wv_hostLinks (x : Thread) (i : Nat) (v : VReg) : (x.wv i v).hostLinks = x.hostLinks := rfl
@[simp] theorem Thread.wv_rs (x : Thread) (i j : Nat) (v : VReg) : (x.wv i v).rs j = x.rs j := rfl
@[simp] theorem Thread.wv_rc (x : Thread) (i j : Nat) (v : VReg) : (x.wv i v).rc j = x.rc j := rfl
@[simp] theorem Thread.wv_rp (x : Thread) (i j : Nat) (v : VReg) : (x.wv i v).rp j = x.rp j := rfl
@[simp] theorem Thread.wc_st (x : Thread) (i : Nat) (v : W32) : (x.wc i v).st = x.st := rfl
@[simp] theorem Thread.wc_wait (x : Thread) (i : Nat) (v : W32) : (x.wc i v).wait = x.wait := rfl
@[simp] theorem Thread.wc_prev (x : Thread) (i : Nat) (v : W32) : (x.wc i v).prev = x.prev := rfl
@[simp] theorem Thread.wc_prevWait (x : Thread) (i : Nat) (v : W32) : (x.wc i v).prevWait = x.prevWait := rfl
@[simp] theorem Thread.wc_pc (x : Thread) (i : Nat) (v : W32) : (x.wc i v).pc = x.pc := rfl
@[simp] theorem Thread.wc_s (x : Thread) (i : Nat) (v : W32) : (x.wc i v).s = x.s := rfl
@[simp] theorem Thread.wc_v (x : Thread) (i : Nat) (v : W32) : (x.wc i v).v = x.v := rfl
@[simp] theorem Thread.wc_p (x : Thread) (i : Nat) (v : W32) : (x.wc i v).p = x.p := rfl
@[simp] theorem Thread.wc_flg (x : Thread) (i : Nat) (v : W32) : (x.wc i v).flg = x.flg := rfl
@[simp] theorem Thread.wc_blk (x : Thread) (i : Nat) (v : W32) : (x.wc i v).blk = x.blk := rfl
@[simp] theorem Thread.wc_answer (x : Thread) (i : Nat) (v : W32) : (x.wc i v).answer = x.answer := rfl
@[simp] theorem Thread.wc_holdReq (x : Thread) (i : Nat) (v : W32) : (x.wc i v).holdReq = x.holdReq := rfl
@[simp] theorem Thread.wc_fStatus (x : Thread) (i : Nat) (v : W32) : (x.wc i v).fStatus = x.fStatus := rfl
@[simp] theorem Thread.wc_fCause (x : Thread) (i : Nat) (v : W32) : (x.wc i v).fCause = x.fCause := rfl
@[simp] theorem Thread.wc_fDeferred (x : Thread) (i : Nat) (v : W32) : (x.wc i v).fDeferred = x.fDeferred := rfl
@[simp] theorem Thread.wc_fIssue (x : Thread) (i : Nat) (v : W32) : (x.wc i v).fIssue = x.fIssue := rfl
@[simp] theorem Thread.wc_fStop (x : Thread) (i : Nat) (v : W32) : (x.wc i v).fStop = x.fStop := rfl
@[simp] theorem Thread.wc_faddr (x : Thread) (i : Nat) (v : W32) : (x.wc i v).faddr = x.faddr := rfl
@[simp] theorem Thread.wc_dfr (x : Thread) (i : Nat) (v : W32) : (x.wc i v).dfr = x.dfr := rfl
@[simp] theorem Thread.wc_skip (x : Thread) (i : Nat) (v : W32) : (x.wc i v).skip = x.skip := rfl
@[simp] theorem Thread.wc_hostLinks (x : Thread) (i : Nat) (v : W32) : (x.wc i v).hostLinks = x.hostLinks := rfl
@[simp] theorem Thread.wc_rs (x : Thread) (i j : Nat) (v : W32) : (x.wc i v).rs j = x.rs j := rfl
@[simp] theorem Thread.wc_rv (x : Thread) (i j : Nat) (v : W32) : (x.wc i v).rv j = x.rv j := rfl
@[simp] theorem Thread.wc_rp (x : Thread) (i j : Nat) (v : W32) : (x.wc i v).rp j = x.rp j := rfl
@[simp] theorem Thread.wp_st (x : Thread) (i : Nat) (v : Word) : (x.wp i v).st = x.st := by
  unfold Thread.wp; split <;> rfl
@[simp] theorem Thread.wp_wait (x : Thread) (i : Nat) (v : Word) : (x.wp i v).wait = x.wait := by
  unfold Thread.wp; split <;> rfl
@[simp] theorem Thread.wp_prev (x : Thread) (i : Nat) (v : Word) : (x.wp i v).prev = x.prev := by
  unfold Thread.wp; split <;> rfl
@[simp] theorem Thread.wp_prevWait (x : Thread) (i : Nat) (v : Word) : (x.wp i v).prevWait = x.prevWait := by
  unfold Thread.wp; split <;> rfl
@[simp] theorem Thread.wp_pc (x : Thread) (i : Nat) (v : Word) : (x.wp i v).pc = x.pc := by
  unfold Thread.wp; split <;> rfl
@[simp] theorem Thread.wp_s (x : Thread) (i : Nat) (v : Word) : (x.wp i v).s = x.s := by
  unfold Thread.wp; split <;> rfl
@[simp] theorem Thread.wp_v (x : Thread) (i : Nat) (v : Word) : (x.wp i v).v = x.v := by
  unfold Thread.wp; split <;> rfl
@[simp] theorem Thread.wp_flg (x : Thread) (i : Nat) (v : Word) : (x.wp i v).flg = x.flg := by
  unfold Thread.wp; split <;> rfl
@[simp] theorem Thread.wp_cnt (x : Thread) (i : Nat) (v : Word) : (x.wp i v).cnt = x.cnt := by
  unfold Thread.wp; split <;> rfl
@[simp] theorem Thread.wp_blk (x : Thread) (i : Nat) (v : Word) : (x.wp i v).blk = x.blk := by
  unfold Thread.wp; split <;> rfl
@[simp] theorem Thread.wp_answer (x : Thread) (i : Nat) (v : Word) : (x.wp i v).answer = x.answer := by
  unfold Thread.wp; split <;> rfl
@[simp] theorem Thread.wp_holdReq (x : Thread) (i : Nat) (v : Word) : (x.wp i v).holdReq = x.holdReq := by
  unfold Thread.wp; split <;> rfl
@[simp] theorem Thread.wp_fStatus (x : Thread) (i : Nat) (v : Word) : (x.wp i v).fStatus = x.fStatus := by
  unfold Thread.wp; split <;> rfl
@[simp] theorem Thread.wp_fCause (x : Thread) (i : Nat) (v : Word) : (x.wp i v).fCause = x.fCause := by
  unfold Thread.wp; split <;> rfl
@[simp] theorem Thread.wp_fDeferred (x : Thread) (i : Nat) (v : Word) : (x.wp i v).fDeferred = x.fDeferred := by
  unfold Thread.wp; split <;> rfl
@[simp] theorem Thread.wp_fIssue (x : Thread) (i : Nat) (v : Word) : (x.wp i v).fIssue = x.fIssue := by
  unfold Thread.wp; split <;> rfl
@[simp] theorem Thread.wp_fStop (x : Thread) (i : Nat) (v : Word) : (x.wp i v).fStop = x.fStop := by
  unfold Thread.wp; split <;> rfl
@[simp] theorem Thread.wp_faddr (x : Thread) (i : Nat) (v : Word) : (x.wp i v).faddr = x.faddr := by
  unfold Thread.wp; split <;> rfl
@[simp] theorem Thread.wp_dfr (x : Thread) (i : Nat) (v : Word) : (x.wp i v).dfr = x.dfr := by
  unfold Thread.wp; split <;> rfl
@[simp] theorem Thread.wp_skip (x : Thread) (i : Nat) (v : Word) : (x.wp i v).skip = x.skip := by
  unfold Thread.wp; split <;> rfl
@[simp] theorem Thread.wp_hostLinks (x : Thread) (i : Nat) (v : Word) : (x.wp i v).hostLinks = x.hostLinks := by
  unfold Thread.wp; split <;> rfl
@[simp] theorem Thread.wp_rs (x : Thread) (i j : Nat) (v : Word) : (x.wp i v).rs j = x.rs j := by
  unfold Thread.wp; split <;> rfl
@[simp] theorem Thread.wp_rv (x : Thread) (i j : Nat) (v : Word) : (x.wp i v).rv j = x.rv j := by
  unfold Thread.wp; split <;> rfl
@[simp] theorem Thread.wp_rc (x : Thread) (i j : Nat) (v : Word) : (x.wp i v).rc j = x.rc j := by
  unfold Thread.wp; split <;> rfl

end Sys2Proof.Machine
end

