-- ==== Sys2Proof/Laws/Command.lean ====
section
/-! SUPPORT. What completing a command changes, and what the frame of a ring's command answers in each of its cases. -/

namespace Sys2Proof.Machine

variable {s s1 : State} {op : Nat} {h : Hdr} {fs : List (Nat × Nat × Nat)} {bad : State → Bool} {run : State → State}

/-- A command whose frame lets it run answers the state that its own effect leaves. -/
theorem command_runs (hs : Starts s s1 op h fs) (hb : bad s1 = false) : command op h fs bad run s = .next (run s1) := by
  obtain ⟨hr, hg, hst⟩ := hs
  simp only [command, hr, Bool.false_eq_true, ↓reduceIte, hg, hb]
  split
  · rename_i hp
    simp only [Bool.and_eq_true, decide_eq_true_eq, Bool.not_eq_eq_eq_not, Bool.not_true] at hp
    rw [hst hp.1] at hp
    exact absurd hp.2 Bool.noConfusion
  · rfl

/-- A command with a parameter out of range completes BAD_PARAM with no effect (R13). -/
theorem command_bad (hs : Starts s s1 op h fs) (hb : bad s1 = true) :
    command op h fs bad run s = .next (finishSt s1 h.ring h.seq stBADPARAM 0) := by
  obtain ⟨hr, hg, hst⟩ := hs
  simp only [command, hr, Bool.false_eq_true, ↓reduceIte, hg, hb]
  split
  · rename_i hp
    simp only [Bool.and_eq_true, decide_eq_true_eq, Bool.not_eq_eq_eq_not, Bool.not_true] at hp
    rw [hst hp.1] at hp
    exact absurd hp.2 Bool.noConfusion
  · rfl

theorem State.stopCtx_cases (s : State) (c : Nat) : s.stopCtx c = s ∨ ∃ x, s.stopCtx c = s.setCtx c x := by
  unfold State.stopCtx
  dsimp only
  split
  · exact .inr ⟨_, rfl⟩
  · exact .inl rfl

/-- Completing a command changes the host attachment and, with DIE_LOST, the contexts; nothing else. -/
theorem finish_frame (s : State) (ring : Nat) (seq : W32) (status d16 d32 d64 : Nat) :
    { finish s ring seq status d16 d32 d64 with host := s.host, xlt := s.xlt } = s := by
  unfold finish
  split
  · rfl
  · rename_i c _
    dsimp only
    rcases State.stopCtx_cases (unpark { s with host := { s.host with
      inflight := s.host.inflight.filter fun x => !(x.ring = ring && x.seq = seq) } } ring seq) c.ctx with e | ⟨x, e⟩ <;>
      rw [e] <;> repeat' split
    all_goals rfl

/-- With a status other than DIE_LOST, completing a command changes nothing but the commands in flight, what they still
had to do, and the records that are held. -/
theorem finish_host (s : State) (ring : Nat) (seq : W32) {status : Nat} (d16 d32 d64 : Nat) (hs : status ≠ stDIELOST) :
    { finish s ring seq status d16 d32 d64 with host := s.host } = s ∧
    { (finish s ring seq status d16 d32 d64).host with
      inflight := s.host.inflight, held := s.host.held, parked := s.host.parked } = s.host := by
  unfold finish
  split
  · exact ⟨rfl, rfl⟩
  · simp only [hs, ↓reduceIte]
    split <;> exact ⟨rfl, rfl⟩

/-- A completed command is in flight no longer, and every other command is as before. -/
theorem finish_inflight (s : State) (ring : Nat) (seq : W32) (status d16 d32 d64 : Nat) :
    (finish s ring seq status d16 d32 d64).host.inflight =
      s.host.inflight.filter fun x => !(x.ring = ring && x.seq = seq) := by
  unfold finish
  split
  · rename_i hn
    simp only [State.cmd?, List.find?_eq_none] at hn
    refine Eq.symm (List.filter_eq_self.mpr ?_)
    intro x hx
    simpa only [Bool.not_eq_eq_eq_not, Bool.not_true, Bool.not_eq_true] using hn x hx
  · rename_i c _
    dsimp only
    rcases State.stopCtx_cases (unpark { s with host := { s.host with
      inflight := s.host.inflight.filter fun x => !(x.ring = ring && x.seq = seq) } } ring seq) c.ctx with e | ⟨x, e⟩ <;>
      rw [e] <;> repeat' split
    all_goals rfl

theorem finish_ended (s : State) (ring : Nat) (seq : W32) (status d16 d32 d64 : Nat) :
    (finish s ring seq status d16 d32 d64).cmd? ring seq = none := by
  simp only [State.cmd?, finish_inflight, List.find?_eq_none, List.mem_filter, Bool.not_eq_eq_eq_not, Bool.not_true]
  intro x hx
  exact fun e => Bool.noConfusion (hx.2.symm.trans e)

end Sys2Proof.Machine
end

