-- ==== Sys2Proof/Laws/Exec.lean ====
section
/-! SUPPORT. What the dispatcher answers for each command: its meaning, by name. -/

namespace Sys2Proof.Machine

@[simp] theorem exec_inputRising40v (s : State) : exec (.inputRising40v) s = execInputRising40v s := rfl
@[simp] theorem exec_undervoltageWarning (mv : Nat) (s : State) :
    exec (.undervoltageWarning mv) s = execUndervoltageWarning mv s := rfl
@[simp] theorem exec_undervoltageClear (durationUs : Nat) (s : State) :
    exec (.undervoltageClear durationUs) s = execUndervoltageClear durationUs s := rfl
@[simp] theorem exec_orderlyReset (s : State) : exec (.orderlyReset) s = execOrderlyReset s := rfl
@[simp] theorem exec_ovWarnSet (mv : Nat) (s : State) : exec (.ovWarnSet mv) s = execOvWarnSet mv s := rfl
@[simp] theorem exec_ovWarnClear (s : State) : exec (.ovWarnClear) s = execOvWarnClear s := rfl
@[simp] theorem exec_overvoltageShutdown (s : State) :
    exec (.overvoltageShutdown) s = execOvervoltageShutdown s := rfl
@[simp] theorem exec_limiterSample (p : Nat) (mv : Nat) (centiAmp : Nat) (s : State) :
    exec (.limiterSample p mv centiAmp) s = execLimiterSample p mv centiAmp s := rfl
@[simp] theorem exec_limiterReleaseStep (s : State) : exec (.limiterReleaseStep) s = execLimiterReleaseStep s := rfl
@[simp] theorem exec_powerBudgetMessage (fb : Nat) (bFb : Nat) (bSc0 : Nat) (bSc1 : Nat) (bSc2 : Nat) (bSc3 : Nat) (s : State) :
    exec (.powerBudgetMessage fb bFb bSc0 bSc1 bSc2 bSc3) s = execPowerBudgetMessage fb bFb bSc0 bSc1 bSc2 bSc3 s := rfl
@[simp] theorem exec_railFault (fb : Nat) (d : Nat) (rail : Nat) (s : State) :
    exec (.railFault fb d rail) s = execRailFault fb d rail s := rfl
@[simp] theorem exec_stage1SectionFault (q : Nat) (s : State) :
    exec (.stage1SectionFault q) s = execStage1SectionFault q s := rfl
@[simp] theorem exec_pwrSet (h : Hdr) (capW : Nat) (s : State) : exec (.pwrSet h capW) s = execPwrSet h capW s := rfl
@[simp] theorem exec_powerCapEffecterSet (capW : Nat) (s : State) :
    exec (.powerCapEffecterSet capW) s = execPowerCapEffecterSet capW s := rfl
@[simp] theorem exec_domeDigitise (fb : Nat) (d : Nat) (readings : List Int) (s : State) :
    exec (.domeDigitise fb d readings) s = execDomeDigitise fb d readings s := rfl
@[simp] theorem exec_thmWarnTrip (fb : Nat) (d : Nat) (temp : Nat) (s : State) :
    exec (.thmWarnTrip fb d temp) s = execThmWarnTrip fb d temp s := rfl
@[simp] theorem exec_thmWarnClear (fb : Nat) (d : Nat) (temp : Nat) (s : State) :
    exec (.thmWarnClear fb d temp) s = execThmWarnClear fb d temp s := rfl
@[simp] theorem exec_throttleEntry (fb : Nat) (d : Nat) (temp : Nat) (s : State) :
    exec (.throttleEntry fb d temp) s = execThrottleEntry fb d temp s := rfl
@[simp] theorem exec_throttleExit (fb : Nat) (d : Nat) (temp : Nat) (s : State) :
    exec (.throttleExit fb d temp) s = execThrottleExit fb d temp s := rfl
@[simp] theorem exec_throttleStep (fb : Nat) (d : Nat) (temp : Nat) (s : State) :
    exec (.throttleStep fb d temp) s = execThrottleStep fb d temp s := rfl
@[simp] theorem exec_thermalShutdown (fb : Nat) (d : Nat) (s : State) :
    exec (.thermalShutdown fb d) s = execThermalShutdown fb d s := rfl
@[simp] theorem exec_autoRestart (s : State) : exec (.autoRestart) s = execAutoRestart s := rfl
@[simp] theorem exec_meridianEdge (s : State) : exec (.meridianEdge) s = execMeridianEdge s := rfl
@[simp] theorem exec_tempPpbUpdate (reading : Int) (s : State) :
    exec (.tempPpbUpdate reading) s = execTempPpbUpdate reading s := rfl
@[simp] theorem exec_meridianCopyCheck (s : State) : exec (.meridianCopyCheck) s = execMeridianCopyCheck s := rfl
@[simp] theorem exec_clockRaiseDone (fb : Nat) (unit : Nat) (s : State) :
    exec (.clockRaiseDone fb unit) s = execClockRaiseDone fb unit s := rfl
@[simp] theorem exec_clusterClockStop (sc : Nat) (k : Nat) (s : State) :
    exec (.clusterClockStop sc k) s = execClusterClockStop sc k s := rfl
@[simp] theorem exec_clusterWake (sc : Nat) (k : Nat) (s : State) :
    exec (.clusterWake sc k) s = execClusterWake sc k s := rfl
@[simp] theorem exec_scSleep (sc : Nat) (s : State) : exec (.scSleep sc) s = execScSleep sc s := rfl
@[simp] theorem exec_scWake (sc : Nat) (s : State) : exec (.scWake sc) s = execScWake sc s := rfl
@[simp] theorem exec_baseFabricClockStop (fb : Nat) (s : State) :
    exec (.baseFabricClockStop fb) s = execBaseFabricClockStop fb s := rfl
@[simp] theorem exec_baseFabricWake (fb : Nat) (s : State) :
    exec (.baseFabricWake fb) s = execBaseFabricWake fb s := rfl
@[simp] theorem exec_reeveClockStop (fb : Nat) (s : State) :
    exec (.reeveClockStop fb) s = execReeveClockStop fb s := rfl
@[simp] theorem exec_reeveWake (fb : Nat) (s : State) : exec (.reeveWake fb) s = execReeveWake fb s := rfl
@[simp] theorem exec_fmaxWrite (fb : Nat) (v : Word) (s : State) :
    exec (.fmaxWrite fb v) s = execFmaxWrite fb v s := rfl
@[simp] theorem exec_referenceSourceSwitch (fb : Nat) (s : State) :
    exec (.referenceSourceSwitch fb) s = execReferenceSourceSwitch fb s := rfl
@[simp] theorem exec_clockMonitorWindow (fb : Nat) (kind : Nat) (idx : Nat) (edges : Nat) (nominal : Nat) (s : State) :
    exec (.clockMonitorWindow fb kind idx edges nominal) s = execClockMonitorWindow fb kind idx edges nominal s := rfl
@[simp] theorem exec_heartbeatSend (die : Die) (s : State) :
    exec (.heartbeatSend die) s = execHeartbeatSend die s := rfl
@[simp] theorem exec_heartbeatLost (die : Die) (s : State) :
    exec (.heartbeatLost die) s = execHeartbeatLost die s := rfl
@[simp] theorem exec_dieIsolateMark (die : Die) (s : State) :
    exec (.dieIsolateMark die) s = execDieIsolateMark die s := rfl
@[simp] theorem exec_dieLossContainment (die : Die) (s : State) :
    exec (.dieLossContainment die) s = execDieLossContainment die s := rfl
@[simp] theorem exec_scReset (sc : Nat) (s : State) : exec (.scReset sc) s = execScReset sc s := rfl
@[simp] theorem exec_scAutoReadmit (sc : Nat) (s : State) : exec (.scAutoReadmit sc) s = execScAutoReadmit sc s := rfl
@[simp] theorem exec_scReadmitComplete (sc : Nat) (pass : Bool) (cause : Nat) (bonds : Nat) (s : State) :
    exec (.scReadmitComplete sc pass cause bonds) s = execScReadmitComplete sc pass cause bonds s := rfl
@[simp] theorem exec_fbReadmit (k : Nat) (s : State) : exec (.fbReadmit k) s = execFbReadmit k s := rfl
@[simp] theorem exec_fbReadmitComplete (k : Nat) (pass : Bool) (s : State) :
    exec (.fbReadmitComplete k pass) s = execFbReadmitComplete k pass s := rfl
@[simp] theorem exec_gulgenFrameReceive (b : Bundle) (version : Nat) (fseq : Nat) (ack : Nat) (nak : Bool) (crcOk : Bool) (s : State) :
    exec (.gulgenFrameReceive b version fseq ack nak crcOk) s = execGulgenFrameReceive b version fseq ack nak crcOk s := rfl
@[simp] theorem exec_bundleRetrainDone (b : Bundle) (s : State) :
    exec (.bundleRetrainDone b) s = execBundleRetrainDone b s := rfl
@[simp] theorem exec_bundleRetrainTimeout (b : Bundle) (s : State) :
    exec (.bundleRetrainTimeout b) s = execBundleRetrainTimeout b s := rfl
@[simp] theorem exec_laneTestDone (b : Bundle) (good : BitVec 18) (ckGood : BitVec 2) (s : State) :
    exec (.laneTestDone b good ckGood) s = execLaneTestDone b good ckGood s := rfl
@[simp] theorem exec_bundleMaskReceived (b : Bundle) (peer : BitVec 18) (peerCk : BitVec 2) (s : State) :
    exec (.bundleMaskReceived b peer peerCk) s = execBundleMaskReceived b peer peerCk s := rfl
@[simp] theorem exec_bundleReportReceived (b : Bundle) (inuse : BitVec 18) (width : Nat) (s : State) :
    exec (.bundleReportReceived b inuse width) s = execBundleReportReceived b inuse width s := rfl
@[simp] theorem exec_edgeRemap (e : Nat) (s : State) : exec (.edgeRemap e) s = execEdgeRemap e s := rfl
@[simp] theorem exec_dieCapabilityRecord (die : Die) (record : List Byte) (s : State) :
    exec (.dieCapabilityRecord die record) s = execDieCapabilityRecord die record s := rfl
@[simp] theorem exec_arbitrationCycle (p : MPort) (s : State) :
    exec (.arbitrationCycle p) s = execArbitrationCycle p s := rfl
@[simp] theorem exec_meshFlitArrival (p : MPort) (f : Flit) (s : State) :
    exec (.meshFlitArrival p f) s = execMeshFlitArrival p f s := rfl
@[simp] theorem exec_creditReturn (p : MPort) (lane : Nat) (s : State) :
    exec (.creditReturn p lane) s = execCreditReturn p lane s := rfl
@[simp] theorem exec_cancelFlitReceive (p : MPort) (f : Flit) (s : State) :
    exec (.cancelFlitReceive p f) s = execCancelFlitReceive p f s := rfl
@[simp] theorem exec_retryResponse (p : MPort) (tag : Nat) (s : State) :
    exec (.retryResponse p tag) s = execRetryResponse p tag s := rfl
@[simp] theorem exec_freezeSet (p : MPort) (s : State) : exec (.freezeSet p) s = execFreezeSet p s := rfl
@[simp] theorem exec_freezeClear (p : MPort) (s : State) : exec (.freezeClear p) s = execFreezeClear p s := rfl
@[simp] theorem exec_portDrained (p : MPort) (s : State) : exec (.portDrained p) s = execPortDrained p s := rfl
@[simp] theorem exec_bucketRefill (s : State) : exec (.bucketRefill) s = execBucketRefill s := rfl
@[simp] theorem exec_packetInjection (fb : Nat) (port : Nat) (tag : Nat) (dpa : Nat) (bytes : Nat) (atomic : Bool) (s : State) :
    exec (.packetInjection fb port tag dpa bytes atomic) s = execPacketInjection fb port tag dpa bytes atomic s := rfl
@[simp] theorem exec_rglSet (h : Hdr) (e : RglEntry) (s : State) : exec (.rglSet h e) s = execRglSet h e s := rfl
@[simp] theorem exec_scaleFactorUpdate (r : Nat) (d : Nat) (s : State) :
    exec (.scaleFactorUpdate r d) s = execScaleFactorUpdate r d s := rfl
@[simp] theorem exec_granaryBankAccess (dpa : Nat) (len : Nat) (wr : Bool) (data : List Byte) (ecc : Ecc) (bad : List Nat) (s : State) :
    exec (.granaryBankAccess dpa len wr data ecc bad) s = execGranaryBankAccess dpa len wr data ecc bad s := rfl
@[simp] theorem exec_bankAtomic (dpa : Nat) (op : Nat) (b : Word) (c : Word) (s : State) :
    exec (.bankAtomic dpa op b c) s = execBankAtomic dpa op b c s := rfl
@[simp] theorem exec_granaryPatrolScrub (dpa : Nat) (ecc : Ecc) (bad : List Nat) (s : State) :
    exec (.granaryPatrolScrub dpa ecc bad) s = execGranaryPatrolScrub dpa ecc bad s := rfl
@[simp] theorem exec_granaryEnable (fb : Nat) (s : State) : exec (.granaryEnable fb) s = execGranaryEnable fb s := rfl
@[simp] theorem exec_granaryDisable (fb : Nat) (s : State) :
    exec (.granaryDisable fb) s = execGranaryDisable fb s := rfl
@[simp] theorem exec_flushSweepEnd (fb : Nat) (bad : List Nat) (s : State) :
    exec (.flushSweepEnd fb bad) s = execFlushSweepEnd fb bad s := rfl
@[simp] theorem exec_grnPartWrite (fb : Nat) (v : Word) (s : State) :
    exec (.grnPartWrite fb v) s = execGrnPartWrite fb v s := rfl
@[simp] theorem exec_repartitionBankSwitch (fb : Nat) (b : Nat) (bad : List Nat) (s : State) :
    exec (.repartitionBankSwitch fb b bad) s = execRepartitionBankSwitch fb b bad s := rfl
@[simp] theorem exec_ratUpdate (v : Word) (s : State) : exec (.ratUpdate v) s = execRatUpdate v s := rfl
@[simp] theorem exec_ratUpdateDone (bad : List Nat) (s : State) :
    exec (.ratUpdateDone bad) s = execRatUpdateDone bad s := rfl
@[simp] theorem exec_memoryRead (dpa : Nat) (ecc : Ecc) (laneErr : Bool) (s : State) :
    exec (.memoryRead dpa ecc laneErr) s = execMemoryRead dpa ecc laneErr s := rfl
@[simp] theorem exec_memoryWrite (dpa : Nat) (data : List Byte) (eccs : List Ecc) (s : State) :
    exec (.memoryWrite dpa data eccs) s = execMemoryWrite dpa data eccs s := rfl
@[simp] theorem exec_rowRepairDone (dpa : Nat) (fixed : List Nat) (bad : List Nat) (s : State) :
    exec (.rowRepairDone dpa fixed bad) s = execRowRepairDone dpa fixed bad s := rfl
@[simp] theorem exec_memoryPatrolScrub (dpa : Nat) (ecc : Ecc) (laneErr : Bool) (s : State) :
    exec (.memoryPatrolScrub dpa ecc laneErr) s = execMemoryPatrolScrub dpa ecc laneErr s := rfl
@[simp] theorem exec_stackTemperatureRead (stack : Nat) (temp : Nat) (s : State) :
    exec (.stackTemperatureRead stack temp) s = execStackTemperatureRead stack temp s := rfl
@[simp] theorem exec_refreshInterval (stack : Nat) (s : State) :
    exec (.refreshInterval stack) s = execRefreshInterval stack s := rfl
@[simp] theorem exec_channelRetrainDone (q : Nat) (c : Nat) (result : Nat) (lanes : Nat) (s : State) :
    exec (.channelRetrainDone q c result lanes) s = execChannelRetrainDone q c result lanes s := rfl
@[simp] theorem exec_selfRefreshEntry (stack : Nat) (s : State) :
    exec (.selfRefreshEntry stack) s = execSelfRefreshEntry stack s := rfl
@[simp] theorem exec_selfRefreshExit (stack : Nat) (s : State) :
    exec (.selfRefreshExit stack) s = execSelfRefreshExit stack s := rfl
@[simp] theorem exec_memoryZeroingDone (s : State) : exec (.memoryZeroingDone) s = execMemoryZeroingDone s := rfl
@[simp] theorem exec_redGroupCreate (h : Hdr) (g : GroupDesc) (s : State) :
    exec (.redGroupCreate h g) s = execRedGroupCreate h g s := rfl
@[simp] theorem exec_redGroupDestroy (h : Hdr) (group : Nat) (force : Bool) (s : State) :
    exec (.redGroupDestroy h group force) s = execRedGroupDestroy h group force s := rfl
@[simp] theorem exec_millPartialReceive (router : Nat) (inp : Nat) (m : MillChunk) (ecc : Ecc) (s : State) :
    exec (.millPartialReceive router inp m ecc) s = execMillPartialReceive router inp m ecc s := rfl
@[simp] theorem exec_millResultReceive (node : MillNode) (m : MillChunk) (s : State) :
    exec (.millResultReceive node m) s = execMillResultReceive node m s := rfl
@[simp] theorem exec_millDepositFlag (group : Nat) (s : State) :
    exec (.millDepositFlag group) s = execMillDepositFlag group s := rfl
@[simp] theorem exec_bellFlitReceive (router : Nat) (inp : Nat) (group : Nat) (seq : W32) (s : State) :
    exec (.bellFlitReceive router inp group seq) s = execBellFlitReceive router inp group seq s := rfl
@[simp] theorem exec_releaseReceive (node : MillNode) (group : Nat) (seq : W32) (s : State) :
    exec (.releaseReceive node group seq) s = execReleaseReceive node group seq s := rfl
@[simp] theorem exec_noticeReceive (group : Nat) (member : Nat) (s : State) :
    exec (.noticeReceive group member) s = execNoticeReceive group member s := rfl
@[simp] theorem exec_ctxCreate (h : Hdr) (tctx : Nat) (raw : Bool) (link : Nat) (reach : List Nat) (s : State) :
    exec (.ctxCreate h tctx raw link reach) s = execCtxCreate h tctx raw link reach s := rfl
@[simp] theorem exec_ctxDestroy (h : Hdr) (tctx : Nat) (s : State) :
    exec (.ctxDestroy h tctx) s = execCtxDestroy h tctx s := rfl
@[simp] theorem exec_segMap (h : Hdr) (tctx : Nat) (seg : Nat) (desc : SegDesc) (s : State) :
    exec (.segMap h tctx seg desc) s = execSegMap h tctx seg desc s := rfl
@[simp] theorem exec_segUnmap (h : Hdr) (tctx : Nat) (seg : Nat) (s : State) :
    exec (.segUnmap h tctx seg) s = execSegUnmap h tctx seg s := rfl
@[simp] theorem exec_xltInval (h : Hdr) (scope : Nat) (seg : Nat) (first : Nat) (count : Nat) (s : State) :
    exec (.xltInval h scope seg first count) s = execXltInval h scope seg first count s := rfl
@[simp] theorem exec_invalidationFlit (fb : Nat) (s : State) :
    exec (.invalidationFlit fb) s = execInvalidationFlit fb s := rfl
@[simp] theorem exec_portEpochDrained (fb : Nat) (port : Nat) (s : State) :
    exec (.portEpochDrained fb port) s = execPortEpochDrained fb port s := rfl
@[simp] theorem exec_zeroLengthReadComplete (link : Nat) (s : State) :
    exec (.zeroLengthReadComplete link) s = execZeroLengthReadComplete link s := rfl
@[simp] theorem exec_walkComplete (fb : Nat) (ctx : Nat) (seg : Nat) (page : Nat) (ecc : Ecc) (s : State) :
    exec (.walkComplete fb ctx seg page ecc) s = execWalkComplete fb ctx seg page ecc s := rfl
@[simp] theorem exec_faultRingWrite (s : State) : exec (.faultRingWrite) s = execFaultRingWrite s := rfl
@[simp] theorem exec_faultResume (h : Hdr) (scope : Nat) (fid : W32) (s : State) :
    exec (.faultResume h scope fid) s = execFaultResume h scope fid s := rfl
@[simp] theorem exec_faultAbort (h : Hdr) (scope : Nat) (fid : W32) (s : State) :
    exec (.faultAbort h scope fid) s = execFaultAbort h scope fid s := rfl
@[simp] theorem exec_faultRingEnable (v : Word) (s : State) :
    exec (.faultRingEnable v) s = execFaultRingEnable v s := rfl
@[simp] theorem exec_faultRingDisable (s : State) : exec (.faultRingDisable) s = execFaultRingDisable s := rfl
@[simp] theorem exec_faultRingHeadWrite (v : Word) (s : State) :
    exec (.faultRingHeadWrite v) s = execFaultRingHeadWrite v s := rfl
@[simp] theorem exec_perstAssert (port : Nat) (s : State) : exec (.perstAssert port) s = execPerstAssert port s := rfl
@[simp] theorem exec_perstDeassert (port : Nat) (s : State) :
    exec (.perstDeassert port) s = execPerstDeassert port s := rfl
@[simp] theorem exec_hotReset (link : Nat) (s : State) : exec (.hotReset link) s = execHotReset link s := rfl
@[simp] theorem exec_flr (link : Nat) (s : State) : exec (.flr link) s = execFlr link s := rfl
@[simp] theorem exec_linkRetrainStart (link : Nat) (s : State) :
    exec (.linkRetrainStart link) s = execLinkRetrainStart link s := rfl
@[simp] theorem exec_linkL0Return (link : Nat) (speed : Nat) (width : Nat) (s : State) :
    exec (.linkL0Return link speed width) s = execLinkL0Return link speed width s := rfl
@[simp] theorem exec_linkRetrainTimeout (link : Nat) (s : State) :
    exec (.linkRetrainTimeout link) s = execLinkRetrainTimeout link s := rfl
@[simp] theorem exec_outboundReadTimeout (link : Nat) (s : State) :
    exec (.outboundReadTimeout link) s = execOutboundReadTimeout link s := rfl
@[simp] theorem exec_outboundReadCompletion (link : Nat) (tag : Nat) (ok : Bool) (data : List Byte) (s : State) :
    exec (.outboundReadCompletion link tag ok data) s = execOutboundReadCompletion link tag ok data s := rfl
@[simp] theorem exec_hostLossHold (link : Nat) (s : State) :
    exec (.hostLossHold link) s = execHostLossHold link s := rfl
@[simp] theorem exec_hostLossSuspend (link : Nat) (s : State) :
    exec (.hostLossSuspend link) s = execHostLossSuspend link s := rfl
@[simp] theorem exec_hostLossFinalStep (link : Nat) (s : State) :
    exec (.hostLossFinalStep link) s = execHostLossFinalStep link s := rfl
@[simp] theorem exec_recoverResume (h : Hdr) (tctx : Nat) (link : Nat) (s : State) :
    exec (.recoverResume h tctx link) s = execRecoverResume h tctx link s := rfl
@[simp] theorem exec_recoverDiscard (h : Hdr) (tctx : Nat) (link : Nat) (s : State) :
    exec (.recoverDiscard h tctx link) s = execRecoverDiscard h tctx link s := rfl
@[simp] theorem exec_doorbell (link : Nat) (ring : Nat) (v : Word) (s : State) :
    exec (.doorbell link ring v) s = execDoorbell link ring v s := rfl
@[simp] theorem exec_windowDoorbell (link : Nat) (ring : Nat) (v : Word) (s : State) :
    exec (.windowDoorbell link ring v) s = execWindowDoorbell link ring v s := rfl
@[simp] theorem exec_commandWindowWrite (link : Nat) (ring : Nat) (off : Nat) (data : List Byte) (s : State) :
    exec (.commandWindowWrite link ring off data) s = execCommandWindowWrite link ring off data s := rfl
@[simp] theorem exec_bar2Read (link : Nat) (rid : BitVec 16) (off : Nat) (len : Nat) (s : State) :
    exec (.bar2Read link rid off len) s = execBar2Read link rid off len s := rfl
@[simp] theorem exec_bar2Write (link : Nat) (rid : BitVec 16) (ro : Bool) (ido : Bool) (off : Nat) (data : List Byte) (s : State) :
    exec (.bar2Write link rid ro ido off data) s = execBar2Write link rid ro ido off data s := rfl
@[simp] theorem exec_barReservedAccess (link : Nat) (off : Nat) (wr : Bool) (s : State) :
    exec (.barReservedAccess link off wr) s = execBarReservedAccess link off wr s := rfl
@[simp] theorem exec_hostWindowWrite (link : Nat) (idx : Nat) (limit : Bool) (fromPcie : Bool) (v : Word) (s : State) :
    exec (.hostWindowWrite link idx limit fromPcie v) s = execHostWindowWrite link idx limit fromPcie v s := rfl
@[simp] theorem exec_hostWindowEffective (link : Nat) (s : State) :
    exec (.hostWindowEffective link) s = execHostWindowEffective link s := rfl
@[simp] theorem exec_regionRegister (h : Hdr) (region : Nat) (r : Bool) (w : Bool) (rid : BitVec 16) (mask : BitVec 16) (base : Nat) (size : Nat) (s : State) :
    exec (.regionRegister h region r w rid mask base size) s = execRegionRegister h region r w rid mask base size s := rfl
@[simp] theorem exec_regionRelease (h : Hdr) (region : Nat) (s : State) :
    exec (.regionRelease h region) s = execRegionRelease h region s := rfl
@[simp] theorem exec_commandPacketArrival (ring : Nat) (data : List Byte) (s : State) :
    exec (.commandPacketArrival ring data) s = execCommandPacketArrival ring data s := rfl
@[simp] theorem exec_ringEnable (ring : Nat) (v : Word) (s : State) :
    exec (.ringEnable ring v) s = execRingEnable ring v s := rfl
@[simp] theorem exec_ringDisable (ring : Nat) (s : State) : exec (.ringDisable ring) s = execRingDisable ring s := rfl
@[simp] theorem exec_cqEnable (cq : Nat) (v : Word) (s : State) : exec (.cqEnable cq v) s = execCqEnable cq v s := rfl
@[simp] theorem exec_cqDisable (cq : Nat) (s : State) : exec (.cqDisable cq) s = execCqDisable cq s := rfl
@[simp] theorem exec_cqHeadWrite (cq : Nat) (v : W32) (s : State) :
    exec (.cqHeadWrite cq v) s = execCqHeadWrite cq v s := rfl
@[simp] theorem exec_completionRecordWrite (cq : Nat) (s : State) :
    exec (.completionRecordWrite cq) s = execCompletionRecordWrite cq s := rfl
@[simp] theorem exec_commandTimeout (ring : Nat) (seq : W32) (s : State) :
    exec (.commandTimeout ring seq) s = execCommandTimeout ring seq s := rfl
@[simp] theorem exec_nop (h : Hdr) (s : State) : exec (.nop h) s = execNop h s := rfl
@[simp] theorem exec_writeInline (h : Hdr) (dst : Nat) (data : List Byte) (s : State) :
    exec (.writeInline h dst data) s = execWriteInline h dst data s := rfl
@[simp] theorem exec_launch (h : Hdr) (threads : BitVec 16) (imageLen : Nat) (image : Nat) (entry : Nat) (arg : Word) (cores : List Nat) (s : State) :
    exec (.launch h threads imageLen image entry arg cores) s = execLaunch h threads imageLen image entry arg cores s := rfl
@[simp] theorem exec_launchCoreTake (n : Nat) (s : State) : exec (.launchCoreTake n) s = execLaunchCoreTake n s := rfl
@[simp] theorem exec_launchComplete (ring : Nat) (seq : W32) (s : State) :
    exec (.launchComplete ring seq) s = execLaunchComplete ring seq s := rfl
@[simp] theorem exec_kernelStop (h : Hdr) (ring : Nat) (target : W32) (s : State) :
    exec (.kernelStop h ring target) s = execKernelStop h ring target s := rfl
@[simp] theorem exec_fenceCmd (h : Hdr) (s : State) : exec (.fenceCmd h) s = execFenceCmd h s := rfl
@[simp] theorem exec_wait (h : Hdr) (cmp : Nat) (addr : Nat) (value : Word) (s : State) :
    exec (.wait h cmp addr value) s = execWait h cmp addr value s := rfl
@[simp] theorem exec_waitPollRead (ring : Nat) (seq : W32) (hostVal : Option Word) (s : State) :
    exec (.waitPollRead ring seq hostVal) s = execWaitPollRead ring seq hostVal s := rfl
@[simp] theorem exec_signal (h : Hdr) (op : Nat) (addr : Nat) (value : Word) (s : State) :
    exec (.signal h op addr value) s = execSignal h op addr value s := rfl
@[simp] theorem exec_bellCmd (h : Hdr) (group : Nat) (bseq : W32) (s : State) :
    exec (.bellCmd h group bseq) s = execBellCmd h group bseq s := rfl
@[simp] theorem exec_query (h : Hdr) (page : Nat) (dst : Nat) (s : State) :
    exec (.query h page dst) s = execQuery h page dst s := rfl
@[simp] theorem exec_copy (h : Hdr) (fl : FlagOpt) (src : Nat) (dst : Nat) (bytes : Nat) (s : State) :
    exec (.copy h fl src dst bytes) s = execCopy h fl src dst bytes s := rfl
@[simp] theorem exec_copyNd (h : Hdr) (fl : FlagOpt) (side : Nat) (count0 : Nat) (src : Nat) (dst : Nat) (dims : List Dim) (s : State) :
    exec (.copyNd h fl side count0 src dst dims) s = execCopyNd h fl side count0 src dst dims s := rfl
@[simp] theorem exec_fill (h : Hdr) (fl : FlagOpt) (plen : Nat) (dst : Nat) (bytes : Nat) (pattern : List Byte) (s : State) :
    exec (.fill h fl plen dst bytes pattern) s = execFill h fl plen dst bytes pattern s := rfl
@[simp] theorem exec_carterSlotTake (fb : Nat) (pool : Nat) (s : State) :
    exec (.carterSlotTake fb pool) s = execCarterSlotTake fb pool s := rfl
@[simp] theorem exec_carterChunkReadData (fb : Nat) (car : Nat) (slot : Nat) (chunk : Nat) (data : List Byte) (s : State) :
    exec (.carterChunkReadData fb car slot chunk data) s = execCarterChunkReadData fb car slot chunk data s := rfl
@[simp] theorem exec_carterChunkWriteAck (fb : Nat) (car : Nat) (slot : Nat) (chunk : Nat) (s : State) :
    exec (.carterChunkWriteAck fb car slot chunk) s = execCarterChunkWriteAck fb car slot chunk s := rfl
@[simp] theorem exec_carterComplete (fb : Nat) (car : Nat) (slot : Nat) (s : State) :
    exec (.carterComplete fb car slot) s = execCarterComplete fb car slot s := rfl
@[simp] theorem exec_attest (h : Hdr) (part : Nat) (dst : Nat) (dstLen : Nat) (nonce : List Byte) (s : State) :
    exec (.attest h part dst dstLen nonce) s = execAttest h part dst dstLen nonce s := rfl
@[simp] theorem exec_fwStageOpen (h : Hdr) (slot : Nat) (s : State) :
    exec (.fwStageOpen h slot) s = execFwStageOpen h slot s := rfl
@[simp] theorem exec_fwStageWrite (h : Hdr) (off : Nat) (len : Nat) (src : Nat) (s : State) :
    exec (.fwStageWrite h off len src) s = execFwStageWrite h off len src s := rfl
@[simp] theorem exec_fwStageCommit (h : Hdr) (s : State) : exec (.fwStageCommit h) s = execFwStageCommit h s := rfl
@[simp] theorem exec_fwStageCancel (h : Hdr) (s : State) : exec (.fwStageCancel h) s = execFwStageCancel h s := rfl
@[simp] theorem exec_fwStageActivate (h : Hdr) (s : State) :
    exec (.fwStageActivate h) s = execFwStageActivate h s := rfl
@[simp] theorem exec_fwStageRatify (h : Hdr) (s : State) : exec (.fwStageRatify h) s = execFwStageRatify h s := rfl
@[simp] theorem exec_ownerEnroll (h : Hdr) (len : Nat) (src : Nat) (s : State) :
    exec (.ownerEnroll h len src) s = execOwnerEnroll h len src s := rfl
@[simp] theorem exec_pldmRequestUpdate (s : State) : exec (.pldmRequestUpdate) s = execPldmRequestUpdate s := rfl
@[simp] theorem exec_pldmImageTransfer (off : Nat) (data : List Byte) (s : State) :
    exec (.pldmImageTransfer off data) s = execPldmImageTransfer off data s := rfl
@[simp] theorem exec_pldmVerifyComplete (s : State) : exec (.pldmVerifyComplete) s = execPldmVerifyComplete s := rfl
@[simp] theorem exec_pldmActivateFirmware (s : State) :
    exec (.pldmActivateFirmware) s = execPldmActivateFirmware s := rfl
@[simp] theorem exec_pldmCancelUpdate (s : State) : exec (.pldmCancelUpdate) s = execPldmCancelUpdate s := rfl
@[simp] theorem exec_pldmGetFirmwareParameters (s : State) :
    exec (.pldmGetFirmwareParameters) s = execPldmGetFirmwareParameters s := rfl
@[simp] theorem exec_pollForPlatformEventMessage (s : State) :
    exec (.pollForPlatformEventMessage) s = execPollForPlatformEventMessage s := rfl
@[simp] theorem exec_jtagAttach (s : State) : exec (.jtagAttach) s = execJtagAttach s := rfl
@[simp] theorem exec_watchdogExpiry (fb : Nat) (s : State) :
    exec (.watchdogExpiry fb) s = execWatchdogExpiry fb s := rfl
@[simp] theorem exec_reeveRestartDone (fb : Nat) (s : State) :
    exec (.reeveRestartDone fb) s = execReeveRestartDone fb s := rfl
@[simp] theorem exec_warmStartRequest (key : BitVec 16) (s : State) :
    exec (.warmStartRequest key) s = execWarmStartRequest key s := rfl
@[simp] theorem exec_coldStartRequest (key : BitVec 16) (s : State) :
    exec (.coldStartRequest key) s = execColdStartRequest key s := rfl
@[simp] theorem exec_startStepEnd (us : Nat) (r : StepReport) (s : State) :
    exec (.startStepEnd us r) s = execStartStepEnd us r s := rfl
@[simp] theorem exec_startStepTimeout (us : Nat) (s : State) :
    exec (.startStepTimeout us) s = execStartStepTimeout us s := rfl
@[simp] theorem exec_scRelease (sc : Nat) (s : State) : exec (.scRelease sc) s = execScRelease sc s := rfl
@[simp] theorem exec_bootDescriptorFetch (n : Nat) (ecc : Ecc) (imgEcc : Ecc) (s : State) :
    exec (.bootDescriptorFetch n ecc imgEcc) s = execBootDescriptorFetch n ecc imgEcc s := rfl
@[simp] theorem exec_coreReadyTimeout (n : Nat) (s : State) :
    exec (.coreReadyTimeout n) s = execCoreReadyTimeout n s := rfl
@[simp] theorem exec_monitorFaultReset (n : Nat) (s : State) :
    exec (.monitorFaultReset n) s = execMonitorFaultReset n s := rfl
@[simp] theorem exec_issueCycle (n : Nat) (s : State) : exec (.issueCycle n) s = execIssueCycle n s := rfl
@[simp] theorem exec_asyncOperationComplete (n : Nat) (id : Nat) (data : List Byte) (s : State) :
    exec (.asyncOperationComplete n id data) s = execAsyncOperationComplete n id data s := rfl
@[simp] theorem exec_tensorQueueDispatch (n : Nat) (readout : Bool) (s : State) :
    exec (.tensorQueueDispatch n readout) s = execTensorQueueDispatch n readout s := rfl
@[simp] theorem exec_nopInstr (n : Nat) (t : Nat) (pr : Nat) (s : State) :
    exec (.nopInstr n t pr) s = execNopInstr n t pr s := rfl
@[simp] theorem exec_add (n : Nat) (t : Nat) (pr : Nat) (d : Nat) (a : Nat) (b : Nat) (s : State) :
    exec (.add n t pr d a b) s = execAdd n t pr d a b s := rfl
@[simp] theorem exec_sub (n : Nat) (t : Nat) (pr : Nat) (d : Nat) (a : Nat) (b : Nat) (s : State) :
    exec (.sub n t pr d a b) s = execSub n t pr d a b s := rfl
@[simp] theorem exec_addi (n : Nat) (t : Nat) (pr : Nat) (d : Nat) (a : Nat) (imm : Int) (s : State) :
    exec (.addi n t pr d a imm) s = execAddi n t pr d a imm s := rfl
@[simp] theorem exec_mul (n : Nat) (t : Nat) (pr : Nat) (d : Nat) (a : Nat) (b : Nat) (s : State) :
    exec (.mul n t pr d a b) s = execMul n t pr d a b s := rfl
@[simp] theorem exec_mulhu (n : Nat) (t : Nat) (pr : Nat) (d : Nat) (a : Nat) (b : Nat) (s : State) :
    exec (.mulhu n t pr d a b) s = execMulhu n t pr d a b s := rfl
@[simp] theorem exec_mulhs (n : Nat) (t : Nat) (pr : Nat) (d : Nat) (a : Nat) (b : Nat) (s : State) :
    exec (.mulhs n t pr d a b) s = execMulhs n t pr d a b s := rfl
@[simp] theorem exec_and (n : Nat) (t : Nat) (pr : Nat) (d : Nat) (a : Nat) (b : Nat) (s : State) :
    exec (.and n t pr d a b) s = execAnd n t pr d a b s := rfl
@[simp] theorem exec_or (n : Nat) (t : Nat) (pr : Nat) (d : Nat) (a : Nat) (b : Nat) (s : State) :
    exec (.or n t pr d a b) s = execOr n t pr d a b s := rfl
@[simp] theorem exec_xor (n : Nat) (t : Nat) (pr : Nat) (d : Nat) (a : Nat) (b : Nat) (s : State) :
    exec (.xor n t pr d a b) s = execXor n t pr d a b s := rfl
@[simp] theorem exec_shl (n : Nat) (t : Nat) (pr : Nat) (d : Nat) (a : Nat) (b : Nat) (s : State) :
    exec (.shl n t pr d a b) s = execShl n t pr d a b s := rfl
@[simp] theorem exec_shr (n : Nat) (t : Nat) (pr : Nat) (d : Nat) (a : Nat) (b : Nat) (s : State) :
    exec (.shr n t pr d a b) s = execShr n t pr d a b s := rfl
@[simp] theorem exec_sar (n : Nat) (t : Nat) (pr : Nat) (d : Nat) (a : Nat) (b : Nat) (s : State) :
    exec (.sar n t pr d a b) s = execSar n t pr d a b s := rfl
@[simp] theorem exec_li (n : Nat) (t : Nat) (pr : Nat) (d : Nat) (imm : Int) (s : State) :
    exec (.li n t pr d imm) s = execLi n t pr d imm s := rfl
@[simp] theorem exec_lih (n : Nat) (t : Nat) (pr : Nat) (d : Nat) (imm : Nat) (s : State) :
    exec (.lih n t pr d imm) s = execLih n t pr d imm s := rfl
@[simp] theorem exec_cmpeq (n : Nat) (t : Nat) (pr : Nat) (d : Nat) (a : Nat) (b : Nat) (s : State) :
    exec (.cmpeq n t pr d a b) s = execCmpeq n t pr d a b s := rfl
@[simp] theorem exec_cmplt (n : Nat) (t : Nat) (pr : Nat) (d : Nat) (a : Nat) (b : Nat) (s : State) :
    exec (.cmplt n t pr d a b) s = execCmplt n t pr d a b s := rfl
@[simp] theorem exec_cmpltu (n : Nat) (t : Nat) (pr : Nat) (d : Nat) (a : Nat) (b : Nat) (s : State) :
    exec (.cmpltu n t pr d a b) s = execCmpltu n t pr d a b s := rfl
@[simp] theorem exec_pand (n : Nat) (t : Nat) (pr : Nat) (d : Nat) (a : Nat) (b : Nat) (s : State) :
    exec (.pand n t pr d a b) s = execPand n t pr d a b s := rfl
@[simp] theorem exec_por (n : Nat) (t : Nat) (pr : Nat) (d : Nat) (a : Nat) (b : Nat) (s : State) :
    exec (.por n t pr d a b) s = execPor n t pr d a b s := rfl
@[simp] theorem exec_pnot (n : Nat) (t : Nat) (pr : Nat) (d : Nat) (a : Nat) (s : State) :
    exec (.pnot n t pr d a) s = execPnot n t pr d a s := rfl
@[simp] theorem exec_br (n : Nat) (t : Nat) (pr : Nat) (imm : Int) (s : State) :
    exec (.br n t pr imm) s = execBr n t pr imm s := rfl
@[simp] theorem exec_brl (n : Nat) (t : Nat) (pr : Nat) (d : Nat) (imm : Int) (s : State) :
    exec (.brl n t pr d imm) s = execBrl n t pr d imm s := rfl
@[simp] theorem exec_jr (n : Nat) (t : Nat) (pr : Nat) (a : Nat) (s : State) :
    exec (.jr n t pr a) s = execJr n t pr a s := rfl
@[simp] theorem exec_rdflg (n : Nat) (t : Nat) (pr : Nat) (d : Nat) (s : State) :
    exec (.rdflg n t pr d) s = execRdflg n t pr d s := rfl
@[simp] theorem exec_clrflg (n : Nat) (t : Nat) (pr : Nat) (x : Nat) (s : State) :
    exec (.clrflg n t pr x) s = execClrflg n t pr x s := rfl
@[simp] theorem exec_rdid (n : Nat) (t : Nat) (pr : Nat) (d : Nat) (s : State) :
    exec (.rdid n t pr d) s = execRdid n t pr d s := rfl
@[simp] theorem exec_rdmer (n : Nat) (t : Nat) (pr : Nat) (d : Nat) (s : State) :
    exec (.rdmer n t pr d) s = execRdmer n t pr d s := rfl
@[simp] theorem exec_vaddf (n : Nat) (t : Nat) (pr : Nat) (d : Nat) (a : Nat) (b : Nat) (s : State) :
    exec (.vaddf n t pr d a b) s = execVaddf n t pr d a b s := rfl
@[simp] theorem exec_vsubf (n : Nat) (t : Nat) (pr : Nat) (d : Nat) (a : Nat) (b : Nat) (s : State) :
    exec (.vsubf n t pr d a b) s = execVsubf n t pr d a b s := rfl
@[simp] theorem exec_vmulf (n : Nat) (t : Nat) (pr : Nat) (d : Nat) (a : Nat) (b : Nat) (s : State) :
    exec (.vmulf n t pr d a b) s = execVmulf n t pr d a b s := rfl
@[simp] theorem exec_vfma (n : Nat) (t : Nat) (pr : Nat) (d : Nat) (a : Nat) (b : Nat) (c : Nat) (s : State) :
    exec (.vfma n t pr d a b c) s = execVfma n t pr d a b c s := rfl
@[simp] theorem exec_vmaxf (n : Nat) (t : Nat) (pr : Nat) (d : Nat) (a : Nat) (b : Nat) (s : State) :
    exec (.vmaxf n t pr d a b) s = execVmaxf n t pr d a b s := rfl
@[simp] theorem exec_vminf (n : Nat) (t : Nat) (pr : Nat) (d : Nat) (a : Nat) (b : Nat) (s : State) :
    exec (.vminf n t pr d a b) s = execVminf n t pr d a b s := rfl
@[simp] theorem exec_vaddi (n : Nat) (t : Nat) (pr : Nat) (d : Nat) (a : Nat) (b : Nat) (s : State) :
    exec (.vaddi n t pr d a b) s = execVaddi n t pr d a b s := rfl
@[simp] theorem exec_vsubi (n : Nat) (t : Nat) (pr : Nat) (d : Nat) (a : Nat) (b : Nat) (s : State) :
    exec (.vsubi n t pr d a b) s = execVsubi n t pr d a b s := rfl
@[simp] theorem exec_vmuli (n : Nat) (t : Nat) (pr : Nat) (d : Nat) (a : Nat) (b : Nat) (s : State) :
    exec (.vmuli n t pr d a b) s = execVmuli n t pr d a b s := rfl
@[simp] theorem exec_vand (n : Nat) (t : Nat) (pr : Nat) (d : Nat) (a : Nat) (b : Nat) (s : State) :
    exec (.vand n t pr d a b) s = execVand n t pr d a b s := rfl
@[simp] theorem exec_vor (n : Nat) (t : Nat) (pr : Nat) (d : Nat) (a : Nat) (b : Nat) (s : State) :
    exec (.vor n t pr d a b) s = execVor n t pr d a b s := rfl
@[simp] theorem exec_vxor (n : Nat) (t : Nat) (pr : Nat) (d : Nat) (a : Nat) (b : Nat) (s : State) :
    exec (.vxor n t pr d a b) s = execVxor n t pr d a b s := rfl
@[simp] theorem exec_vshl (n : Nat) (t : Nat) (pr : Nat) (d : Nat) (a : Nat) (b : Nat) (s : State) :
    exec (.vshl n t pr d a b) s = execVshl n t pr d a b s := rfl
@[simp] theorem exec_vshr (n : Nat) (t : Nat) (pr : Nat) (d : Nat) (a : Nat) (b : Nat) (s : State) :
    exec (.vshr n t pr d a b) s = execVshr n t pr d a b s := rfl
@[simp] theorem exec_vsar (n : Nat) (t : Nat) (pr : Nat) (d : Nat) (a : Nat) (b : Nat) (s : State) :
    exec (.vsar n t pr d a b) s = execVsar n t pr d a b s := rfl
@[simp] theorem exec_vcmp (n : Nat) (t : Nat) (pr : Nat) (d : Nat) (a : Nat) (b : Nat) (cmp : Nat) (fp : Bool) (s : State) :
    exec (.vcmp n t pr d a b cmp fp) s = execVcmp n t pr d a b cmp fp s := rfl
@[simp] theorem exec_vsel (n : Nat) (t : Nat) (pr : Nat) (d : Nat) (a : Nat) (b : Nat) (c : Nat) (s : State) :
    exec (.vsel n t pr d a b c) s = execVsel n t pr d a b c s := rfl
@[simp] theorem exec_vbcast (n : Nat) (t : Nat) (pr : Nat) (d : Nat) (a : Nat) (s : State) :
    exec (.vbcast n t pr d a) s = execVbcast n t pr d a s := rfl
@[simp] theorem exec_vext (n : Nat) (t : Nat) (pr : Nat) (d : Nat) (a : Nat) (lane : Nat) (s : State) :
    exec (.vext n t pr d a lane) s = execVext n t pr d a lane s := rfl
@[simp] theorem exec_vperm (n : Nat) (t : Nat) (pr : Nat) (d : Nat) (a : Nat) (b : Nat) (s : State) :
    exec (.vperm n t pr d a b) s = execVperm n t pr d a b s := rfl
@[simp] theorem exec_vsumf (n : Nat) (t : Nat) (pr : Nat) (d : Nat) (a : Nat) (s : State) :
    exec (.vsumf n t pr d a) s = execVsumf n t pr d a s := rfl
@[simp] theorem exec_vcvt (n : Nat) (t : Nat) (pr : Nat) (d : Nat) (a : Nat) (o : CvtOpt) (s : State) :
    exec (.vcvt n t pr d a o) s = execVcvt n t pr d a o s := rfl
@[simp] theorem exec_vqmx (n : Nat) (t : Nat) (pr : Nat) (d : Nat) (a : Nat) (o : CvtOpt) (s : State) :
    exec (.vqmx n t pr d a o) s = execVqmx n t pr d a o s := rfl
@[simp] theorem exec_vq4 (n : Nat) (t : Nat) (pr : Nat) (d : Nat) (a : Nat) (o : CvtOpt) (s : State) :
    exec (.vq4 n t pr d a o) s = execVq4 n t pr d a o s := rfl
@[simp] theorem exec_tmma (n : Nat) (t : Nat) (pr : Nat) (tile : Nat) (fa : Nat) (fb : Nat) (a : Nat) (b : Nat) (sc : Nat) (c : Nat) (s : State) :
    exec (.tmma n t pr tile fa fb a b sc c) s = execTmma n t pr tile fa fb a b sc c s := rfl
@[simp] theorem exec_tzero (n : Nat) (t : Nat) (pr : Nat) (tile : Nat) (exact : Bool) (anchor : Int) (s : State) :
    exec (.tzero n t pr tile exact anchor) s = execTzero n t pr tile exact anchor s := rfl
@[simp] theorem exec_trd (n : Nat) (t : Nat) (pr : Nat) (tile : Nat) (o : TrdOpt) (d : Nat) (x : Nat) (c : Nat) (s : State) :
    exec (.trd n t pr tile o d x c) s = execTrd n t pr tile o d x c s := rfl
@[simp] theorem exec_tlda (n : Nat) (t : Nat) (pr : Nat) (tile : Nat) (fmt : Nat) (d : Nat) (c : Nat) (s : State) :
    exec (.tlda n t pr tile fmt d c) s = execTlda n t pr tile fmt d c s := rfl
@[simp] theorem exec_trel (n : Nat) (t : Nat) (pr : Nat) (tile : Nat) (s : State) :
    exec (.trel n t pr tile) s = execTrel n t pr tile s := rfl
@[simp] theorem exec_tsave (n : Nat) (t : Nat) (pr : Nat) (tile : Nat) (a : Nat) (c : Nat) (s : State) :
    exec (.tsave n t pr tile a c) s = execTsave n t pr tile a c s := rfl
@[simp] theorem exec_tload (n : Nat) (t : Nat) (pr : Nat) (tile : Nat) (a : Nat) (c : Nat) (s : State) :
    exec (.tload n t pr tile a c) s = execTload n t pr tile a c s := rfl
@[simp] theorem exec_lds (n : Nat) (t : Nat) (pr : Nat) (d : Nat) (a : Nat) (size : Nat) (s : State) :
    exec (.lds n t pr d a size) s = execLds n t pr d a size s := rfl
@[simp] theorem exec_sts (n : Nat) (t : Nat) (pr : Nat) (a : Nat) (b : Nat) (size : Nat) (s : State) :
    exec (.sts n t pr a b size) s = execSts n t pr a b size s := rfl
@[simp] theorem exec_ldv (n : Nat) (t : Nat) (pr : Nat) (d : Nat) (a : Nat) (s : State) :
    exec (.ldv n t pr d a) s = execLdv n t pr d a s := rfl
@[simp] theorem exec_stv (n : Nat) (t : Nat) (pr : Nat) (a : Nat) (b : Nat) (s : State) :
    exec (.stv n t pr a b) s = execStv n t pr a b s := rfl
@[simp] theorem exec_ldg (n : Nat) (t : Nat) (pr : Nat) (d : Nat) (a : Nat) (size : Nat) (s : State) :
    exec (.ldg n t pr d a size) s = execLdg n t pr d a size s := rfl
@[simp] theorem exec_stg (n : Nat) (t : Nat) (pr : Nat) (a : Nat) (b : Nat) (size : Nat) (vis : Nat) (s : State) :
    exec (.stg n t pr a b size vis) s = execStg n t pr a b size vis s := rfl
@[simp] theorem exec_cpin (n : Nat) (t : Nat) (pr : Nat) (a : Nat) (b : Nat) (c : Nat) (k : Nat) (s : State) :
    exec (.cpin n t pr a b c k) s = execCpin n t pr a b c k s := rfl
@[simp] theorem exec_cpout (n : Nat) (t : Nat) (pr : Nat) (a : Nat) (b : Nat) (c : Nat) (k : Nat) (vis : Nat) (s : State) :
    exec (.cpout n t pr a b c k vis) s = execCpout n t pr a b c k vis s := rfl
@[simp] theorem exec_cpin2 (n : Nat) (t : Nat) (pr : Nat) (d : Nat) (a : Nat) (b : Nat) (c : Nat) (k : Nat) (s : State) :
    exec (.cpin2 n t pr d a b c k) s = execCpin2 n t pr d a b c k s := rfl
@[simp] theorem exec_cpout2 (n : Nat) (t : Nat) (pr : Nat) (d : Nat) (a : Nat) (b : Nat) (c : Nat) (k : Nat) (vis : Nat) (s : State) :
    exec (.cpout2 n t pr d a b c k vis) s = execCpout2 n t pr d a b c k vis s := rfl
@[simp] theorem exec_ldqb (n : Nat) (t : Nat) (pr : Nat) (d : Nat) (a : Nat) (b : Nat) (c : Nat) (k : Nat) (s : State) :
    exec (.ldqb n t pr d a b c k) s = execLdqb n t pr d a b c k s := rfl
@[simp] theorem exec_atom (n : Nat) (t : Nat) (pr : Nat) (d : Nat) (a : Nat) (b : Nat) (c : Nat) (op : Nat) (vis : Nat) (s : State) :
    exec (.atom n t pr d a b c op vis) s = execAtom n t pr d a b c op vis s := rfl
@[simp] theorem exec_pref (n : Nat) (t : Nat) (pr : Nat) (a : Nat) (s : State) :
    exec (.pref n t pr a) s = execPref n t pr a s := rfl
@[simp] theorem exec_twait (n : Nat) (t : Nat) (pr : Nat) (c : Nat) (imm : Int) (s : State) :
    exec (.twait n t pr c imm) s = execTwait n t pr c imm s := rfl
@[simp] theorem exec_twaitr (n : Nat) (t : Nat) (pr : Nat) (c : Nat) (a : Nat) (s : State) :
    exec (.twaitr n t pr c a) s = execTwaitr n t pr c a s := rfl
@[simp] theorem exec_tset (n : Nat) (t : Nat) (pr : Nat) (c : Nat) (a : Nat) (s : State) :
    exec (.tset n t pr c a) s = execTset n t pr c a s := rfl
@[simp] theorem exec_tget (n : Nat) (t : Nat) (pr : Nat) (d : Nat) (c : Nat) (s : State) :
    exec (.tget n t pr d c) s = execTget n t pr d c s := rfl
@[simp] theorem exec_bar (n : Nat) (t : Nat) (pr : Nat) (mask : BitVec 16) (s : State) :
    exec (.bar n t pr mask) s = execBar n t pr mask s := rfl
@[simp] theorem exec_bell (n : Nat) (t : Nat) (pr : Nat) (a : Nat) (b : Nat) (k : Nat) (s : State) :
    exec (.bell n t pr a b k) s = execBell n t pr a b k s := rfl
@[simp] theorem exec_fence (n : Nat) (t : Nat) (pr : Nat) (vis : Nat) (s : State) :
    exec (.fence n t pr vis) s = execFence n t pr vis s := rfl
@[simp] theorem exec_waitg (n : Nat) (t : Nat) (pr : Nat) (a : Nat) (b : Nat) (cmp : Nat) (s : State) :
    exec (.waitg n t pr a b cmp) s = execWaitg n t pr a b cmp s := rfl
@[simp] theorem exec_waitgPollRead (n : Nat) (t : Nat) (hostVal : Option Word) (s : State) :
    exec (.waitgPollRead n t hostVal) s = execWaitgPollRead n t hostVal s := rfl
@[simp] theorem exec_yield (n : Nat) (t : Nat) (pr : Nat) (s : State) :
    exec (.yield n t pr) s = execYield n t pr s := rfl
@[simp] theorem exec_exit (n : Nat) (t : Nat) (pr : Nat) (s : State) :
    exec (.exit n t pr) s = execExit n t pr s := rfl
@[simp] theorem exec_ecall (n : Nat) (t : Nat) (pr : Nat) (code : Nat) (s : State) :
    exec (.ecall n t pr code) s = execEcall n t pr code s := rfl
@[simp] theorem exec_rput (n : Nat) (t : Nat) (pr : Nat) (a : Nat) (b : Nat) (c : Nat) (k : Nat) (vis : Nat) (s : State) :
    exec (.rput n t pr a b c k vis) s = execRput n t pr a b c k vis s := rfl
@[simp] theorem exec_rget (n : Nat) (t : Nat) (pr : Nat) (a : Nat) (b : Nat) (c : Nat) (k : Nat) (vis : Nat) (s : State) :
    exec (.rget n t pr a b c k vis) s = execRget n t pr a b c k vis s := rfl
@[simp] theorem exec_ratom (n : Nat) (t : Nat) (pr : Nat) (a : Nat) (b : Nat) (c : Nat) (op : Nat) (k : Nat) (vis : Nat) (s : State) :
    exec (.ratom n t pr a b c op k vis) s = execRatom n t pr a b c op k vis s := rfl
@[simp] theorem exec_mred (n : Nat) (t : Nat) (pr : Nat) (a : Nat) (b : Nat) (c : Nat) (k : Nat) (s : State) :
    exec (.mred n t pr a b c k) s = execMred n t pr a b c k s := rfl
@[simp] theorem exec_xsend (n : Nat) (t : Nat) (pr : Nat) (a : Nat) (b : Nat) (c : Nat) (k : Nat) (s : State) :
    exec (.xsend n t pr a b c k) s = execXsend n t pr a b c k s := rfl
@[simp] theorem exec_xrecv (n : Nat) (t : Nat) (pr : Nat) (a : Nat) (b : Nat) (c : Nat) (s : State) :
    exec (.xrecv n t pr a b c) s = execXrecv n t pr a b c s := rfl
@[simp] theorem exec_thctlStart (n : Nat) (t : Nat) (pr : Nat) (a : Nat) (b : Nat) (c : Nat) (s : State) :
    exec (.thctlStart n t pr a b c) s = execThctlStart n t pr a b c s := rfl
@[simp] theorem exec_thctlHold (n : Nat) (t : Nat) (pr : Nat) (a : Nat) (s : State) :
    exec (.thctlHold n t pr a) s = execThctlHold n t pr a s := rfl
@[simp] theorem exec_thctlResume (n : Nat) (t : Nat) (pr : Nat) (a : Nat) (s : State) :
    exec (.thctlResume n t pr a) s = execThctlResume n t pr a s := rfl
@[simp] theorem exec_thctlStop (n : Nat) (t : Nat) (pr : Nat) (a : Nat) (s : State) :
    exec (.thctlStop n t pr a) s = execThctlStop n t pr a s := rfl
@[simp] theorem exec_thrd (n : Nat) (t : Nat) (pr : Nat) (d : Nat) (a : Nat) (b : Nat) (reg : Nat) (s : State) :
    exec (.thrd n t pr d a b reg) s = execThrd n t pr d a b reg s := rfl
@[simp] theorem exec_thwr (n : Nat) (t : Nat) (pr : Nat) (a : Nat) (b : Nat) (reg : Nat) (s : State) :
    exec (.thwr n t pr a b reg) s = execThwr n t pr a b reg s := rfl
@[simp] theorem exec_csrr (n : Nat) (t : Nat) (pr : Nat) (d : Nat) (csr : Nat) (s : State) :
    exec (.csrr n t pr d csr) s = execCsrr n t pr d csr s := rfl
@[simp] theorem exec_csrw (n : Nat) (t : Nat) (pr : Nat) (a : Nat) (csr : Nat) (s : State) :
    exec (.csrw n t pr a csr) s = execCsrw n t pr a csr s := rfl
@[simp] theorem exec_ifetch (n : Nat) (t : Nat) (pr : Nat) (a : Nat) (b : Nat) (c : Nat) (k : Nat) (s : State) :
    exec (.ifetch n t pr a b c k) s = execIfetch n t pr a b c k s := rfl
@[simp] theorem exec_waitev (n : Nat) (t : Nat) (pr : Nat) (d : Nat) (s : State) :
    exec (.waitev n t pr d) s = execWaitev n t pr d s := rfl
@[simp] theorem exec_fabricFrameReceive (l : Nat) (fseq : Nat) (ack : Nat) (nak : Bool) (fecOk : Bool) (crcOk : Bool) (s : State) :
    exec (.fabricFrameReceive l fseq ack nak fecOk crcOk) s = execFabricFrameReceive l fseq ack nak fecOk crcOk s := rfl
@[simp] theorem exec_linkControlPacket (l : Nat) (cls : Nat) (credits : Nat) (s : State) :
    exec (.linkControlPacket l cls credits) s = execLinkControlPacket l cls credits s := rfl
@[simp] theorem exec_linkEnable (l : Nat) (s : State) : exec (.linkEnable l) s = execLinkEnable l s := rfl
@[simp] theorem exec_linkDisable (l : Nat) (s : State) : exec (.linkDisable l) s = execLinkDisable l s := rfl
@[simp] theorem exec_maxWidthWrite (l : Nat) (w : Nat) (s : State) :
    exec (.maxWidthWrite l w) s = execMaxWidthWrite l w s := rfl
@[simp] theorem exec_detectPulse (l : Nat) (s : State) : exec (.detectPulse l) s = execDetectPulse l s := rfl
@[simp] theorem exec_partnerPulsesSeen (l : Nat) (s : State) :
    exec (.partnerPulsesSeen l) s = execPartnerPulsesSeen l s := rfl
@[simp] theorem exec_trainingExchange (l : Nat) (x : TrainEx) (s : State) :
    exec (.trainingExchange l x) s = execTrainingExchange l x s := rfl
@[simp] theorem exec_lightLoss (l : Nat) (s : State) : exec (.lightLoss l) s = execLightLoss l s := rfl
@[simp] theorem exec_retrainTimeout (l : Nat) (s : State) : exec (.retrainTimeout l) s = execRetrainTimeout l s := rfl
@[simp] theorem exec_downBackoffEnd (l : Nat) (s : State) : exec (.downBackoffEnd l) s = execDownBackoffEnd l s := rfl
@[simp] theorem exec_laserInputLoss (q : Nat) (input : Nat) (s : State) :
    exec (.laserInputLoss q input) s = execLaserInputLoss q input s := rfl
@[simp] theorem exec_ucieModuleDown (q : Nat) (m : Nat) (s : State) :
    exec (.ucieModuleDown q m) s = execUcieModuleDown q m s := rfl
@[simp] theorem exec_lanternCapabilityRecord (q : Nat) (record : List Byte) (s : State) :
    exec (.lanternCapabilityRecord q record) s = execLanternCapabilityRecord q record s := rfl
@[simp] theorem exec_fabricRequestArrival (l : Nat) (p : FPkt) (s : State) :
    exec (.fabricRequestArrival l p) s = execFabricRequestArrival l p s := rfl
@[simp] theorem exec_fabricResponseArrival (l : Nat) (p : FPkt) (s : State) :
    exec (.fabricResponseArrival l p) s = execFabricResponseArrival l p s := rfl
@[simp] theorem exec_fabricErrorPacket (l : Nat) (p : FPkt) (s : State) :
    exec (.fabricErrorPacket l p) s = execFabricErrorPacket l p s := rfl
@[simp] theorem exec_fabricForward (l : Nat) (p : FPkt) (s : State) :
    exec (.fabricForward l p) s = execFabricForward l p s := rfl
@[simp] theorem exec_routeWaitTimeout (id : Nat) (s : State) :
    exec (.routeWaitTimeout id) s = execRouteWaitTimeout id s := rfl
@[simp] theorem exec_e2eTimeout (port : Nat) (tag : Nat) (s : State) :
    exec (.e2eTimeout port tag) s = execE2eTimeout port tag s := rfl
@[simp] theorem exec_collectiveChunkArrival (l : Nat) (p : FPkt) (s : State) :
    exec (.collectiveChunkArrival l p) s = execCollectiveChunkArrival l p s := rfl
@[simp] theorem exec_collectiveChunkAck (l : Nat) (p : FPkt) (s : State) :
    exec (.collectiveChunkAck l p) s = execCollectiveChunkAck l p s := rfl
@[simp] theorem exec_collectiveChunkNack (l : Nat) (p : FPkt) (s : State) :
    exec (.collectiveChunkNack l p) s = execCollectiveChunkNack l p s := rfl
@[simp] theorem exec_chunkResendTimer (group : Nat) (seq : W32) (chunk : Nat) (dst : Nat) (s : State) :
    exec (.chunkResendTimer group seq chunk dst) s = execChunkResendTimer group seq chunk dst s := rfl
@[simp] theorem exec_collectiveTimeout (group : Nat) (s : State) :
    exec (.collectiveTimeout group) s = execCollectiveTimeout group s := rfl
@[simp] theorem exec_fabricBellArrival (l : Nat) (p : FPkt) (s : State) :
    exec (.fabricBellArrival l p) s = execFabricBellArrival l p s := rfl
@[simp] theorem exec_fabricReleaseArrival (l : Nat) (p : FPkt) (s : State) :
    exec (.fabricReleaseArrival l p) s = execFabricReleaseArrival l p s := rfl
@[simp] theorem exec_rawPacketArrival (l : Nat) (p : FPkt) (s : State) :
    exec (.rawPacketArrival l p) s = execRawPacketArrival l p s := rfl
@[simp] theorem exec_meridianExchangeSend (s : State) :
    exec (.meridianExchangeSend) s = execMeridianExchangeSend s := rfl
@[simp] theorem exec_meridianExchangeReceive (t1 : Int) (t2 : Int) (t3 : Int) (t4 : Int) (s : State) :
    exec (.meridianExchangeReceive t1 t2 t3 t4) s = execMeridianExchangeReceive t1 t2 t3 t4 s := rfl
@[simp] theorem exec_fabIdWrite (v : Word) (s : State) : exec (.fabIdWrite v) s = execFabIdWrite v s := rfl
@[simp] theorem exec_fabRouteWrite (m : Nat) (v : Word) (s : State) :
    exec (.fabRouteWrite m v) s = execFabRouteWrite m v s := rfl
@[simp] theorem exec_fabCollWrite (g : Nat) (w : Nat) (v : Word) (s : State) :
    exec (.fabCollWrite g w v) s = execFabCollWrite g w v s := rfl
@[simp] theorem exec_eventRaise (e : EvReport) (s : State) : exec (.eventRaise e) s = execEventRaise e s := rfl
@[simp] theorem exec_stampReport (fb : Nat) (stamp : Word) (s : State) :
    exec (.stampReport fb stamp) s = execStampReport fb stamp s := rfl
@[simp] theorem exec_eventQueueRelease (s : State) : exec (.eventQueueRelease) s = execEventQueueRelease s := rfl
@[simp] theorem exec_eventRingWrite (s : State) : exec (.eventRingWrite) s = execEventRingWrite s := rfl
@[simp] theorem exec_eventRingEnable (v : Word) (s : State) :
    exec (.eventRingEnable v) s = execEventRingEnable v s := rfl
@[simp] theorem exec_eventRingDisable (s : State) : exec (.eventRingDisable) s = execEventRingDisable s := rfl
@[simp] theorem exec_eventRingHeadWrite (v : Word) (s : State) :
    exec (.eventRingHeadWrite v) s = execEventRingHeadWrite v s := rfl
@[simp] theorem exec_registerWrite (off : Nat) (size : Nat) (v : Word) (boot : Bool) (pcie : Bool) (s : State) :
    exec (.registerWrite off size v boot pcie) s = execRegisterWrite off size v boot pcie s := rfl
@[simp] theorem exec_laserInputHasLight (q : Nat) (input : Nat) (s : State) :
    exec (.laserInputHasLight q input) s = execLaserInputHasLight q input s := rfl

end Sys2Proof.Machine
end

