-- ==== Sys2Proof/Laws/Core.lean ====
section
/-! SUPPORT. The frame of a core instruction, said once: what `coreStep` answers when the instruction runs, when its
predicate is off, when a deferred fault waits and when a check fails. -/

namespace Sys2Proof.Machine

variable {s s' : State} {n t pr : Nat} {vec : Bool} {checks : State → List Check} {eff : State → Res}

/-- The condition under which `coreStep` reaches the checks and the effect. -/
structure Runs (s : State) (n t pr : Nat) (vec : Bool) : Prop where
  ready : (s.thr n t).st = .ready
  noDeferred : (s.thr n t).dfr = none
  predicate : vec = true ∨ ((s.thr n t).rp pr).getLsbD 0 = true

theorem Runs.runs (h : Runs s n t pr vec) : (!vec && !((s.thr n t).rp pr).getLsbD 0) = false := by
  rcases h.predicate with h | h <;> simp only [h, Bool.not_true, Bool.false_and, Bool.and_false]

theorem MayIssue.runs (h : MayIssue s n t pr) : Runs s n t pr vec := ⟨h.ready, h.noDeferred, .inr h.predicate⟩

theorem MayIssueV.runs (h : MayIssueV s n t) : Runs s n t pr true := ⟨h.ready, h.noDeferred, .inl rfl⟩

/-- An instruction that retires: its effect, then the next instruction. -/
theorem coreStep_done (h : Runs s n t pr vec) (hn : pcOk t ((s.thr n t).pc.toNat + 8) = true)
    (hc : firstCheck (checks s) = none) (he : eff s = .done s') :
    coreStep n t pr vec checks eff s = .next (s'.modThr n t retire) := by
  simp only [coreStep, ne_eq, h.ready, h.noDeferred, h.runs, hc, he, hn, not_true_eq_false, ↓reduceIte, Option.isSome_none,
    Bool.false_eq_true]

/-- An instruction that jumps. -/
theorem coreStep_jump {x : Int} (h : Runs s n t pr vec) (hn : pcOk t x = true)
    (hc : firstCheck (checks s) = none) (he : eff s = .jump s' x) :
    coreStep n t pr vec checks eff s =
      .next (s'.modThr n t fun th => { (retire th) with pc := BitVec.ofInt 16 x }) := by
  simp only [coreStep, ne_eq, h.ready, h.noDeferred, h.runs, hc, he, hn, not_true_eq_false, ↓reduceIte, Option.isSome_none,
    Bool.false_eq_true]

/-- A jump out of the thread's range. -/
theorem coreStep_jump_bad {x : Int} (h : Runs s n t pr vec) (hn : pcOk t x = false)
    (hc : firstCheck (checks s) = none) (he : eff s = .jump s' x) :
    coreStep n t pr vec checks eff s = .next (takeFault s n t (pcCause t) 0 (BitVec.ofInt 64 x)) := by
  simp only [coreStep, ne_eq, h.ready, h.noDeferred, h.runs, hc, he, hn, not_true_eq_false, ↓reduceIte, Option.isSome_none,
    Bool.false_eq_true]

/-- An instruction that waits or is stalled. -/
theorem coreStep_stay (h : Runs s n t pr vec) (hn : pcOk t ((s.thr n t).pc.toNat + 8) = true)
    (hc : firstCheck (checks s) = none) (he : eff s = .stay s') :
    coreStep n t pr vec checks eff s = .next s' := by
  simp only [coreStep, ne_eq, h.ready, h.noDeferred, h.runs, hc, he, hn, not_true_eq_false, ↓reduceIte, Option.isSome_none,
    Bool.false_eq_true]

/-- An instruction that ends the thread's program. -/
theorem coreStep_leave (h : Runs s n t pr vec) (hn : pcOk t ((s.thr n t).pc.toNat + 8) = true)
    (hc : firstCheck (checks s) = none) (he : eff s = .leave s') :
    coreStep n t pr vec checks eff s = .next s' := by
  simp only [coreStep, ne_eq, h.ready, h.noDeferred, h.runs, hc, he, hn, not_true_eq_false, ↓reduceIte, Option.isSome_none,
    Bool.false_eq_true]

/-- A check that fails is a precise fault, when the next program counter is one the thread may have. -/
theorem coreStep_check {c a : Nat} (h : Runs s n t pr vec) (hn : pcOk t ((s.thr n t).pc.toNat + 8) = true)
    (hj : ∀ s' x, eff s = .jump s' x → pcOk t x = true) (hc : firstCheck (checks s) = some (c, a)) :
    coreStep n t pr vec checks eff s = .next (takeFault s n t c 0 (BitVec.ofNat 64 a)) := by
  cases he : eff s with
  | jump s' x =>
    have hx := hj s' x he
    simp only [coreStep, ne_eq, h.ready, h.noDeferred, h.runs, hc, he, hx, not_true_eq_false, ↓reduceIte,
      Option.isSome_none, Bool.false_eq_true, Bool.false_and]
  | _ =>
    simp only [coreStep, ne_eq, h.ready, h.noDeferred, h.runs, hc, he, hn, not_true_eq_false, ↓reduceIte,
      Option.isSome_none, Bool.false_eq_true, Bool.false_and]

/-- A check that fails on a jump to a program counter the thread may not have: that fault where it comes first in R435. -/
theorem coreStep_check_jump {c a : Nat} {x : Int} (h : Runs s n t pr vec) (hx : pcOk t x = false)
    (he : eff s = .jump s' x) (hr : causeRank (pcCause t) < causeRank c) (hc : firstCheck (checks s) = some (c, a)) :
    coreStep n t pr vec checks eff s = .next (takeFault s n t (pcCause t) 0 (BitVec.ofInt 64 x)) := by
  simp only [coreStep, ne_eq, h.ready, h.noDeferred, h.runs, hc, he, hx, hr, not_true_eq_false, ↓reduceIte,
    Option.isSome_none, Option.isSome_some, Option.getD_some, Bool.false_eq_true, decide_true, Bool.and_self]

/-- A fault found in the effect. -/
theorem coreStep_fault {c st a : Nat} (h : Runs s n t pr vec) (hn : pcOk t ((s.thr n t).pc.toNat + 8) = true)
    (hc : firstCheck (checks s) = none) (he : eff s = .fault s' c st a) :
    coreStep n t pr vec checks eff s = .next (takeFault s' n t c st (BitVec.ofNat 64 a)) := by
  simp only [coreStep, ne_eq, h.ready, h.noDeferred, h.runs, hc, he, hn, not_true_eq_false, ↓reduceIte, Option.isSome_none,
    Bool.false_eq_true, Bool.false_and]

/-- With the predicate off the instruction retires without effect (R92). -/
theorem coreStep_off (hr : (s.thr n t).st = .ready) (hd : (s.thr n t).dfr = none)
    (hp : ((s.thr n t).rp pr).getLsbD 0 = false) :
    coreStep n t pr false checks eff s = .next (s.modThr n t retire) := by
  simp only [coreStep, ne_eq, hr, hd, hp, not_true_eq_false, ↓reduceIte, Option.isSome_none, Bool.false_eq_true,
    Bool.not_false, Bool.and_self]

/-- A deferred fault that waits is taken in place of the instruction (R106). -/
theorem coreStep_deferred (hr : (s.thr n t).st = .ready) (hd : (s.thr n t).dfr ≠ none) :
    coreStep n t pr vec checks eff s = .next (takeDeferred s n t) := by
  cases h : (s.thr n t).dfr with
  | none => exact absurd h hd
  | some d => simp [coreStep, hr, h]

/-! ### One thread's frame -/

theorem onlyThread_setThr (s : State) (n t : Nat) (x : Thread) : OnlyThread s (s.setThr n t x) n t where
  rest := rfl
  cores := fun m h => by rw [State.core_setThr, if_neg h]
  core := by simp [State.setThr, Core.setThread]
  threads := fun u h => by rw [State.thr_setThr, if_neg (fun e => h e.2)]

theorem onlyThread_modThr (s : State) (n t : Nat) (f : Thread → Thread) : OnlyThread s (s.modThr n t f) n t :=
  onlyThread_setThr ..

/-- Two changes of one thread are one. -/
theorem State.modThr_modThr (s : State) (n t : Nat) (f g : Thread → Thread) :
    ((s.modThr n t f).modThr n t g).thr n t = g (f (s.thr n t)) := by simp

theorem OnlyThread.trans {s₁ s₂ s₃ : State} {n t : Nat} (h : OnlyThread s₁ s₂ n t) (g : OnlyThread s₂ s₃ n t) :
    OnlyThread s₁ s₃ n t where
  rest := by
    have h1 := h.rest; have g1 := g.rest
    calc { s₃ with cores := s₁.cores } = { ({ s₃ with cores := s₂.cores } : State) with cores := s₁.cores } := rfl
      _ = s₁ := by rw [g1, h1]
  cores := fun m hm => by rw [g.cores m hm, h.cores m hm]
  core := by
    have h1 := h.core; have g1 := g.core
    calc { s₃.core n with thr := (s₁.core n).thr } =
          { ({ s₃.core n with thr := (s₂.core n).thr } : Core) with thr := (s₁.core n).thr } := rfl
      _ = _ := by rw [g1, h1]
  threads := fun u hu => by rw [g.threads u hu, h.threads u hu]

end Sys2Proof.Machine
end

