-- ==== Sys2Proof/Laws/Held.lean ====
section
/-! SUPPORT. Where no access waits at its home and no Carter holds a descriptor, what makes held accesses go on does
nothing. -/

namespace Sys2Proof.Machine

variable {s : State}

theorem carLocal_idle (fb car : Nat) (h : ∀ k, (tget {} s.car.slots k : CarSlot).job = none) : carLocal s fb car = s := by
  have e : ∀ l : List Nat, (l.flatMap fun i =>
      let c := s.slot fb car i
      if c.job.any fun j => j.vis = 0 then (c.pend.filter fun p => !p.done).map (·.at_) else []) = [] := by
    intro l
    simp only [List.flatMap_eq_nil_iff]
    intro i _
    rw [if_neg]
    rw [State.slot, h]
    exact Bool.false_ne_true
  unfold carLocal
  rw [e]

theorem carFlags_idle (fb car sl : Nat) (h : ∀ k, (tget {} s.car.slots k : CarSlot).job = none) :
    carFlags s fb car sl = s := by
  unfold carFlags
  dsimp only
  rw [show (s.slot fb car sl).job = none from h _]

theorem nextTurn_none {can : Nat → Bool} (t : Nat) (h : ∀ i, can i = false) : nextTurn can t = none := by
  simp only [nextTurn, List.find?_eq_none]
  intro i _
  rw [h]
  exact Bool.false_ne_true

theorem canAsk_idle (fb car sl : Nat) (h : ∀ k, (tget {} s.car.slots k : CarSlot).job = none) :
    canAsk s fb car sl = false := by
  unfold canAsk
  dsimp only
  rw [show (s.slot fb car sl).job = none from h _]

theorem canIssue_idle (fb car sl : Nat) (h : ∀ k, (tget {} s.car.slots k : CarSlot).job = none) :
    canIssue s fb car sl = false := by
  unfold canIssue
  dsimp only
  rw [show (s.slot fb car sl).job = none from h _]

theorem askTurns_idle (n fb car : Nat) (h : ∀ k, (tget {} s.car.slots k : CarSlot).job = none) :
    askTurns n s fb car = s := by
  cases n with
  | zero => rfl
  | succ n =>
    unfold askTurns
    dsimp only
    rw [nextTurn_none _ fun i => canAsk_idle fb car i h]

theorem issueTurns_idle (n fb car : Nat) (h : ∀ k, (tget {} s.car.slots k : CarSlot).job = none) :
    issueTurns n s fb car = s := by
  cases n with
  | zero => rfl
  | succ n =>
    unfold issueTurns
    dsimp only
    rw [nextTurn_none _ fun i => canIssue_idle fb car i h]

/-- A Carter without a descriptor has nothing to do. -/
theorem carPump_idle (fb car : Nat) (h : ∀ k, (tget {} s.car.slots k : CarSlot).job = none) : carPump s fb car = s := by
  have e : ∀ l : List Nat, l.foldl (fun s i => carFlags s fb car i) s = s := by
    intro l
    induction l with
    | nil => rfl
    | cons i l ih => rw [List.foldl_cons, carFlags_idle fb car i h, ih]
  unfold carPump
  rw [carLocal_idle fb car h, e]
  dsimp only
  rw [issueTurns_idle _ _ _ h, askTurns_idle _ _ _ h, issueTurns_idle _ _ _ h, askTurns_idle _ _ _ h]

theorem carPumpAll_idle (h : ∀ k, (tget {} s.car.slots k : CarSlot).job = none) : carPumpAll s = s := by
  unfold carPumpAll
  dsimp only
  generalize ((tkeys s.car.slots).foldl _ []) = l
  induction l with
  | nil => rfl
  | cons k l ih => rw [List.foldl_cons, carPump_idle _ _ h, ih]

theorem retryDeposits_idle (h : ∀ g, (s.group g).depWait = none) : retryDeposits s = s := by
  unfold retryDeposits
  generalize tkeys s.mil.groups = l
  induction l with
  | nil => rfl
  | cons g l ih => rw [List.foldl_cons, h]; exact ih

/-- Where nothing is held, nothing goes on. -/
theorem unhold_nothing (h : NothingHeld s) : unhold s = s := by
  have a : settleBacks s = s := by
    unfold settleBacks
    rw [h.backs]
    show { s with dram := { s.dram with writeBacks := [] } } = s
    rw [← h.backs]
  have b : replayAll s = s := by
    unfold replayAll
    rw [h.threads]
    rfl
  have c : replayParked bar2Do s = s := by
    unfold replayParked
    rw [h.outside]
    show { s with dram := { s.dram with parked := [] } } = s
    rw [← h.outside]
  unfold unhold replayHeld
  dsimp only
  rw [a, b, c, h.commands, List.foldl_nil, carPumpAll_idle h.carters, retryDeposits_idle h.deposits]

end Sys2Proof.Machine
end

