-- ==== Sys2Proof/Laws/Local.lean ====
section
/-! SUPPORT. Local store and the issue of operations: what each shared operation does when nothing stops it. -/

namespace Sys2Proof.Machine

/-- The words of a range. -/
theorem badWord_none {tb : Tbl Bool} {a n w : Nat} (h : badWord tb a n = none) (hn : 0 < n) (h1 : a / 8 ≤ w)
    (h2 : w ≤ (a + n - 1) / 8) : tget false tb w = false := by
  unfold badWord at h
  rw [if_neg (by omega)] at h
  have := List.find?_eq_none.mp h w (List.mem_map.mpr ⟨w - a / 8, List.mem_range.mpr (by omega), by omega⟩)
  simpa using this

theorem lsRead_good {c : Core} {a n : Nat} (h : badWord c.lsBad a n = none) :
    lsRead c a n = .ok (Memory.readN c.ls a n) := by simp only [lsRead, h]

/-- Clearing marks that are clear changes no mark. -/
theorem tget_foldl_clear (p : Nat → Bool) (ws : List Nat) : ∀ (b : Tbl Bool) (w : Nat),
    (∀ x ∈ ws, tget false b x = false) →
    tget false (ws.foldl (fun b x => if p x then tset false b x false else b) b) w = tget false b w := by
  induction ws with
  | nil => intro b w _; rfl
  | cons x xs ih =>
    intro b w h
    have hx := h x List.mem_cons_self
    have step : ∀ v, tget false (if p x then tset false b x false else b) v = tget false b v := by
      intro v
      split
      · rw [tget_tset]
        split
        · next e => rw [e, hx]
        · rfl
      · rfl
    rw [List.foldl_cons, ih _ w fun y hy => (step y).trans (h y (List.mem_cons_of_mem _ hy)), step]

/-- A write that meets no uncorrectable word: its bytes, and no mark moves. -/
theorem lsWrite_good {c : Core} {a : Nat} {bs : List Byte} (h : badWord c.lsBad a bs.length = none) :
    ∃ b, lsWrite c a bs = ({ c with ls := Memory.writeN c.ls a bs, lsBad := b }, none) ∧
      ∀ w, tget false b w = tget false c.lsBad w := by
  have hw : ∀ w ∈ (if bs.length = 0 then [] else
      (List.range ((a + bs.length - 1) / 8 - a / 8 + 1)).map (a / 8 + ·)), tget false c.lsBad w = false := by
    intro w hm
    split at hm
    · cases hm
    · obtain ⟨k, hk, rfl⟩ := List.mem_map.mp hm
      have := List.mem_range.mp hk
      exact badWord_none h (by omega) (by omega) (by omega)
  refine ⟨_, ?_, fun w => tget_foldl_clear (fun w => decide (a ≤ 8 * w) && decide (8 * w + 8 ≤ a + bs.length)) _ c.lsBad w hw⟩
  unfold lsWrite
  dsimp only
  rw [List.find?_eq_none.mpr (fun w hm => by simp [hw w hm])]

/-! ### Issue of operations (R91) -/

/-- The operation an instruction issues. -/
def newOp (s : State) (n t k : Nat) (kind : AKind) : AOp :=
  ⟨(s.core n).nextId, t, (s.thr n t).pc.toNat, k, kind, 0, 0, [], []⟩

theorem startOp_free {s : State} {n t k : Nat} {kind : AKind} (h : SlotFree s n t) :
    startOp n t k kind s = .done (s.setCore n { s.core n with
      aops := (s.core n).aops ++ [newOp s n t k kind], nextId := (s.core n).nextId + 1 }) := by
  unfold startOp
  dsimp only
  rw [if_neg (by have := h.1; have := h.2; omega)]
  rfl

theorem startOp_full {s : State} {n t k : Nat} {kind : AKind}
    (h : 16 ≤ opsOf (s.core n) t ∨ 128 ≤ opsAll (s.core n)) :
    startOp n t k kind s = .stay (s.modThr n t fun th => { th with st := .stalled }) := by
  unfold startOp
  dsimp only
  rw [if_pos (by omega)]

/-- What a core's change followed by the retirement of its thread leaves. -/
theorem issued_of {s : State} {n t k : Nat} {kind : AKind} {c : Core} {tq rq : List Nat} {tiles : Tbl Tile}
    (hc : c = { s.core n with
      aops := (s.core n).aops ++ [newOp s n t k kind], nextId := (s.core n).nextId + 1, tq := tq, rq := rq,
      tiles := tiles }) :
    Issued s ((s.setCore n c).modThr n t retire) n t k kind tq rq tiles := by
  subst hc
  refine ⟨rfl, fun m hm => ?_, fun u hu => ?_, ?_, ?_, ?_, ?_⟩
  · rw [State.core_modThr, if_neg hm, State.core_setCore, if_neg hm]
  · rw [State.thr_modThr, if_neg (fun h => hu h.2)]
    unfold State.thr
    rw [State.core_setCore_same]
    rfl
  · rw [State.thr_modThr_same]
    unfold State.thr
    rw [State.core_setCore_same]
    exact ⟨rfl, rfl, rfl⟩
  · rw [State.thr_modThr_same]
    unfold State.thr
    rw [State.core_setCore_same]
    exact ⟨fun j => rfl, fun j => rfl, fun j => rfl, fun j => rfl, rfl⟩
  · rw [State.core_modThr_same, State.core_setCore_same]
    rfl
  · rw [State.core_modThr_same, State.core_setCore_same]
    rfl

theorem queueOp_free {s : State} {n t k : Nat} {kind : AKind} (h : SlotFree s n t) :
    ((s.core n).tq.length < 4 → queueOp n t k false kind s = .done (s.setCore n { s.core n with
      aops := (s.core n).aops ++ [newOp s n t k kind], nextId := (s.core n).nextId + 1
      tq := (s.core n).tq ++ [(s.core n).nextId] })) ∧
    ((s.core n).rq.length < 2 → queueOp n t k true kind s = .done (s.setCore n { s.core n with
      aops := (s.core n).aops ++ [newOp s n t k kind], nextId := (s.core n).nextId + 1
      rq := (s.core n).rq ++ [(s.core n).nextId] })) := by
  have h1 := h.1
  have h2 := h.2
  constructor <;> intro hq
  all_goals
    unfold queueOp
    simp only [↓reduceIte, Bool.false_eq_true]
    rw [if_neg (by simp; omega)]
    rfl

end Sys2Proof.Machine
end

