-- ==== Sys2Proof/Laws/Path.lean ====
section
/-! SUPPORT. What the shared operations over events and memory may change, said once: logging changes the event log,
the Meridian's record of reads and the counter of free values; an access to device memory or scratch changes those, the
memories and the state of the Granaries and controllers; and each keeps the memories in canonical form. -/

namespace Sys2Proof.Machine

/-! ### Events -/

/-- Only the event log, the record of Meridian reads and the counter of free values differ. -/
def OnlyLog (s t : State) : Prop := { t with evt := s.evt, mer := s.mer, free := s.free } = s

theorem OnlyLog.refl (s : State) : OnlyLog s s := rfl

theorem OnlyLog.trans {a b c : State} (h : OnlyLog a b) (g : OnlyLog b c) : OnlyLog a c := by
  cases a; cases b; cases c
  simp only [OnlyLog, State.mk.injEq] at h g ⊢
  simp_all only [and_self]

theorem onlyLog_readMer (s : State) (fb : Nat) : OnlyLog s (readMer s fb).1 := rfl

theorem onlyLog_logEvent (s : State) (code fb block inst ctx : Nat) (d0 d1 : Word) :
    OnlyLog s (logEvent s code fb block inst ctx d0 d1) := by
  unfold logEvent
  split
  · rfl
  · exact onlyLog_readMer s fb

theorem onlyLog_ev (s : State) (code fb block inst d0 d1 : Nat) : OnlyLog s (ev s code fb block inst d0 d1) :=
  onlyLog_logEvent ..

theorem onlyLog_regDiscard (s : State) (off inst : Nat) (v : Word) : OnlyLog s (regDiscard s off inst v) :=
  onlyLog_logEvent ..

/-- A read of the Meridian never goes back within one FB (R401), and it is the latest reading. -/
theorem readMer_mono (s : State) (fb : Nat) :
    tget 0 s.mer.last fb ≤ (readMer s fb).2 ∧ tget 0 (readMer s fb).1.mer.last fb = (readMer s fb).2 := by
  constructor
  · simp only [readMer, State.draw]
    have key : ∀ v l : Word, l ≤ if v < l then l else v := by
      intro v l
      by_cases h : v < l
      · simp only [h, ↓reduceIte, BitVec.le_refl]
      · simp only [h, ↓reduceIte, BitVec.not_lt.mp h]
    exact key _ _
  · simp only [readMer, State.draw, tget_tset, ↓reduceIte]

/-! ### Memory -/

/-- Only the memories behind the home banks, the Granaries and controllers, the log and the counter of free values
differ. -/
def OnlyPath (s t : State) : Prop :=
  { t with mem := s.mem, gmem := s.gmem, dram := s.dram, evt := s.evt, mer := s.mer, free := s.free } = s

theorem OnlyPath.refl (s : State) : OnlyPath s s := rfl

theorem OnlyPath.trans {a b c : State} (h : OnlyPath a b) (g : OnlyPath b c) : OnlyPath a c := by
  cases a; cases b; cases c
  simp only [OnlyPath, State.mk.injEq] at h g ⊢
  simp_all only [and_self]

theorem OnlyLog.path {a b : State} (h : OnlyLog a b) : OnlyPath a b := by
  cases a; cases b
  simp only [OnlyLog, OnlyPath, State.mk.injEq] at h ⊢
  simp_all only [and_self]

theorem onlyPath_setHbm (s : State) (fb : Nat) (x : Hbm) : OnlyPath s (s.setHbm fb x) := rfl
theorem onlyPath_setLost (s : State) (k : Nat) (b : Bool) : OnlyPath s (s.setLost k b) := rfl
theorem onlyPath_setLostBurst (s : State) (k : Nat) (b : Bool) : OnlyPath s (s.setLostBurst k b) := rfl
theorem onlyPath_setCline (s : State) (k : Nat) (c : CLine) : OnlyPath s (s.setCline k c) := rfl
theorem onlyPath_dropLine (s : State) (k : Nat) : OnlyPath s (dropLine s k) := rfl

theorem onlyPath_noteUe (s : State) (a : Nat) : OnlyPath s (noteUe s a) :=
  (onlyPath_setHbm ..).trans (onlyLog_ev ..).path

theorem onlyPath_wakeStack (s : State) (a : Nat) : OnlyPath s (wakeStack s a) := by
  unfold wakeStack
  dsimp only
  split <;> rfl

theorem onlyPath_burstStop (s : State) (b : Nat) : OnlyPath s (burstStop s b).1 := by
  unfold burstStop
  split
  · rfl
  · refine OnlyPath.trans ?_ (onlyPath_noteUe _ (64 * b))
    split <;> rfl

theorem onlyPath_dramRead (s : State) (a n : Nat) : OnlyPath s (dramRead s a n).1 := by
  unfold dramRead
  refine (onlyPath_wakeStack s a).trans ?_
  dsimp only
  split
  · rfl
  · exact onlyPath_burstStop ..

theorem onlyPath_freshBurst (s : State) (b : Nat) : OnlyPath s (freshBurst s b) := by
  unfold freshBurst
  dsimp only
  repeat' split
  all_goals rfl

theorem onlyPath_freshBursts (bs : List Nat) : ∀ s : State, OnlyPath s (bs.foldl freshBurst s) := by
  induction bs with
  | nil => exact fun s => .refl s
  | cons b bs ih => exact fun s => (onlyPath_freshBurst s b).trans (ih _)

theorem onlyPath_dramWrite (s : State) (a : Nat) (bs : List Byte) : OnlyPath s (dramWrite s a bs).1 := by
  unfold dramWrite
  refine (onlyPath_wakeStack s a).trans ?_
  dsimp only
  split
  · exact onlyPath_burstStop ..
  · exact (onlyPath_freshBursts _ (wakeStack s a)).trans rfl

theorem onlyPath_storeBack (s : State) (line : Nat) (bs : List Byte) : OnlyPath s (storeBack s line bs) := by
  unfold storeBack
  have h := onlyPath_dramWrite s (256 * line) bs
  split <;> rename_i e <;> rw [e] at h <;> exact h.trans rfl

theorem onlyPath_evict (s : State) (line : Nat) : OnlyPath s (evict s line) := by
  unfold evict
  split
  · rfl
  · split
    · exact (onlyPath_dropLine s line).trans (onlyPath_storeBack ..)
    · exact onlyPath_dropLine ..

theorem onlyPath_pickWay (s : State) (fb b set : Nat) : OnlyPath s (pickWay s fb b set).1 := by
  unfold pickWay
  dsimp only
  split
  · rfl
  · split
    · rfl
    · split <;> rfl

theorem onlyPath_allocLine (s : State) (line : Nat) (d v : Bool) : OnlyPath s (allocLine s line d v) := by
  unfold allocLine
  have h := onlyPath_pickWay s (homeQ (256 * line)) (devBank (256 * line)) (devSet (256 * line))
  dsimp only
  split <;> rename_i e <;> rw [e] at h
  · exact h
  · refine h.trans (OnlyPath.trans ?_ (onlyPath_setCline ..))
    split
    · exact onlyPath_evict ..
    · rfl

theorem onlyPath_dirtyLine (s : State) (line : Nat) (c : CLine) (a : Nat) (bs : List Byte) :
    OnlyPath s (dirtyLine s line c a bs) := by
  unfold dirtyLine
  split <;> rfl

theorem onlyPath_lineReadIf (al : Bool) (s : State) (a n : Nat) : OnlyPath s (lineReadIf al s a n).1 := by
  unfold lineReadIf
  split
  · repeat' split
    all_goals rfl
  split
  · rfl
  split
  · rfl
  split
  · rfl
  split
  · exact onlyPath_noteUe ..
  split
  · rfl
  split
  · rfl
  have h := onlyPath_dramRead s a n
  split <;> rename_i e <;> rw [e] at h
  · exact h
  · split
    · exact h.trans (onlyPath_allocLine ..)
    · exact h

theorem onlyPath_missWrite (s : State) (p line a : Nat) (bs : List Byte) :
    OnlyPath s (missWrite s p line a bs).1 := by
  unfold missWrite
  have h : OnlyPath s (if bs.length = 256 then s else wakeStack s a) := by
    split
    · rfl
    · exact onlyPath_wakeStack ..
  refine h.trans ?_
  dsimp only
  generalize (if bs.length = 256 then s else wakeStack s a) = s
  split
  · rfl
  split
  · exact onlyPath_dramWrite ..
  split
  · have g := onlyPath_dramWrite s a bs
    split <;> rename_i e <;> rw [e] at g
    · exact g
    · exact g.trans (onlyPath_allocLine ..)
  · refine (onlyPath_allocLine s line false (decide (p = 3))).trans ?_
    split
    · exact onlyPath_dramWrite ..
    · exact onlyPath_dirtyLine ..

theorem onlyPath_bankWrite (s : State) (a : Nat) (bs : List Byte) : OnlyPath s (bankWrite s a bs).1 := by
  unfold bankWrite
  dsimp only
  split <;> split
  · exact onlyPath_dirtyLine ..
  · exact onlyPath_dramWrite ..
  · exact onlyPath_missWrite ..
  · exact onlyPath_dramWrite ..

theorem onlyPath_lineWrite (s : State) (a : Nat) (bs : List Byte) : OnlyPath s (lineWrite s a bs).1 := by
  unfold lineWrite
  dsimp only
  split
  · repeat' split
    all_goals rfl
  split
  · rfl
  split
  · rfl
  split
  · rfl
  split
  · exact onlyPath_noteUe ..
  split
  · rfl
  have h := onlyPath_bankWrite s a bs
  split
  · rename_i e
    rw [e] at h
    exact h.trans (onlyPath_setLost ..)
  · exact h

theorem onlyPath_rangeRead (fuel : Nat) : ∀ (s : State) (a n : Nat), OnlyPath s (rangeRead fuel s a n).1 := by
  induction fuel with
  | zero => exact fun s _ _ => .refl s
  | succ fuel ih =>
    intro s a n
    unfold rangeRead
    split
    · rfl
    · have h := onlyPath_lineReadIf true s a (min n (256 - a % 256))
      unfold lineRead
      dsimp only
      split <;> rename_i e <;> rw [e] at h
      · exact h
      · have g := ih (lineReadIf true s a (min n (256 - a % 256))).1 (a + min n (256 - a % 256)) (n - min n (256 - a % 256))
        rw [e] at g
        split <;> rename_i e' <;> rw [e'] at g <;> exact h.trans g

theorem onlyPath_rangeWrite (fuel : Nat) : ∀ (s : State) (a : Nat) (bs : List Byte),
    OnlyPath s (rangeWrite fuel s a bs).1 := by
  induction fuel with
  | zero => exact fun s _ _ => .refl s
  | succ fuel ih =>
    intro s a bs
    unfold rangeWrite
    split
    · rfl
    · have h := onlyPath_lineWrite s a (bs.take (min bs.length (256 - a % 256)))
      dsimp only
      split <;> rename_i e <;> rw [e] at h
      · exact h
      · exact h.trans (ih ..)

/-- A read through the home banks. -/
theorem onlyPath_memRead (s : State) (a n : Nat) : OnlyPath s (memRead s a n).1 := onlyPath_rangeRead ..

/-- A write through the home banks. -/
theorem onlyPath_memWrite (s : State) (a : Nat) (bs : List Byte) : OnlyPath s (memWrite s a bs).1 := onlyPath_rangeWrite ..

/-- An atomic at its home bank. -/
theorem onlyPath_memAtom (s : State) (a op : Nat) (b c : Word) : OnlyPath s (memAtom s a op b c).1 := by
  unfold memAtom
  have h := onlyPath_lineReadIf (policyOf s a != 2) s a 8
  split <;> rename_i e <;> rw [e] at h
  · exact h
  · rename_i s1 bs1
    have g := onlyPath_lineWrite s1 a (leBytes 8 (atomOp op (BitVec.ofNat 64 (leNat bs1)) b c).toNat)
    dsimp only
    split <;> rename_i e' <;> rw [e'] at g <;> exact h.trans g

/-! ### Canonical form -/

/-- The memories behind the home banks are in canonical form. -/
def PathWf (s : State) : Prop := Memory.wf s.mem ∧ Memory.wf s.gmem

theorem OnlyLog.mems {s t : State} (h : OnlyLog s t) : t.mem = s.mem ∧ t.gmem = s.gmem := by
  cases s; cases t
  simp only [OnlyLog, State.mk.injEq] at h
  simp_all only [and_self]

theorem PathWf.of {s t : State} (h : PathWf s) (e : t.mem = s.mem ∧ t.gmem = s.gmem) : PathWf t := by
  rw [PathWf, e.1, e.2]; exact h

theorem PathWf.noteUe {s : State} (a : Nat) (h : PathWf s) : PathWf (noteUe s a) :=
  PathWf.of (s := s.setHbm _ _) h (onlyLog_ev ..).mems

theorem PathWf.wakeStack {s : State} (a : Nat) (h : PathWf s) : PathWf (wakeStack s a) := by
  unfold Machine.wakeStack
  dsimp only
  split <;> exact h

theorem PathWf.burstStop {s : State} (b : Nat) (h : PathWf s) : PathWf (burstStop s b).1 := by
  unfold Machine.burstStop
  split
  · exact h
  · refine PathWf.noteUe _ ?_
    split <;> exact h

theorem PathWf.dramRead {s : State} (a n : Nat) (h : PathWf s) : PathWf (dramRead s a n).1 := by
  unfold Machine.dramRead
  dsimp only
  split
  · exact h.wakeStack a
  · exact (h.wakeStack a).burstStop _

theorem PathWf.freshBursts (bs : List Nat) : ∀ {s : State}, PathWf s → PathWf (bs.foldl freshBurst s) := by
  induction bs with
  | nil => exact id
  | cons b bs ih =>
    intro s h
    refine ih ?_
    unfold freshBurst
    dsimp only
    repeat' split
    all_goals exact h

theorem PathWf.dramWrite {s : State} (a : Nat) (bs : List Byte) (h : PathWf s) : PathWf (dramWrite s a bs).1 := by
  unfold Machine.dramWrite
  dsimp only
  split
  · exact (h.wakeStack a).burstStop _
  · have g := PathWf.freshBursts ((burstsOf a bs.length).filter (coversBurst a bs.length)) (h.wakeStack a)
    exact ⟨Memory.wf_writeN g.1, g.2⟩

theorem PathWf.dropLine {s : State} (line : Nat) (h : PathWf s) : PathWf (dropLine s line) :=
  ⟨h.1, Memory.wf_clearRange h.2⟩

theorem PathWf.storeBack {s : State} (line : Nat) (bs : List Byte) (h : PathWf s) : PathWf (storeBack s line bs) := by
  unfold Machine.storeBack
  have g := h.dramWrite (256 * line) bs
  split <;> rename_i e <;> rw [e] at g <;> exact g

theorem PathWf.evict {s : State} (line : Nat) (h : PathWf s) : PathWf (evict s line) := by
  unfold Machine.evict
  split
  · exact h
  · split
    · exact (h.dropLine line).storeBack ..
    · exact h.dropLine line

theorem PathWf.pickWay {s : State} (fb b set : Nat) (h : PathWf s) : PathWf (pickWay s fb b set).1 := by
  unfold Machine.pickWay
  dsimp only
  split
  · exact h
  · split
    · exact h
    · split <;> exact h

theorem PathWf.allocLine {s : State} (line : Nat) (d v : Bool) (h : PathWf s) : PathWf (allocLine s line d v) := by
  unfold Machine.allocLine
  have g := h.pickWay (homeQ (256 * line)) (devBank (256 * line)) (devSet (256 * line))
  dsimp only
  split <;> rename_i e <;> rw [e] at g
  · exact g
  · rename_i s1 w
    have k : PathWf (match (setLines s1 (homeQ (256 * line)) (devBank (256 * line)) (devSet (256 * line))).find?
        fun e => e.2.way = w with
      | some e => Machine.evict s1 e.1
      | none => s1) := by
      split
      · exact g.evict _
      · exact g
    exact k

theorem PathWf.dirtyLine {s : State} (line : Nat) (c : CLine) (a : Nat) (bs : List Byte) (h : PathWf s) :
    PathWf (dirtyLine s line c a bs) := by
  unfold Machine.dirtyLine
  split
  · simp only [State.setCline, PathWf]
    exact ⟨h.1, Memory.wf_writeN h.2⟩
  · simp only [State.setCline, PathWf]
    exact ⟨h.1, Memory.wf_writeN (Memory.wf_writeN h.2)⟩

theorem PathWf.lineReadIf {s : State} (al : Bool) (a n : Nat) (h : PathWf s) : PathWf (lineReadIf al s a n).1 := by
  unfold Machine.lineReadIf
  split
  · repeat' split
    all_goals exact h
  split
  · exact h
  split
  · exact h
  split
  · exact h
  split
  · exact h.noteUe _
  split
  · exact h
  split
  · exact h
  have g := h.dramRead a n
  split <;> rename_i e <;> rw [e] at g
  · exact g
  · split
    · exact g.allocLine ..
    · exact g

theorem PathWf.missWrite {s : State} (p line a : Nat) (bs : List Byte) (h : PathWf s) :
    PathWf (missWrite s p line a bs).1 := by
  unfold Machine.missWrite
  have k : PathWf (if bs.length = 256 then s else Machine.wakeStack s a) := by
    split
    · exact h
    · exact h.wakeStack a
  dsimp only
  generalize (if bs.length = 256 then s else Machine.wakeStack s a) = s at k ⊢
  split
  · exact k
  split
  · exact k.dramWrite ..
  split
  · have g := k.dramWrite a bs
    split <;> rename_i e <;> rw [e] at g
    · exact g
    · exact g.allocLine ..
  · have g := k.allocLine line false (decide (p = 3))
    split
    · exact g.dramWrite ..
    · exact g.dirtyLine ..

theorem PathWf.bankWrite {s : State} (a : Nat) (bs : List Byte) (h : PathWf s) : PathWf (bankWrite s a bs).1 := by
  unfold Machine.bankWrite
  dsimp only
  split <;> split
  · exact h.dirtyLine ..
  · exact h.dramWrite ..
  · exact h.missWrite ..
  · exact h.dramWrite ..

theorem PathWf.lineWrite {s : State} (a : Nat) (bs : List Byte) (h : PathWf s) : PathWf (lineWrite s a bs).1 := by
  unfold Machine.lineWrite
  dsimp only
  split
  · split
    · exact h
    split
    · exact h
    split
    · exact h
    split
    · exact h
    · exact ⟨Memory.wf_writeN h.1, h.2⟩
  split
  · exact h
  split
  · exact h
  split
  · exact h
  split
  · exact h.noteUe _
  split
  · exact h
  have g := h.bankWrite a bs
  split
  · rename_i e
    rw [e] at g
    exact g
  · exact g

theorem PathWf.rangeRead (fuel : Nat) : ∀ {s : State} (a n : Nat), PathWf s → PathWf (rangeRead fuel s a n).1 := by
  induction fuel with
  | zero => exact fun _ _ h => h
  | succ fuel ih =>
    intro s a n h
    unfold Machine.rangeRead
    split
    · exact h
    · have g := h.lineReadIf true a (min n (256 - a % 256))
      unfold lineRead
      dsimp only
      split <;> rename_i e <;> rw [e] at g
      · exact g
      · have k := ih (a + min n (256 - a % 256)) (n - min n (256 - a % 256)) g
        split <;> rename_i e' <;> rw [e'] at k <;> exact k

theorem PathWf.rangeWrite (fuel : Nat) : ∀ {s : State} (a : Nat) (bs : List Byte), PathWf s →
    PathWf (rangeWrite fuel s a bs).1 := by
  induction fuel with
  | zero => exact fun _ _ h => h
  | succ fuel ih =>
    intro s a bs h
    unfold Machine.rangeWrite
    split
    · exact h
    · have g := h.lineWrite a (bs.take (min bs.length (256 - a % 256)))
      dsimp only
      split <;> rename_i e <;> rw [e] at g
      · exact g
      · exact ih _ _ g

theorem PathWf.memRead {s : State} (a n : Nat) (h : PathWf s) : PathWf (memRead s a n).1 := h.rangeRead _ a n
theorem PathWf.memWrite {s : State} (a : Nat) (bs : List Byte) (h : PathWf s) : PathWf (memWrite s a bs).1 :=
  h.rangeWrite _ a bs

theorem PathWf.memAtom {s : State} (a op : Nat) (b c : Word) (h : PathWf s) : PathWf (memAtom s a op b c).1 := by
  unfold Machine.memAtom
  have g := h.lineReadIf (policyOf s a != 2) a 8
  split <;> rename_i e <;> rw [e] at g
  · exact g
  · rename_i s1 bs1
    have k := g.lineWrite a (leBytes 8 (atomOp op (BitVec.ofNat 64 (leNat bs1)) b c).toNat)
    dsimp only
    split <;> rename_i e' <;> rw [e'] at k <;> exact k

end Sys2Proof.Machine
end

