-- ==== Sys2Proof/Laws/Xlate.lean ====
section
/-! SUPPORT. What translating an access may change: an access that translates leaves everything but the translation
system as it was; moving bytes at translated pieces changes what an access to memory changes, and host memory. -/

namespace Sys2Proof.Machine

/-- Only the translation system differs. -/
def OnlyXltSys (s t : State) : Prop := { t with xlt := s.xlt } = s

theorem OnlyXltSys.trans {a b c : State} (h : OnlyXltSys a b) (g : OnlyXltSys b c) : OnlyXltSys a c := by
  cases a; cases b; cases c
  simp only [OnlyXltSys, State.mk.injEq] at h g ⊢
  simp_all only [and_self]

theorem onlyXltSys_useEntry (s : State) (rq : Req) (d : SegDesc) (acc dva len entry : Nat) :
    OnlyXltSys s (useEntry s rq d acc dva len entry).1 := by
  unfold useEntry
  dsimp only
  repeat' split
  all_goals rfl

/-- An access that translates changes the translation system alone. -/
theorem onlyXltSys_xlate {s t : State} {rq : Req} {acc dva len : Nat} {x : Tgt}
    (h : xlate s rq acc dva len = (t, .ok x)) : OnlyXltSys s t := by
  unfold xlate at h
  split at h
  · repeat' split at h
    all_goals cases h
  · rename_i i d _
    dsimp only at h
    split at h
    · rename_i e _
      have g := onlyXltSys_useEntry (l1Insert s rq.fb rq.port e) rq d acc dva len e.entry
      rw [h] at g
      exact OnlyXltSys.trans (b := l1Insert s rq.fb rq.port e) rfl g
    · split at h
      · rename_i e _
        have g := onlyXltSys_useEntry (l1Insert s rq.fb rq.port e) rq d acc dva len e.entry
        rw [h] at g
        exact OnlyXltSys.trans (b := l1Insert s rq.fb rq.port e) rfl g
      · cases h

/-- State `t` with all that an access to memory or a host write changes taken from `s`. -/
def takePieces (s t : State) : State :=
  { t with
    mem := s.mem, gmem := s.gmem, dram := s.dram, evt := s.evt, mer := s.mer, free := s.free, hostMem := s.hostMem
    host := { t.host with lastRo := s.host.lastRo } }

/-- Only what an access to memory changes, host memory and the header of its last write differ. -/
def OnlyPieces (s t : State) : Prop := takePieces s t = s

theorem OnlyPath.pieces {s t : State} (h : OnlyPath s t) : OnlyPieces s t :=
  Eq.trans (show takePieces s t = takePieces s s from (congrArg (takePieces s) h : takePieces s _ = takePieces s s)) rfl

theorem OnlyPieces.trans {a b c : State} (h : OnlyPieces a b) (g : OnlyPieces b c) : OnlyPieces a c :=
  Eq.trans (show takePieces a c = takePieces a b from (congrArg (takePieces a) g : takePieces a _ = takePieces a b)) h

theorem onlyPieces_writePieces (ro : Bool) (ts : List (Tgt × Nat)) : ∀ (s : State) (bs : List Byte),
    OnlyPieces s (writePieces ro s ts bs).1 := by
  induction ts with
  | nil => exact fun s _ => (OnlyPath.refl s).pieces
  | cons p ts ih =>
    intro s bs
    obtain ⟨t, n⟩ := p
    cases t with
    | dev a =>
      have h := onlyPath_memWrite s a (bs.take n)
      unfold writePieces
      split <;> rename_i e <;> rw [e] at h
      · exact h.pieces
      · exact h.pieces.trans (ih ..)
    | host l a =>
      unfold writePieces
      split
      · exact (OnlyPath.refl s).pieces
      · exact OnlyPieces.trans (b := hostWrite s l ro a (bs.take n)) rfl (ih ..)

theorem onlyPath_readPieces (ts : List (Tgt × Nat)) : ∀ (s : State) (bs : List Byte),
    OnlyPath s (readPieces s ts bs).1 := by
  induction ts with
  | nil => exact fun s _ => .refl s
  | cons p ts ih =>
    intro s bs
    obtain ⟨t, n⟩ := p
    cases t with
    | dev a =>
      have h := onlyPath_memRead s a n
      unfold readPieces
      split <;> rename_i e <;> rw [e] at h
      · exact h
      · have g := ih (memRead s a n).1 bs
        rw [e] at g
        split <;> rename_i e' <;> rw [e'] at g <;> exact h.trans g
    | host l a =>
      have g := ih s (bs.drop n)
      unfold readPieces
      split <;> rename_i e' <;> rw [e'] at g <;> exact g

end Sys2Proof.Machine
end

