-- ==== Sys2Proof/Tests/Slice0.lean ====
section
/-! SUPPORT. The author's tests: a command that each check of WellFormed refuses, words of core instructions written out from the
encoding tables, and for every statement with hypotheses a state and operands that meet them. -/

namespace Sys2Proof.Tests

-- one theorem at a time: a checker thread for each would take more memory than the tests need
set_option Elab.async false

open Sys2Proof Sys2Proof.Machine

/-! ### States -/

/-- A READY thread at the start of a kernel's range, with registers. -/
def thread (rs : Tbl Word) : Thread := { st := .ready, pc := 0x4000, s := rs }

/-- Core 0 with thread `t`. -/
def coreOf (t : Nat) (x : Thread) : Core := { reset := false, ctx := 1, thr := [(t, x)] }

/-- The module with core 0. -/
def withCore (c : Core) : State := { cores := [(0, c)] }

/-- The module with thread `t` of core 0. -/
def withThread (t : Nat) (x : Thread) : State := withCore (coreOf t x)

def segDev : SegDesc := ⟨0, 0, true, true, true, 0, 0, 16, 0, 0⟩

/-- Context 1 is ACTIVE and has a device segment over DVAs from 0, whose page 0 is cached at port 0 of FB0. -/
def mapped (s : State) : State :=
  { s with xlt := { s.xlt with
      ctxs := [(1, { state := 1 })], segs := [(16, some segDev)], l1 := [(0, [⟨⟨1, 0, 0⟩, 0x4000001⟩])] } }

/-- A step completes. -/
def completes (o : Out) : Bool := match o with
  | .next _ => true
  | _ => false

theorem clear_of {cs : List Check} (h : (cs.all fun c => !c.1) = true) : Clear cs := by
  intro c hc
  have := List.all_eq_true.mp h c hc
  cases hb : c.1
  · rfl
  · rw [hb] at this
    exact Bool.noConfusion this

/-! ### Well-formed commands: a term that each check refuses -/

def hdr : Hdr := ⟨0, 1, 0, 0, 0, 0, 0⟩
def flit : Flit := ⟨0, 0, 0, 0, 0, 1, false, false, false, 0, 0, 0, 0, 0, 0, List.replicate 128 0⟩
def fpkt : FPkt := ⟨0, 0, 0, 0, 0, 0, 0, 0, 0, 0, 0, 0, 0, 0, 0, 0, [], 1⟩
def chunk : MillChunk := ⟨0, 0, 0, 0, [], 1⟩
def cvt : CvtOpt := ⟨1, 1, 0, false, 0⟩

theorem test_wf_header : (Sys2Proof.Instr.nop hdr).wf = true ∧ (Sys2Proof.Instr.nop { hdr with ring := 64 }).wf = false ∧
    (Sys2Proof.Instr.nop { hdr with ctx := 32 }).wf = false ∧ (Sys2Proof.Instr.nop { hdr with vis := 4 }).wf = false ∧
    (Sys2Proof.Instr.nop { hdr with compl := 4 }).wf = false := by decide +kernel

theorem test_wf_dies : (Sys2Proof.Instr.heartbeatLost (.fb 3)).wf = true ∧ (Sys2Proof.Instr.heartbeatLost (.fb 4)).wf = false ∧
    (Sys2Proof.Instr.heartbeatLost (.sc 16)).wf = false ∧ (Sys2Proof.Instr.scReset 16).wf = false ∧
    (Sys2Proof.Instr.reeveWake 4).wf = false ∧ (Sys2Proof.Instr.clusterWake 0 17).wf = false ∧
    (Sys2Proof.Instr.railFault 0 8 0).wf = false ∧ (Sys2Proof.Instr.clockMonitorWindow 0 3 0 0 0).wf = false := by decide +kernel

theorem test_wf_bundles : (Sys2Proof.Instr.bundleRetrainDone ⟨3, 1, 7, 1⟩).wf = true ∧
    (Sys2Proof.Instr.bundleRetrainDone ⟨4, 0, 0, 0⟩).wf = false ∧
    (Sys2Proof.Instr.bundleRetrainDone ⟨0, 2, 0, 0⟩).wf = false ∧
    (Sys2Proof.Instr.bundleRetrainDone ⟨0, 0, 8, 0⟩).wf = false ∧
    (Sys2Proof.Instr.bundleRetrainDone ⟨0, 0, 0, 2⟩).wf = false := by decide +kernel

theorem test_wf_ports : (Sys2Proof.Instr.meshFlitArrival ⟨0, 63, 15⟩ flit).wf = true ∧
    (Sys2Proof.Instr.meshFlitArrival ⟨0, 64, 0⟩ flit).wf = false ∧
    (Sys2Proof.Instr.meshFlitArrival ⟨0, 0, 16⟩ flit).wf = false ∧
    (Sys2Proof.Instr.meshFlitArrival ⟨0, 0, 0⟩ { flit with chunk := 16 }).wf = false ∧
    (Sys2Proof.Instr.meshFlitArrival ⟨0, 0, 0⟩ { flit with prio := 4 }).wf = false ∧
    (Sys2Proof.Instr.meshFlitArrival ⟨0, 0, 0⟩ { flit with data := [] }).wf = false ∧
    (Sys2Proof.Instr.creditReturn ⟨0, 0, 0⟩ 12).wf = false := by decide +kernel

theorem test_wf_mill : (Sys2Proof.Instr.millPartialReceive 0 19 chunk .ok).wf = true ∧
    (Sys2Proof.Instr.millPartialReceive 256 0 chunk .ok).wf = false ∧
    (Sys2Proof.Instr.millPartialReceive 0 20 chunk .ok).wf = false ∧
    (Sys2Proof.Instr.millPartialReceive 0 0 { chunk with group := 256 } .ok).wf = false ∧
    (Sys2Proof.Instr.millResultReceive (.router 256) chunk).wf = false ∧
    (Sys2Proof.Instr.millResultReceive (.member 4096) chunk).wf = false := by decide +kernel

def group : GroupDesc :=
  ⟨0, 0, 0, 0, 1, 1, 0, false, 0, 0, 0, 32, 0, 1, 0, 0, 0, 0, 0, 1, 0, [0, 1]⟩

theorem test_wf_fields : (Sys2Proof.Instr.redGroupCreate hdr group).wf = true ∧
    (Sys2Proof.Instr.redGroupCreate hdr { group with members := [1, 1] }).wf = false ∧
    (Sys2Proof.Instr.redGroupCreate hdr { group with anchor := 512 }).wf = false ∧
    (Sys2Proof.Instr.segMap hdr 1 0 segDev).wf = true ∧
    (Sys2Proof.Instr.segMap hdr 1 0 { segDev with page := 2 }).wf = false ∧
    (Sys2Proof.Instr.rglSet hdr ⟨8, 0, 0, 0, 0, 0, []⟩).wf = false ∧
    (Sys2Proof.Instr.rglSet hdr ⟨0, 0, 0, 0, 0, 0, [(256, 0)]⟩).wf = false ∧
    (Sys2Proof.Instr.fill hdr ⟨false, 0, 2 ^ 64⟩ 0 0 0 []).wf = false := by decide +kernel

theorem test_wf_packets : (Sys2Proof.Instr.fabricForward 95 fpkt).wf = true ∧ (Sys2Proof.Instr.fabricForward 96 fpkt).wf = false ∧
    (Sys2Proof.Instr.fabricForward 0 { fpkt with dst := 16384 }).wf = false ∧
    (Sys2Proof.Instr.trainingExchange 0 ⟨0, 0, 0, 0, false, 16384, 0⟩).wf = false ∧
    (Sys2Proof.Instr.trainingExchange 0 ⟨0, 0, 0, 0, false, 0, 96⟩).wf = false ∧
    (Sys2Proof.Instr.startStepEnd 0 ⟨false, false, [4], [], [], [], [], []⟩).wf = false ∧
    (Sys2Proof.Instr.eventRaise ⟨65536, 0, 0, 0, 0⟩).wf = false := by decide +kernel

theorem test_wf_accesses : (Sys2Proof.Instr.granaryBankAccess 0 256 false [] .ok []).wf = true ∧
    (Sys2Proof.Instr.granaryBankAccess 8 256 false [] .ok []).wf = false ∧
    (Sys2Proof.Instr.granaryBankAccess (2 ^ 40) 8 false [] .ok []).wf = false ∧
    (Sys2Proof.Instr.granaryBankAccess 0 8 true [] .ok []).wf = false ∧
    (Sys2Proof.Instr.bankAtomic 4 0 0 0).wf = false ∧ (Sys2Proof.Instr.memoryWrite 63 (List.replicate 194 0) []).wf = false ∧
    (Sys2Proof.Instr.registerWrite 0 9 0 false false).wf = false ∧
    (Sys2Proof.Instr.registerWrite 67108864 8 0 false false).wf = false ∧
    (Sys2Proof.Instr.commandWindowWrite 0 0 65536 [0]).wf = false ∧ (Sys2Proof.Instr.hotReset 4).wf = false ∧
    (Sys2Proof.Instr.ringDisable 64).wf = false := by decide +kernel

theorem test_wf_core : (Sys2Proof.Instr.add 4095 15 7 63 63 63).wf = true ∧ (Sys2Proof.Instr.add 4096 0 0 0 0 0).wf = false ∧
    (Sys2Proof.Instr.add 0 16 0 0 0 0).wf = false ∧ (Sys2Proof.Instr.add 0 0 8 0 0 0).wf = false ∧
    (Sys2Proof.Instr.add 0 0 0 64 0 0).wf = false ∧ (Sys2Proof.Instr.addi 0 0 0 0 0 (2 ^ 35)).wf = false ∧
    (Sys2Proof.Instr.addi 0 0 0 0 0 (-(2 ^ 35))).wf = true ∧ (Sys2Proof.Instr.lih 0 0 0 0 (2 ^ 28)).wf = false ∧
    (Sys2Proof.Instr.vaddi 0 0 0 16 0 0).wf = false ∧ (Sys2Proof.Instr.vcvt 0 0 0 0 0 { cvt with rm := 8 }).wf = false ∧
    (Sys2Proof.Instr.tzero 0 0 0 4 false 0).wf = false ∧ (Sys2Proof.Instr.twait 0 0 0 8 0).wf = false := by decide +kernel

/-- An ill-formed term only leaves the queue; an empty queue idles. -/
theorem test_step_ill_formed : step { State.reset with pending := [.scReset 16] } = .next State.reset ∧
    step State.reset = .next State.reset := ⟨rfl, rfl⟩

/-! ### Decoding: words written out from R92 to R104 -/

/-- Scalar (R93): SUB p0 s1 s2 s3, LI s5 -2, NOP, BR -1 under p2. -/
theorem test_decode_scalar : decodeCore 0 1 0x0020_0420_C000_0000 = some (.sub 0 1 0 1 2 3) ∧
    decodeCore 0 1 0x0100_140F_FFFF_FFFE = some (.li 0 1 0 5 (-2)) ∧ decodeCore 0 1 0 = some (.nopInstr 0 1 0) ∧
    decodeCore 0 1 0x0202_000F_FFFF_FFFF = some (.br 0 1 2 (-1)) := by decide +kernel

/-- Vector (R96): VMINF v1 v2 v3, VCMP p1 v2 v3 (FP, cmp 1), VEXT s1 v2 lane 63. -/
theorem test_decode_vector : decodeCore 0 1 0x1040_0420_C000_0001 = some (.vminf 0 1 0 1 2 3) ∧
    decodeCore 0 1 0x1100_0420_C000_0009 = some (.vcmp 0 1 0 1 2 3 1 true) ∧
    decodeCore 0 1 0x1130_0420_0000_003F = some (.vext 0 1 0 1 2 63) := by decide +kernel

/-- Tensor (R97): the worked encoding, TZERO a2 EXACT with anchor -1, TREL a3. -/
theorem test_decode_tensor : decodeCore 0 1 0x2000_5C70_4146_4000 = some (.tmma 0 1 0 1 0x1C 0x1C 4 5 6 2) ∧
    decodeCore 0 1 0x2010_BFF8_0000_0000 = some (.tzero 0 1 0 2 true (-1)) ∧
    decodeCore 0 1 0x2040_C000_0000_0000 = some (.trel 0 1 0 3) := by decide +kernel

/-- Memory (R98): LDS s1 [s2] of 8 bytes, STG [s1] s2 of 4 bytes at DEVICE, ATOM code 2. -/
theorem test_decode_memory : decodeCore 0 1 0x3000_0420_0000_0060 = some (.lds 0 1 0 1 2 3) ∧
    decodeCore 0 1 0x3090_0010_8000_0048 = some (.stg 0 1 0 1 2 2 1) ∧
    decodeCore 0 1 0x3180_0420_C400_0200 = some (.atom 0 1 0 1 2 3 4 2 0) := by decide +kernel

/-- Synchronisation (R101, R102): TSET c1 s2, BAR of threads 1 and 2, ECALL 7. -/
theorem test_decode_sync : decodeCore 0 1 0x4020_0420_0000_0000 = some (.tset 0 1 0 1 2) ∧
    decodeCore 0 1 0x4080_0000_0000_0006 = some (.bar 0 1 0 6) ∧
    decodeCore 0 1 0x4310_0000_0000_0007 = some (.ecall 0 1 0 7) := by decide +kernel

/-- Fabric (R103): RGET, XRECV; monitor (R104): THCTL stop of the thread in s1, THRD. -/
theorem test_decode_fabric_monitor : decodeCore 0 1 0x5010_0010_8300_0004 = some (.rget 0 1 0 1 2 3 4 0) ∧
    decodeCore 0 1 0x5110_0010_8300_0000 = some (.xrecv 0 1 0 1 2 3) ∧
    decodeCore 0 0 0x7000_0010_0000_0003 = some (.thctlStop 0 0 0 1) ∧
    decodeCore 0 0 0x7010_0420_C000_0041 = some (.thrd 0 0 0 1 2 3 0x41) := by decide +kernel

/-- No row of the table gives bits. -/
theorem test_table_words : decodeTableWord 64 0 = none ∧ State.reset.withFetchWord 64 0 = State.reset := by decide +kernel

/-! ### Witnesses: the step, the scalar group, faults -/

/-- For StepRunsTheFrontCommand: a well-formed command at the front runs. -/
theorem witness_step : (Sys2Proof.Instr.inputRising40v).wf = true ∧
    completes (step { State.reset with pending := [.inputRising40v] }) = true := by decide +kernel

/-- For MemoriesWfKept: reset meets the invariant and its next step completes. -/
theorem witness_memories : MemoriesWf { State.reset with pending := [.inputRising40v] } ∧
    completes (step { State.reset with pending := [.inputRising40v] }) = true :=
  ⟨⟨by decide, by decide, by decide, by decide⟩, by decide +kernel⟩

/-- The hypotheses of ScalarResults, PredicateResults, BranchesAndPlain, DeviceMemory's PREF and of every other statement
about an instruction that may issue: thread 1 of core 0 is READY at 0x4000. -/
theorem witness_mayIssue : MayIssue (withThread 1 (thread [])) 0 1 0 :=
  ⟨⟨by decide, by decide, by decide⟩, by decide⟩

/-- The same for thread 0. -/
theorem witness_mayIssue_monitor : MayIssue (withThread 0 (thread [])) 0 0 0 :=
  ⟨⟨by decide, by decide, by decide⟩, by decide⟩

/-- The last instruction of the store may issue only where another follows it (R83). -/
theorem witness_mayIssue_last : MayIssue (withThread 1 { thread [] with pc := 0xFFF0 }) 0 1 0 ∧
    pcOk 1 (0xFFF8 + 8) = false := ⟨⟨⟨by decide, by decide, by decide⟩, by decide⟩, by decide⟩

/-- For VectorIntegerLanes, VectorFloatLanes, LaneSumTree and VectorConversions: a vector instruction issues whatever its
predicate's bit 0. -/
theorem witness_mayIssueV : MayIssueV (withThread 1 { thread [] with p := [(1, 2)] }) 0 1 :=
  ⟨by decide, by decide, by decide⟩

/-- For PredicateResults' predicate that is off: p1 is 0 after a start. -/
theorem witness_predicate_off : predOf (.add 0 1 1 2 3 4) = some (0, 1, 1) ∧
    ((withThread 1 (thread [])).thr 0 1).st = .ready ∧ ((withThread 1 (thread [])).thr 0 1).dfr = none ∧
    (((withThread 1 (thread [])).thr 0 1).rp 1).getLsbD 0 = false := by decide +kernel

/-- For BranchesAndPlain: branches to the ends of a kernel's range, and a JR. -/
theorem witness_branches :
    let x := (withThread 1 { thread [(2, 0x1FFF8)] with pc := 0x4008 }).thr 0 1
    pcOk 1 ((x.pc.toNat : Int) + 8 * (-1)) = true ∧ pcOk 1 ((x.pc.toNat : Int) + 8 * 0x17FE) = true ∧
    (x.rs 2).toNat % 8 = 0 ∧ pcOk 1 ((x.rs 2).toNat % 2 ^ 16 : Nat) = true := by decide +kernel

/-- For CoreFaults: a deferred fault that waits. -/
theorem witness_deferred :
    let x := (withThread 1 { thread [] with dfr := some (3, cMEM, 0x0300, 0x4000, 64) }).thr 0 1
    predOf (.nopInstr 0 1 0) = some (0, 1, 0) ∧ x.st = .ready ∧ x.dfr = some (3, cMEM, 0x0300, 0x4000, 64) ∧
    (0x0300 : Nat) ≠ 0x0401 := by decide +kernel

/-- For CoreTraps: a JR off 8, branches to both sides of the range, a mask with thread 0 and one without the own thread,
registers the monitor knows. -/
theorem witness_core_traps :
    let x := (withThread 1 (thread [(2, 0x4004), (3, 64)])).thr 0 1
    (x.rs 2).toNat % 8 ≠ 0 ∧ pcOk 1 ((x.rs 2).toNat % 2 ^ 16 : Nat) = true ∧ pcOk 1 ((x.rs 3).toNat % 2 ^ 16 : Nat) = false ∧
    pcOk 1 ((x.pc.toNat : Int) + 8 * (-1)) = false ∧ pcOk 1 ((x.pc.toNat : Int) + 8 * 0x1800) = false ∧
    (3 : BitVec 16).getLsbD 0 = true ∧ (4 : BitVec 16).getLsbD 1 = false ∧ csrKnown 0 = true ∧ csrKnown 0x1F8 = true ∧
    x.rs 3 = BitVec.ofNat 64 (64 * 1) := by decide +kernel

/-- For CoreTraps' local store: the monitor's region, off its size, beyond the store, an uncorrectable word. -/
theorem witness_local_traps :
    inMon 1 0x3DFFC 8 = true ∧ inMon 1 4 8 = false ∧ 4 % 2 ^ 3 ≠ 0 ∧ inMon 0 0x3FFFC 8 = false ∧ lsTop < 0x3FFFC + 2 ^ 3 ∧
    badWord [(1, true)] 8 8 = some 1 ∧ inMon 1 8 8 = false := by decide +kernel

/-- For CoreTraps' stalls: sixteen operations in flight. -/
theorem witness_stall :
    let c := { coreOf 1 (thread [(3, 32)]) with aops := List.replicate 16 ⟨0, 1, 0x4000, 0, .cpin 0 0 32 1 0 0, 0, 0, [], []⟩ }
    16 ≤ opsOf ((withCore c).core 0) 1 ∧ Clear (copyChecks 1 0 0 32 1 0 0 0 false) :=
  ⟨by decide, clear_of (by decide)⟩
/-! ### Witnesses: vectors and local store -/

/-- For VectorIntegerLanes' comparisons and VectorConversions: operands in range, and the options of each conversion at
the ends of theirs. -/
theorem witness_conversions : isElemFmt 0x01 = true ∧ isElemFmt 0x12 = true ∧ (mxElem 0x18).isSome = true ∧
    (mxElem 0x1D).isSome = true ∧ ({ cvt with k := 62, rm := 4 } : CvtOpt).k ≤ 62 ∧ (3 : Nat) < 4 ∧ 7 % 8 ≠ 0 := by decide

/-- For LocalStoreAccess: the first and the last 8 bytes of a kernel's part of local store, and its last 256. -/
theorem witness_local :
    let s := withThread 1 (thread [(1, 0x3DFF8), (2, 0x3DF00)])
    ((s.thr 0 1).rs 1).toNat % 2 ^ 3 = 0 ∧ ((s.thr 0 1).rs 2).toNat % 32 = 0 ∧ GoodRange s 0 1 0 (2 ^ 3) ∧
    GoodRange s 0 1 0x3DFF8 (2 ^ 3) ∧ GoodRange s 0 1 0x3DF00 256 :=
  ⟨by decide +kernel, by decide +kernel, ⟨by decide +kernel, by decide +kernel, by decide +kernel⟩,
    ⟨by decide +kernel, by decide +kernel, by decide +kernel⟩, ⟨by decide +kernel, by decide +kernel, by decide +kernel⟩⟩

/-! ### Witnesses: asynchronous instructions -/

/-- Thread 1 with operands for each asynchronous instruction, its context allowed raw packets of link 0 and its module 0. -/
def asyncState : State :=
  let s := mapped (withThread 1 (thread [(1, 0x100), (2, 0x400), (3, 32), (4, 0x0001000000000000#64 + 32), (5, 0x400), (6, 0)]))
  { s with
    xlt := { s.xlt with ctxs := [(1, { state := 1, raw := true, reach := [0] })] }
    fab := { s.fab with links := [(0, { st := 3, rawCtx := 1 })] } }

theorem witness_slot : SlotFree asyncState 0 1 := ⟨by decide +kernel, by decide +kernel⟩

/-- For AsyncIssue: the operands of one-row and of two-dimensional copies, of LDQB, RPUT, RATOM and XSEND. -/
theorem witness_async :
    let x := asyncState.thr 0 1
    let w := twoD (BitVec.ofNat 64 (2 ^ 24 + 32)) (BitVec.ofNat 64 (2 ^ 48 * 32 + 32))
    MayIssue asyncState 0 1 0 ∧ Clear (copyChecks 1 (x.rs 1).toNat (x.rs 2).toNat (x.rs 3).toNat 1 0 0 2 false) ∧
    w = (32, 1, 32, 32) ∧ Clear (copyChecks 1 0x100 0x400 w.1 w.2.1 w.2.2.1 w.2.2.2 2 true) ∧
    ((x.rs 1).toNat % 256 = 0 ∧ (x.rs 1).toNat + 8192 ≤ monLs ∧ (x.rs 5).toNat % 64 = 0 ∧ (x.rs 2).toNat % 16 = 0 ∧
      (x.rs 6).toInt % 16 = 0) ∧
    Clear (remoteChecks 1 (x.rs 1).toNat (x.rs 2).toNat (x.rs 3).toNat 2 ++ gaChecks asyncState 0 1 (x.rs 2).toNat 32) ∧
    Clear (gaChecks asyncState 0 1 (x.rs 2).toNat 8) ∧ rawOk asyncState 0 1 (bits (x.rs 6).toNat 6 0) = true ∧
    (asyncState.ctx (asyncState.core 0).ctx).reach.contains (asyncState.flink 0).partner = true :=
  ⟨⟨⟨by decide +kernel, by decide +kernel, by decide +kernel⟩, by decide +kernel⟩, clear_of (by decide +kernel),
    by decide +kernel, clear_of (by decide +kernel), by decide +kernel, clear_of (by decide +kernel),
    clear_of (by decide +kernel), by decide +kernel, by decide +kernel⟩

/-- For AsyncIssue's IFETCH: the monitor may write a kernel's part of the instruction store while no kernel is live. -/
theorem witness_ifetch : let s := withThread 0 (thread [(1, 0x4000), (3, 8)])
    kernelsLive s 0 = false ∧ 0x4000 % 8 = 0 ∧ 0x4000 + 8 ≤ 0x10000 := by decide +kernel

/-! ### Witnesses: device memory -/

/-- Thread 1 with DVA 64 in s1: it translates to DPA 0x4000040. -/
def memState : State := mapped (withThread 1 (thread [(1, 64), (2, 5), (3, 7)]))

/-- Nothing of any agent is under way where no access is held and no read is out. -/
theorem fresh_of {s : State} (a : Agent) (h : s.xlt.atHome.isEmpty = true)
    (hr : (s.host.links.all fun e => e.2.reads.isEmpty) = true) : Fresh s a := by
  refine ⟨fun h1 hm => ?_, ?_⟩
  · rw [List.isEmpty_iff.mp h] at hm; cases hm
  · rw [readsOf, List.flatMap_eq_nil_iff]
    intro e he
    rw [List.isEmpty_iff.mp (List.all_eq_true.mp hr e he)]
    rfl

/-- For GlobalAccess and ThreadWaits' polls: the thread has nothing under way, the access translates and the home serves
it. -/
theorem witness_fresh : Fresh memState (.thread 0 1) ∧ MayIssue memState 0 1 0 ∧ ((memState.thr 0 1).rs 1).toNat % 8 = 0 :=
  ⟨fresh_of _ (by decide +kernel) (by decide +kernel), ⟨⟨by decide +kernel, by decide +kernel, by decide +kernel⟩,
    by decide +kernel⟩, by decide +kernel⟩

theorem witness_global :
    let s := memState
    let s1 := (xlate s (coreReq s 0 1 (.thread 0 1)) 0 64 8).1
    (xlate s (coreReq s 0 1 (.thread 0 1)) 0 64 8).2 = .ok (.dev 0x4000040) ∧
    (xlate s (coreReq s 0 1 (.thread 0 1)) 1 64 8).2 = .ok (.dev 0x4000040) ∧
    (xlate s (coreReq s 0 1 (.thread 0 1)) 2 64 8).2 = .ok (.dev 0x4000040) ∧
    (memRead s1 0x4000040 8).2 = .ok [0, 0, 0, 0, 0, 0, 0, 0] ∧
    (memWrite s1 0x4000040 (leBytes 8 5)).2 = none ∧ (memAtom s1 0x4000040 2 5 7).2 = .ok 0 := by
  refine ⟨rfl, rfl, rfl, rfl, rfl, rfl⟩

/-- For GlobalAccess: the home holds the access while the row is under repair. -/
theorem witness_global_held :
    let s := { memState with dram := { memState.dram with repairing := [rowOf 0x4000040] } }
    let s1 := (xlate s (coreReq s 0 1 (.thread 0 1)) 0 64 8).1
    (xlate s (coreReq s 0 1 (.thread 0 1)) 0 64 8).2 = .ok (.dev 0x4000040) ∧
    (∃ h, (memRead s1 0x4000040 8).2 = .error (.held h)) ∧ ∃ h, (memWrite s1 0x4000040 (leBytes 8 5)).2 = some (.held h) :=
  ⟨rfl, ⟨_, rfl⟩, ⟨_, rfl⟩⟩

/-- A load of the thread brings the word and goes on (R98). -/
theorem test_ldg : completes (exec (.ldg 0 1 0 4 1 3) { memState with mem := [(0x4000040, 9)] }) = true ∧
    (match exec (.ldg 0 1 0 4 1 3) { memState with mem := [(0x4000040, 9)] } with
      | .next s => ((s.thr 0 1).rs 4, (s.thr 0 1).pc) | _ => (0, 0)) = (9, 0x4008) := by decide +kernel

/-- For GlobalAccess' PREF: an address above the 56 bits of a DVA. -/
theorem witness_pref : 2 ^ 56 ≤ ((withThread 1 (thread [(1, 0x100000000000000)])).thr 0 1 |>.rs 1).toNat := by decide +kernel

/-- For DeviceMemory: a write and a read of device memory with the cache ON, across two lines, and of scratch that is
backed. -/
theorem witness_granary :
    let s : State := { State.reset with dram := { State.reset.dram with
      grn := [(0, { state := 1, enable := true })], ratDefault := { vis := 1, policy := 0 },
      banks := [(0, { w := 2, scr := [(0, 0), (1, 1)] })] } }
    (memWrite s 0x1FC [1, 2, 3, 4, 5, 6, 7, 8]).2 = none ∧ (memRead s 0x1FC 2).2 = .ok [0, 0] ∧
    (memWrite s 0xF000000000 [1, 2]).2 = none ∧ (memRead s 0xF000000000 2).2 = .ok [0, 0] ∧
    isDev 0xBFFFFFFFFF = true ∧ isDev 0xC000000000 = false ∧ s.lost 1 = false :=
  ⟨by decide +kernel, rfl, by decide +kernel, rfl, by decide +kernel, by decide +kernel, by decide +kernel⟩

/-- A dirty line keeps what was written where the array does not hold it yet (R116, R120). -/
theorem test_write_back :
    let s : State := { State.reset with dram := { State.reset.dram with
      grn := [(0, { state := 1, enable := true })], ratDefault := { vis := 1, policy := 0 } } }
    let t := (memWrite s 0x40 [7]).1
    Memory.read t.mem 0x40 = 0 ∧ view t 0x40 = 7 ∧ (t.cline 0).isSome = true := by decide +kernel

/-- For DeviceMemory's translation: the page is cached at the port. -/
theorem witness_cached :
    let rq := coreReq memState 0 1 (.thread 0 1)
    findSeg memState rq.ctx 64 = some (0, segDev) ∧
    ((l1Of memState rq.fb rq.port).find? fun e => e.key = ⟨rq.ctx, 0, (64 - segDev.base) / pageSize segDev⟩) =
      some ⟨⟨1, 0, 0⟩, 0x4000001⟩ ∧ segDev.kind = 0 := by decide +kernel

/-- For DeviceMemoryMap: the last byte below 192 GiB of quadrant 3. -/
theorem test_device_map : homeQ 0xBFFFFFFFFF = 0 ∧ quadOff 0xBFFFFFFFFF = 0x2FFFFFFFFF ∧ homeQ 0x100000 = 1 ∧
    homeQ 0x400000 = 1 ∧ quadOff 0x400000 = 0x100000 := by decide
/-! ### Witnesses: tensor unit, operations, issue -/

/-- Thread 1 owns tile a1 (FP32) and tile a2 (EXACT); s4 to s7 are operands of R97's worked encoding and of a readout. -/
def tensorCore : Core :=
  { coreOf 1 (thread [(4, 0x4000), (5, 0x4800), (6, 0x0000608000006000), (7, 0x10000000000 + 2 ^ 28)]) with
    tiles := [(1, { owner := some 1 }), (2, { owner := some 1, exact_ := true }), (3, { owner := some 2 })] }
def tensorState : State := withCore tensorCore

/-- For TensorIssue: the worked encoding's operands and a readout of FP32 rows with a pitch of 256. -/
theorem witness_tensor :
    let c := tensorState.core 0
    let x := tensorState.thr 0 1
    let w := (x.rs 7).toNat
    MayIssue tensorState 0 1 0 ∧ SlotFree tensorState 0 1 ∧ owns c 1 1 = true ∧ isT 0x1C = true ∧
    tclass 0x1C = tclass 0x1C ∧ (ls18 (x.rs 4) % 256 = 0 ∧ ls18 (x.rs 4) + 64 * pitchOf 0x1C ≤ lsTop ∧
      inMon 1 (ls18 (x.rs 4)) (64 * pitchOf 0x1C) = false) ∧ ls18 (x.rs 6 >>> 32) = 0x6080 ∧
    trdTarget (c.tile 1).exact_ 0x01 = true ∧ trdTarget (c.tile 2).exact_ 0x3E = true ∧ bits w 35 20 = 256 ∧
    rowBytes 0x01 ≤ bits w 35 20 ∧ w % 2 ^ 18 + (63 * bits w 35 20 + rowBytes 0x01) ≤ lsTop ∧
    inMon 1 (w % 2 ^ 18) (63 * bits w 35 20 + rowBytes 0x01) = false ∧ bits w 57 40 + 128 ≤ lsTop :=
  ⟨⟨⟨by decide +kernel, by decide +kernel, by decide +kernel⟩, by decide +kernel⟩,
    ⟨by decide +kernel, by decide +kernel⟩, by decide +kernel⟩

/-- For TensorIssue's save images: thread 0 with an address that is a multiple of 64. -/
theorem witness_tsave : let s := withThread 0 (thread [(1, 0x1000)])
    ((s.thr 0 0).rs 1).toNat % 64 = 0 ∧ ((s.thr 0 0).rs 1).toNat < 2 ^ 56 ∧ (s.core 0).rq.length < 2 := by decide +kernel

/-- For TensorIssue's ownership: a free tile, the own tile and another thread's. -/
theorem witness_tiles : let c := tensorState.core 0
    (c.tile 0).owner = none ∧ tilePending c 0 c.nextId = false ∧ (c.tile 3).owner = some 2 ∧ owns c 1 1 = true ∧
    tilePending { c with aops := [⟨0, 1, 0x4000, 0, .tlda 1 1 0 0, 0, 0, [], []⟩], nextId := 1 } 1 1 = true := by
  decide +kernel

/-- For ExactOrderFree: two products in both orders, one of them special. -/
theorem witness_perm : [Val.inf false, .fin false 3 (-1)].Perm [.fin false 3 (-1), .inf false] := List.Perm.swap ..

/-- The special bits stay whatever comes after (R68), and a product that does not fit the grid is truncated with TR
(R67). -/
theorem test_exact : ([Val.inf false, .fin false 3 (-1)].foldl (stepExact1 96) ({}, 0)) =
    ({ g := 1, pinf := true }, fTR) := by decide +kernel

/-- For TensorEngines' images: a fresh tile of each mode. -/
theorem witness_image : ∀ tl ∈ [({} : Tile), { exact_ := true, anchor := -512, owner := some 15 }],
    -512 ≤ tl.anchor ∧ tl.anchor < 512 ∧ (∀ u, tl.owner = some u → u < 16) ∧ tl.releasing = none ∧
    (∀ k, (tget {} tl.elems k).bad = false) ∧ (∀ k, 4096 ≤ k → tget {} tl.elems k = {}) ∧
    (tl.exact_ = false → ∀ k, (tget {} tl.elems k).g.toNat < 2 ^ 32) := by
  intro tl h
  simp only [List.mem_cons, List.not_mem_nil, or_false] at h
  rcases h with rfl | rfl
  · exact ⟨by decide, by decide, fun _ h => Option.noConfusion rfl (heq_of_eq h), rfl, fun _ => rfl, fun _ _ => rfl,
      fun _ _ => (by decide : ((0 : BitVec 160)).toNat < 2 ^ 32)⟩
  · refine ⟨by decide, by decide, ?_, rfl, fun _ => rfl, fun _ _ => rfl, fun h => Bool.noConfusion h⟩
    intro u h
    cases h
    decide

def trdOp : AOp := ⟨0, 1, 0x4000, 2, .trd 1 ⟨0x01, 0, false, true, false⟩ 0 256 0 0 0 0, 0, 0, [], []⟩
def tmmaOp : AOp := ⟨1, 1, 0x4000, 2, .tmma 1 0x02 0x02 0x4000 0x4800 0 0, 0, 0, [], []⟩

/-- For TensorEngines: the oldest entries of both queues. -/
theorem witness_dispatch :
    let c := { tensorCore with aops := [trdOp, tmmaOp], rq := [0], tq := [1], nextId := 2 }
    c.aops.find? (fun x => x.id = trdOp.id) = some trdOp ∧ c.rq.head? = some trdOp.id ∧
    tilePending c 1 trdOp.id = false ∧ ((c.tile 1).elems.any fun e => e.2.bad) = false ∧
    (let c := { c with aops := [tmmaOp], rq := [] }
     c.aops.find? (fun x => x.id = tmmaOp.id) = some tmmaOp ∧ c.tq.head? = some tmmaOp.id ∧
     tilePending c 1 tmmaOp.id = false ∧ badWord c.lsBad 0x4000 (64 * pitchOf 0x02) = none) := by decide +kernel

/-- For OperationCounts: a readout whose rows are written, and a copy of 32 bytes that may move. -/
theorem witness_counts :
    let o := { trdOp with stage := 3 }
    let s := withCore { tensorCore with aops := [o] }
    let p : AOp := ⟨0, 1, 0x4000, 2, .cpin 0 64 32 1 0 0, 0, 0, [], []⟩
    let m := { memState with cores := [(0, { coreOf 1 (thread []) with aops := [p] })] }
    (s.core 0).aops.find? (fun x => x.id = o.id) = some o ∧ o.stage = 3 ∧ (tileOf o.kind).isSome = true ∧
    (s.core 0).tq.contains o.id = false ∧ o.t < 16 ∧ (m.core 0).aops.find? (fun x => x.id = p.id) = some p ∧
    64 % 256 + 32 ≤ 256 ∧ badWord (m.core 0).lsBad 0 32 = none := by decide +kernel

/-- A copy of 32 bytes: they stand in local store, and one count is made (R89, R99). -/
theorem test_copy_in :
    let p : AOp := ⟨0, 1, 0x4000, 2, .cpin 0 64 32 1 0 0, 0, 0, [], []⟩
    let m := { memState with mem := [(0x4000041, 7)], cores := [(0, { coreOf 1 (thread []) with aops := [p] })] }
    (match exec (.asyncOperationComplete 0 0 []) m with
      | .next s => (Memory.readN (s.core 0).ls 0 2, (s.thr 0 1).rc 2, (s.core 0).aops) | _ => ([], 0, [])) =
    ([0, 7], 1, []) := by decide +kernel

/-- For IssueCycle: thread 1 alone is READY, and its core's cluster runs. -/
def issueState : State :=
  { withCore { coreOf 1 (thread []) with is_ := Memory.writeLe [] 0x4000 8 0x0020_0420_C000_0000 } with
    clk := { running := [(0, 1)] } }

theorem witness_issue :
    issueStopped issueState 0 = false ∧ (issueState.thr 0 1).st = .ready ∧ (issueState.thr 0 1).dfr = none ∧
    pcOk 1 ((issueState.thr 0 1).pc.toNat) = true ∧
    tget false (issueState.core 0).isBad ((issueState.thr 0 1).pc.toNat / 8) = false ∧
    decodeCore 0 1 (fetchWord issueState 0 1) = some (.sub 0 1 0 1 2 3) ∧ issueStopped State.reset 0 = true ∧
    completes (exec (.sub 0 1 0 1 2 3) issueState) = true ∧ (issueState.thr 0 1).skip = false := by decide +kernel

theorem witness_issue_alone (u : Nat) (h : u ≠ 1) : (issueState.thr 0 u).st ≠ .ready ∧ (issueState.thr 0 u).skip = false := by
  have : issueState.thr 0 u = {} := by
    show tget ({} : Thread) [(1, _)] u = {}
    simp only [tget, h, ↓reduceIte]
  rw [this]
  decide

/-! ### Witnesses: synchronisation, fabric and monitor groups -/

/-- For TallyCounters: a counter that has reached its target modulo 2^32 and one that has not. -/
theorem witness_tally : (0 : Int) ≤ ((2 : W32) - 0xFFFFFFFF).toInt ∧ ((2 : W32) - 3).toInt < 0 ∧
    (0 : Int) ≤ ((4 : W32) + 1 - 5).toInt := by decide

/-- A count lets a thread go on that waits for it (R90). -/
theorem test_count_wakes :
    let s := withThread 1 { thread [] with st := .waiting, wait := .twait 2 1 }
    let x := (countOp s 0 ⟨0, 1, 0x4000, 2, .cpin 0 0 32 1 0 0, 0, 0, [], []⟩ 0).thr 0 1
    x.st = .ready ∧ x.rc 2 = 1 ∧ x.pc = 0x4008 := by decide +kernel

/-- For ThreadWaits' BAR: threads 1 and 2, of which thread 2 has arrived, and not. -/
theorem witness_bar :
    let s := withCore { coreOf 1 (thread []) with
      thr := [(1, thread []), (2, { thread [] with st := .waiting, wait := .bar 6 })], arrived := [(2, 6)] }
    MayIssue s 0 1 0 ∧ (6 : BitVec 16).getLsbD 0 = false ∧ (6 : BitVec 16).getLsbD 1 = true ∧
    ¬ (s.core 0).arrived.contains (1, 6) ∧
    (∀ u, u < 16 → (6 : BitVec 16).getLsbD u = true → u = 1 ∨ (s.core 0).arrived.contains (u, 6) = true) ∧
    ¬ ∀ u, u < 16 → (6 : BitVec 16).getLsbD u = true → u = 1 ∨ ((withThread 1 (thread [])).core 0).arrived.contains (u, 6) = true :=
  ⟨⟨⟨by decide +kernel, by decide +kernel, by decide +kernel⟩, by decide +kernel⟩, by decide +kernel⟩

/-- For ThreadWaits' BAR: a thread that was held there when the barrier went, and has been resumed. -/
theorem witness_bar_passed :
    let s := withCore { coreOf 1 (thread []) with passed := [(1, 6)] }
    MayIssue s 0 1 0 ∧ (s.core 0).passed.contains (1, 6) = true ∧ (s.core 0).arrived.contains (1, 6) = false :=
  ⟨⟨⟨by decide +kernel, by decide +kernel, by decide +kernel⟩, by decide +kernel⟩, by decide +kernel, by decide +kernel⟩

/-- For ThreadWaits' FENCE: no write is short of its point; one of local store that has not left is, and one at GLOBAL that
has no zero-length read yet. -/
theorem witness_fence :
    let o : AOp := ⟨0, 1, 0x4000, 0, .cpout 0 0 32 1 0 0 0, 0, 0, [], []⟩
    writesPending (withThread 1 (thread [])) 0 1 2 = false ∧
    writesPending (withCore { coreOf 1 (thread []) with aops := [o] }) 0 1 0 = true ∧
    writesPending (withThread 1 { thread [] with hostLinks := [0] }) 0 1 2 = true ∧
    writesPending (withThread 1 { thread [] with hostLinks := [0] }) 0 1 1 = false := by decide +kernel

/-- For ThreadWaits' poll: a thread that waits with its WAITG, whose comparison holds. -/
theorem witness_waitg :
    let x := { thread [(1, 64)] with st := .waiting, wait := .waitg, blk := some (.waitg 0 1 2 0) }
    let s := mapped (withThread 1 x)
    (s.thr 0 1).st = .waiting ∧ (s.thr 0 1).wait = .waitg ∧ (s.thr 0 1).blk = some (.waitg 0 1 2 0) ∧
    pollHolds 0 (BitVec.ofNat 64 (leNat [0, 0, 0, 0, 0, 0, 0, 0])) ((s.thr 0 1).rs 2) = true ∧
    ((s.thr 0 1).rs 1).toNat % 8 = 0 ∧ ((s.thr 0 1).rp 0).getLsbD 0 = true ∧ pcOk 1 ((s.thr 0 1).pc.toNat + 8) = true ∧
    Fresh s (.thread 0 1) ∧
    (let again := s.setThr 0 1 { s.thr 0 1 with st := .ready, dfr := none }
     (xlate again (coreReq again 0 1 (.thread 0 1)) 0 64 8).2 = .ok (.dev 0x4000040)) :=
  ⟨by decide +kernel, by decide +kernel, by decide +kernel, by decide +kernel, by decide +kernel, by decide +kernel,
    by decide +kernel, fresh_of _ (by decide +kernel) (by decide +kernel), rfl⟩

/-- For ThreadEnds: a thread without operations, and one with a copy in flight. -/
theorem witness_exit :
    ((withThread 1 (thread [])).core 0).aops.all (fun o => o.t != 1) = true ∧
    (let c := { coreOf 1 (thread []) with aops := [⟨0, 1, 0x4000, 0, .cpin 0 0 32 1 0 0, 0, 0, [], []⟩] }
     (c.aops.any fun o => o.t = 1 && inSlot c o) = true) := by decide +kernel

/-- For RawReceiveAndMillIssue's XRECV: a packet waits, none waits on an ACTIVE link, none on one that is not. -/
theorem witness_xrecv :
    let s := { asyncState with fab := { asyncState.fab with links := [(0, { st := 3, rawCtx := 1, raw := [fpkt] })] } }
    rawOk s 0 1 0 = true ∧ (s.flink 0).raw = [fpkt] ∧ badWord (s.core 0).lsBad 0x100 (rawImage fpkt 32).length = none ∧
    (asyncState.flink 0).raw = [] ∧ (asyncState.flink 0).st = 3 ∧
    (let t := { asyncState with fab := { asyncState.fab with links := [(0, { rawCtx := 1 })] } }
     rawOk t 0 1 0 = true ∧ (t.flink 0).raw = [] ∧ (t.flink 0).st ≠ 3) := by decide +kernel

/-- For RawReceiveAndMillIssue's MRED and BELL: core 0 is a member of an ACTIVE group with the next sequence 0. -/
theorem witness_mred :
    let s := { withThread 1 (thread [(3, 32)]) with mil := { groups := [(0, { state := 1, ctx := 1, desc := some group })] } }
    groupCheck s 0 1 0 false 0 32 = 0 ∧ groupCheck s 0 1 0 true 0 0 = 0 ∧ (s.group 0).desc = some group ∧
    tget 0 (s.group 0).mseq 0 = 0 ∧ tget 0 (s.group 0).bseq 0 = 0 ∧ (s.core 0).aops = [] := by decide +kernel

/-- For MonitorInstructions: thread 0 with thread 1's number in s1, thread 1 in each of the states that THCTL names. -/
theorem witness_thctl :
    bits ((withThread 0 (thread [(1, 1)])).thr 0 0 |>.rs 1).toNat 3 0 = 1 ∧
    ∀ st ∈ [TState.off, .faulted, .ready, .stalled, .xltWait, .held, .waiting],
      (({ coreOf 0 (thread [(1, 1)]) with thr := [(0, thread [(1, 1)]), (1, { st := st, prev := .ready })] }).thread 1).st =
        st := by decide +kernel

/-- For MonitorInstructions: an event that waits; control registers that are written and that are not. -/
theorem witness_monitor :
    let s := withCore { coreOf 0 (thread [(1, 31), (2, 32)]) with events := [3] }
    (s.core 0).events = [3] ∧ ((withThread 0 (thread [])).core 0).events = [] ∧ csrKnown 8 = true ∧
    kernelsLive s 0 = false ∧ ((s.thr 0 0).rs 1).toNat % 128 = 31 ∧ ((s.thr 0 0).rs 2).toNat % 128 = 32 ∧
    kernelsLive (withThread 1 (thread [])) 0 = true := by decide +kernel

/-- For EncodeDecode: an instruction with every operand at its largest value. -/
theorem witness_encode : predOf (.cpout2 4095 15 7 63 63 63 63 7 2) = some (4095, 15, 7) ∧
    (Sys2Proof.Instr.cpout2 4095 15 7 63 63 63 63 7 2).wf = true ∧
    (encodeCore (.cpout2 4095 15 7 63 63 63 63 7 2)).isSome = true ∧
    vectorOf (.vcmp 0 0 0 7 15 15 3 true) = some (0, 0, 0) := by decide +kernel
/-! ### Witnesses: commands of rings -/

/-- Parameter bytes that hold the given fields. -/
def packet (n : Nat) (fs : List (Nat × Nat × Nat)) : List Byte :=
  fs.foldl (fun bs f => bs.take f.1 ++ leBytes f.2.1 f.2.2 ++ bs.drop (f.1 + f.2.1)) (List.replicate n 0)

/-- A command of ring 0, sequence 0, context 1; `vis` and its completion record as a test needs. -/
def hd : Hdr := { hdr with compl := 2 }

/-- A command of the header `hd` has arrived with its parameters. -/
def flight (op n : Nat) (fs : List (Nat × Nat × Nat)) (s : State) : State :=
  { s with host := { s.host with inflight := [{ cmdOf hd op with running := false, par := packet n fs }] } }

/-- A command of the header `hd` runs. -/
def runs (op : Nat) (s : State) : State := { s with host := { s.host with inflight := [cmdOf hd op] } }

/-- Context 1 with its segment at DVA 0, whose page 0 is cached at the port of FB0's command processor. -/
def hosted : State :=
  let s := mapped State.reset
  { s with xlt := { s.xlt with l1 := [(300, [⟨⟨1, 0, 0⟩, 0x4000001⟩])] } }

def mayStart (s : State) (op : Nat) (fs : List (Nat × Nat × Nat)) : Bool :=
  !(isFw op && reeveDown s 0) && (match beginCmd s hd op fs with
    | some s1 => (s1.ctx 1).state != 3 || isPriv op
    | none => false)

def started (s : State) (op : Nat) (fs : List (Nat × Nat × Nat)) : State := (beginCmd s hd op fs).getD s

theorem starts_of {s : State} {op : Nat} {fs : List (Nat × Nat × Nat)} (h : mayStart s op fs = true) :
    Starts s (started s op fs) op hd fs := by
  unfold mayStart at h
  unfold started Starts
  split at h
  · rename_i s1 hs
    simp only [hs, Option.getD_some, Bool.and_eq_true, Bool.or_eq_true] at h ⊢
    refine ⟨Bool.not_eq_true' _ |>.mp h.1, trivial, fun hc => ?_⟩
    rcases h.2 with h2 | h2
    · exact absurd hc (by simpa [hd, hdr, bne_iff_ne] using h2)
    · exact h2
  · simp at h

theorem startable_of {s : State} {op : Nat} {fs : List (Nat × Nat × Nat)} (h : mayStart s op fs = true) :
    Startable s op hd fs := ⟨_, starts_of h⟩

/-- An access is done with these bytes and links. -/
def isDone (r : Acc) (bs : List Byte) (ls : List Nat) : Bool := match r with
  | .done _ b l => b = bs && l = ls
  | _ => false

theorem done_of {r : Acc} {bs : List Byte} {ls : List Nat} (h : isDone r bs ls = true) : ∃ s, r = .done s bs ls := by
  cases r <;> simp [isDone] at h
  obtain ⟨rfl, rfl⟩ := h
  exact ⟨_, rfl⟩

/-- A translation or an access answers `a`. -/
def isOk {ε α : Type} [DecidableEq α] (r : State × Except ε α) (a : α) : Bool := match r.2 with
  | .ok b => b = a
  | _ => false

theorem ok_of {ε α : Type} [DecidableEq α] {r : State × Except ε α} {a : α} (h : isOk r a = true) :
    ∃ s, r = (s, .ok a) := by
  obtain ⟨s, r⟩ := r
  cases r <;> simp [isOk] at h
  subst h
  exact ⟨s, rfl⟩

/-- For CommandOutcomes: a command whose turn it is, of an ACTIVE and of a STOPPED context. -/
theorem witness_command :
    let s := flight 0x12 64 [] hosted
    let t := { s with xlt := { s.xlt with ctxs := [(1, { state := 3 })] } }
    (isFw 0x12 && reeveDown s (hd.ring / 16)) = false ∧ (beginCmd s hd 0x12 []).isSome = true ∧
    (s.ctx hd.ctx).state ≠ 3 ∧ (beginCmd t hd 0x12 []).isSome = true ∧ (t.ctx hd.ctx).state = 3 ∧ isPriv 0x12 = false := by
  decide +kernel

/-- For CommandOutcomes: NOP, and CTX_CREATE of context 2 on a trained link. -/
theorem witness_ctx_create :
    let fs := [(1, 1, 2), (2, 1, b2n true + 2 * 1), (64, 2048, bitmapOf [3, 16383])]
    let s := flight 0x90 2112 fs { hosted with host := { State.reset.host with links := [(1, { up := true })] } }
    Startable (flight 0 64 [] hosted) 0x00 hd [] ∧ Startable s 0x90 hd fs ∧ (s.ctx 2).state = 0 ∧ trained s 1 = true ∧
    (∀ m ∈ [3, 16383], m ≤ 16383) :=
  ⟨startable_of (by decide +kernel), startable_of (by decide +kernel), by decide +kernel, by decide +kernel, by decide⟩

/-- For CommandOutcomes: SEG_MAP of segment 15 above segment 0. -/
theorem witness_seg_map :
    let d : SegDesc := ⟨0, 1, true, false, false, 0, 2 ^ 31, 4, 8, 0⟩
    let fs := [(1, 1, 1), (2, 1, 15)] ++ descWords d
    let s := flight 0x40 128 fs hosted
    Startable s 0x40 hd fs ∧ (s.ctx 1).state ≠ 0 ∧ (s.ctx 1).closing = false ∧ s.seg 1 15 = none ∧ segBad d = false ∧
    segOverlap s 1 d = false :=
  ⟨startable_of (by decide +kernel), by decide +kernel, by decide +kernel, by decide +kernel, by decide +kernel,
    by decide +kernel⟩

/-- For CommandOutcomes: REGION_REGISTER beside another region, and KERNEL_STOP of a launch. -/
theorem witness_region_stop :
    let fs := [(1, 1, 255), (2, 1, b2n true + 2 * b2n false), (4, 2, (7 : BitVec 16).toNat), (6, 2, (0 : BitVec 16).toNat),
      (8, 8, 4096), (16, 8, 8192)]
    let gs := [(1, 1, 0), (4, 4, (5 : W32).toNat)]
    let l : Launch := ⟨0, 5, 1, 2, 8, 0, 0, 0, [0], [], [], false⟩
    let r : State := { hosted with host := { State.reset.host with regions := [(0, some ⟨true, true, 0, 0, 12288, 4096⟩)] } }
    let k : State := { hosted with host := { State.reset.host with launches := [l] } }
    Startable (flight 0x60 64 fs r) 0x60 hd fs ∧ tget none r.host.regions 255 = none ∧ rangeBacked r 4096 8192 = true ∧
    (∀ e ∈ r.host.regions, ∀ g, e.2 = some g → g.base + g.size ≤ 4096 ∨ 4096 + 8192 ≤ g.base) ∧
    Startable (flight 0x21 64 gs k) 0x21 hd gs ∧ k.launch? 0 5 = some l ∧ l.ctx = hd.ctx :=
  ⟨startable_of (by decide +kernel), by decide +kernel, by decide +kernel, by decide +kernel,
    startable_of (by decide +kernel), by decide +kernel, by decide +kernel⟩

/-- For Invalidation: SEG_UNMAP, XLT_INVAL of two pages, CTX_DESTROY of a context in use and of a FREE one,
RECOVER DISCARD of a SUSPENDED one. -/
theorem witness_inval_requests :
    let fs := [(1, 1, 0), (2, 1, 0), (4, 4, 14), (8, 4, 2)]
    let s2 := { flight 0x82 64 [(1, 1, 1), (2, 1, 1)] hosted with
      xlt := { hosted.xlt with ctxs := [(0, {}), (1, { state := 2 })] } }
    let h0 := { hd with ctx := 0 }
    let s2' := { s2 with host := { s2.host with
      inflight := [{ cmdOf h0 0x82 with running := false, par := packet 64 [(1, 1, 1), (2, 1, 1)] }] } }
    Startable (flight 0x41 64 [(1, 1, 1), (2, 1, 0)] hosted) 0x41 hd [(1, 1, 1), (2, 1, 0)] ∧
    hosted.seg 1 0 = some segDev ∧ hosted.xlt.inval = none ∧ Startable (flight 0x42 64 fs hosted) 0x42 hd fs ∧
    invalBad hosted hd.ctx 0 0 14 2 = false ∧ Startable (flight 0x91 64 [(1, 1, 1)] hosted) 0x91 hd [(1, 1, 1)] ∧
    (hosted.ctx 1).state ≠ 0 ∧ Startable (flight 0x91 64 [(1, 1, 31)] hosted) 0x91 hd [(1, 1, 31)] ∧
    (hosted.ctx 31).state = 0 ∧ hosted.host.launches.isEmpty = true ∧ hosted.xlt.dying = [] ∧ hosted.xlt.invalQ = [] ∧
    (s2'.ctx 1).state = 2 ∧ (∃ s1, Starts s2' s1 0x82 h0 [(1, 1, 1), (2, 1, 1)]) :=
  ⟨startable_of (by decide +kernel), by decide +kernel, by decide +kernel, startable_of (by decide +kernel),
    by decide +kernel, startable_of (by decide +kernel), by decide +kernel, startable_of (by decide +kernel),
    by decide +kernel, by decide +kernel, by decide +kernel, by decide +kernel, by decide +kernel,
    ⟨_, by decide +kernel, rfl, fun h => absurd h (by decide +kernel)⟩⟩

/-- For Invalidation: CTX_DESTROY while a launch of the context runs, and SEG_UNMAP while an invalidation runs. -/
theorem witness_inval_busy :
    let l : Launch := ⟨0, 5, 1, 2, 8, 0, 0, 0, [0], [], [], false⟩
    let k : State := { hosted with host := { hosted.host with launches := [l] } }
    let v : State := { hosted with xlt := { hosted.xlt with
      inval := some ⟨.host, 2, 2, 0, 0, 0, [0], [], [], false, []⟩ } }
    Startable (flight 0x91 64 [(1, 1, 1)] k) 0x91 hd [(1, 1, 1)] ∧ (∃ l ∈ k.host.launches, l.ctx = 1) ∧ k.xlt.dying = [] ∧
    Startable (flight 0x41 64 [(1, 1, 1), (2, 1, 0)] v) 0x41 hd [(1, 1, 1), (2, 1, 0)] ∧ v.xlt.inval ≠ none ∧
    v.seg 1 0 = some segDev :=
  ⟨startable_of (by decide +kernel), by decide +kernel, by decide +kernel, startable_of (by decide +kernel),
    by decide +kernel, by decide +kernel⟩

/-- An invalidation of segment 0 that waits for what is given. -/
def invalOf (fbs : List Nat) (ports : List (Nat × Nat)) : Inval :=
  ⟨.cmd 0 0, 1, 1, 0, 0, 0, fbs, ports, [], false, []⟩

/-- For Invalidation: its flit in the first of two FBs, its last port, and a zero-length read that a command waits
for. -/
theorem witness_inval_steps :
    let s := { hosted with xlt := { hosted.xlt with inval := some (invalOf [0, 1] []) } }
    let t := { runs 0x42 hosted with xlt := { hosted.xlt with inval := some (invalOf [] [(0, 300)]) } }
    let z := { hosted with host := { State.reset.host with
      inflight := [{ cmdOf hd 0x13 with links := [2] }], links := [(2, { up := true, zlr := [.cmd 0 0] })] } }
    s.xlt.inval = some (invalOf [0, 1] []) ∧ (∀ w ∈ s.xlt.walks, w.fb = 0 → (invalOf [0, 1] []).covers w.key = false) ∧
    t.xlt.inval = some (invalOf [] [(0, 300)]) ∧ zlrLinks t (addLinks [] t.xlt.hostW) = [] ∧ t.xlt.invalQ = [] ∧
    t.host.lossEnds = false ∧ tagged (z.link 2) < 768 ∧
    t.cmd? hd.ring hd.seq = some (cmdOf hd 0x42) ∧ t.iso (hd.ring / 16) = false ∧
    (z.link 2).zlr = [.cmd hd.ring hd.seq] ∧ (z.link 2).retraining = false ∧
    z.cmd? hd.ring hd.seq = some { cmdOf hd 0x13 with links := [2] } ∧ z.iso (hd.ring / 16) = false := by decide +kernel

/-- An unanswered fault of context 1 that thread 1 of core 0 waits with. -/
def xf : XFault := ⟨9, 2, 0, 1, 0, 3, 0, 0, 0, 64, 0, 0, 0, [⟨.thread 0 1, 0, 64⟩]⟩

/-- For FaultsAndWalks: the fault by its number, for a thread in XLT_WAIT and for one that is HELD. -/
theorem witness_fault_answers :
    let at_ (x : Thread) (op : Nat) (fs : List (Nat × Nat × Nat)) : State :=
      flight op 64 fs { hosted with cores := [(0, coreOf 1 x)], xlt := { hosted.xlt with faults := [xf], fq := [9] } }
    let w := at_ { thread [] with st := .xltWait } 0x43 [(1, 1, 1 + 2 * 0), (4, 4, (9 : W32).toNat)]
    let d := at_ { thread [] with st := .held, prev := .xltWait } 0x43 [(1, 1, 2 * 0), (4, 4, (9 : W32).toNat)]
    w.xlt.faults.filter (answered? hd.ctx 0 9) = [xf] ∧ w.xlt.faults.filter (answered? hd.ctx 1 0) = [xf] ∧
    w.xlt.offered = [] ∧ Startable w 0x43 hd [(1, 1, 1 + 2 * 0), (4, 4, (9 : W32).toNat)] ∧ (w.thr 0 1).st = .xltWait ∧
    Startable d 0x43 hd [(1, 1, 2 * 0), (4, 4, (9 : W32).toNat)] ∧ (d.thr 0 1).st = .held ∧ (d.thr 0 1).prev = .xltWait :=
  ⟨by decide +kernel, by decide +kernel, by decide +kernel, startable_of (by decide +kernel), by decide +kernel,
    startable_of (by decide +kernel), by decide +kernel, by decide +kernel⟩

/-- For FaultsAndWalks: the walk of page 3 reads a valid entry, and one that is not VALID. -/
theorem witness_walk :
    let w : Walk := ⟨0, ⟨1, 0, 3⟩, 1, [⟨.thread 0 1, 0, 0xC000040⟩]⟩
    let s : State := { hosted with
      cores := [(0, coreOf 1 { thread [] with st := .held, prev := .ready })], mem := Memory.writeLe [] 24 8 0x8000001,
      xlt := { hosted.xlt with walks := [w] } }
    s.xlt.walks = [w] ∧ 0 = coreFb 0 ∧ s.seg 1 0 = some segDev ∧ isOk (wordRead s (segDev.array + 8 * 3) .ok) 0x8000001 = true ∧
    (s.ctx 1).state = 1 ∧ (s.ctx 1).closing = false ∧ (0x8000001 : Word).getLsbD 0 = true ∧
    pteOk segDev (0x8000001 : Word).toNat = true ∧ (s.thr 0 1).st = .held ∧ (s.thr 0 1).prev ≠ .xltWait ∧
    isOk (wordRead { s with mem := [] } (segDev.array + 8 * 3) .ok) 0 = true ∧ (0 : Word).getLsbD 0 = false ∧
    (∀ f ∈ s.xlt.faults, f.ctx ≠ 1) ∧ s.xlt.fq.length < 256 ∧
    (({ s with cores := [(0, coreOf 1 { thread [] with st := .waiting, wait := .access })] }).thr 0 1).st = .waiting := by
  decide +kernel

theorem leBytes_length (n v : Nat) : (leBytes n v).length = n := by
  induction n generalizing v with
  | zero => rfl
  | succ n ih => exact congrArg (· + 1) (ih _)

theorem readN_length (m : Memory) (a n : Nat) : (Memory.readN m a n).length = n := by
  induction n generalizing a with
  | zero => rfl
  | succ n ih => exact congrArg (· + 1) (ih _)

theorem report_length (s : State) (nonce : List Byte) : (report s nonce).2.length = 1024 := by
  unfold report reportBody pageBytes
  simp only [List.length_append, readN_length, leBytes_length, List.length_take, List.length_replicate]
  omega

/-- A HOST segment at DVA 2^30, whose page 0 is cached: link 0 is up and a window covers its bus addresses. -/
def hostSeg : SegDesc := ⟨1, 0, true, true, false, 0, 2 ^ 30, 16, 0, 0⟩
def linked : State :=
  let s := hosted
  { s with
    xlt := { s.xlt with segs := [(16, some segDev), (17, some hostSeg)], l1 := [(300, [⟨⟨1, 0, 0⟩, 0x4000001⟩, ⟨⟨1, 1, 0⟩, 1⟩])] }
    host := { s.host with links := [(0, { up := true, busMaster := true, winBase := [(0, 1)], winLimit := [(0, 0xFFFFF000)] })] } }

/-- A thread of core 0 that stores to the host segment. -/
def storing (re : Bool) : State :=
  let s := { linked with cores := [(0, coreOf 1 (thread [(1, 2 ^ 30), (2, 5)]))] }
  { s with
    xlt := { s.xlt with l1 := [(corePort 0, [⟨⟨1, 1, 0⟩, 1⟩])] }
    host := { s.host with
      links := [(0, { up := !re, retraining := re, busMaster := true, winBase := [(0, 1)], winLimit := [(0, 0xFFFFF000)] })] } }

/-- For GlobalAccess: a store to host memory translates, its link in L0 and retraining. -/
theorem witness_host_store : ∀ re : Bool,
    let r := xlate (storing re) (coreReq (storing re) 0 1 (.thread 0 1)) 1 (2 ^ 30) 8
    ((storing re).thr 0 1).rs 1 = 2 ^ 30 ∧ isOk r (.host 0 0) = true ∧ (r.1.link 0).retraining = re := by decide +kernel

/-- While its link retrains a store waits, and the host's memory is as it was (R255). -/
theorem test_host_store_waits :
    let t (re : Bool) := match exec (.stg 0 1 0 1 2 3 1) (storing re) with
      | .next s => (Memory.read s.hostMem 0, (s.thr 0 1).st) | _ => (9, .off)
    t false = (5, .ready) ∧ t true = (0, .waiting) := by decide +kernel

/-- For WritingCommands: WRITE_INLINE, SIGNAL, QUERY and ATTEST at DVAs that are cached. -/
theorem witness_writing :
    let go (op n : Nat) (fs : List (Nat × Nat × Nat)) : State := flight op n fs linked
    let rq := cmdReq hd.ring hd.seq hd.ctx
    let f1 := [(8, 8, 64), (16, 2, [(7 : Byte)].length), (64, [(7 : Byte)].length, leNat [(7 : Byte)])]
    let f2 := [(1, 1, 0), (8, 8, 64), (16, 8, (5 : Word).toNat)]
    let f3 := [(1, 1, 1), (8, 8, 64), (16, 8, (5 : Word).toNat)]
    let f4 := [(1, 1, 4), (8, 8, 256)]
    let f5 := [(1, 1, 0), (8, 8, 2 ^ 30), (16, 4, 1024), (32, 32, leNat ([] : List Byte))]
    let s3 := (xlate (started (go 0x32 64 f3) 0x32 f3) (cmdReq hd.ring hd.seq hd.ctx) 2 64 8)
    let s5 := attestBytes (started (go 0x80 64 f5) 0x80 f5) 0 []
    Startable (go 0x13 65 f1) 0x13 hd f1 ∧ isDone (accessWrite true (started (go 0x13 65 f1) 0x13 f1) rq 64 [7]) [] [] ∧
    Startable (go 0x32 64 f2) 0x32 hd f2 ∧
    isDone (accessWrite false (started (go 0x32 64 f2) 0x32 f2) rq 64 (leBytes 8 5)) [] [] ∧
    Startable (go 0x32 64 f3) 0x32 hd f3 ∧ isOk s3 (.dev 0x4000040) ∧
    Fresh (started (go 0x32 64 f3) 0x32 f3) (.cmd hd.ring hd.seq) ∧ isOk (memAtom s3.1 0x4000040 2 5 0) 0 ∧
    Startable (go 0x70 64 f4) 0x70 hd f4 ∧
    isDone (accessWrite true (started (go 0x70 64 f4) 0x70 f4) rq 256 (queryPage (started (go 0x70 64 f4) 0x70 f4) 4)) [] [] ∧
    Startable (go 0x80 64 f5) 0x80 hd f5 ∧ attestLen 0 ≤ 1024 ∧
    isDone (accessWrite true (s5.1.modCmd 0 0 fun x => { x with addr := s5.2.length }) rq (2 ^ 30) s5.2) [] [0] := by
  refine ⟨startable_of (by decide +kernel), by decide +kernel, startable_of (by decide +kernel), by decide +kernel,
    startable_of (by decide +kernel), by decide +kernel, fresh_of _ (by decide +kernel) (by decide +kernel), by decide +kernel,
    startable_of (by decide +kernel), by decide +kernel, startable_of (by decide +kernel), by decide +kernel, ?_⟩
  have hl : ∀ s, (attestBytes s 0 []).2.length = 1024 := fun s => report_length s []
  unfold accessWrite
  rw [hl]
  obtain ⟨s, h⟩ := ok_of (r := xlateAll ((attestBytes (started (flight 0x80 64 [(1, 1, 0), (8, 8, 2 ^ 30), (16, 4, 1024),
    (32, 32, leNat ([] : List Byte))] linked) 0x80 [(1, 1, 0), (8, 8, 2 ^ 30), (16, 4, 1024), (32, 32, leNat ([] : List Byte))])
    0 []).1.modCmd 0 0 fun x => { x with addr := 1024 }) (cmdReq 0 0 1) 1 (2 ^ 30) 1024) (a := [(.host 0 0, 1024)])
    (by decide +kernel)
  have hr : ((xlateAll ((attestBytes (started (flight 0x80 64 [(1, 1, 0), (8, 8, 2 ^ 30), (16, 4, 1024),
    (32, 32, leNat ([] : List Byte))] linked) 0x80 [(1, 1, 0), (8, 8, 2 ^ 30), (16, 4, 1024), (32, 32, leNat ([] : List Byte))])
    0 []).1.modCmd 0 0 fun x => { x with addr := 1024 }) (cmdReq 0 0 1) 1 (2 ^ 30) 1024).1.link 0).retraining = false := by decide +kernel
  rw [h] at hr
  have h' := h
  simp only [hd, hdr] at h' ⊢
  rw [h']
  simp [writePieces, hr, isDone, hostLinks]

/-- For WritingCommands: a command with writes on link 0, at DEVICE and at GLOBAL. -/
theorem witness_visibility :
    let s := runs 0x13 linked
    s.cmd? hd.ring hd.seq = some (cmdOf hd 0x13) ∧ s.iso (hd.ring / 16) = false ∧ hd.vis < 2 ∧
    zlrLinks s (addLinks [] [0]) = [0] ∧
    (let h2 := { hd with vis := 2 }
     { s with host := { s.host with inflight := [cmdOf h2 0x13] } }.cmd? hd.ring hd.seq = some (cmdOf h2 0x13)) := by
  decide +kernel

/-- For WaitingCommands: WAIT, its poll, BELL of a group's sequences and FENCE. -/
theorem witness_waiting :
    let f1 := [(1, 1, 3), (8, 8, 64), (16, 8, (5 : Word).toNat)]
    let f2 := [(1, 1, 0), (4, 4, (7 : W32).toNat)]
    let s1 := flight 0x31 64 f1 linked
    let w := { runs 0x31 linked with host := { (runs 0x31 linked).host with parked := [(0, 0, .wait 3 64 5)] } }
    let x := xlate w (cmdReq hd.ring hd.seq hd.ctx) 0 64 8
    let g (n : W32) : State := { flight 0x33 64 f2 linked with mil := { groups := [(0, { state := 1, ctx := 1, nextBell := n })] } }
    Startable s1 0x31 hd f1 ∧ w.cmd? hd.ring hd.seq = some (cmdOf hd 0x31) ∧ agentWaits w (.cmd hd.ring hd.seq) = false ∧
    Fresh w (.cmd hd.ring hd.seq) ∧ w.iso (hd.ring / 16) = false ∧
    isOk (xlate linked (cmdReq hd.ring hd.seq hd.ctx) 0 (2 ^ 30) 8) (.host 0 0) ∧ (linked.link 0).retraining = false ∧
    isOk x (.dev 0x4000040) ∧ isOk (memRead x.1 0x4000040 8) [0, 0, 0, 0, 0, 0, 0, 0] ∧
    Startable (g 8) 0x33 hd f2 ∧ ((g 8).group 0).state = 1 ∧ ((g 8).group 0).ctx = hd.ctx ∧ (g 8).host.parked = [] ∧
    0 < (((g 8).group 0).nextBell - 7).toInt ∧ Startable (g 7) 0x33 hd f2 ∧ (((g 7).group 0).nextBell - 7).toInt ≤ 0 ∧
    Startable (flight 0x30 64 [] linked) 0x30 hd [] :=
  ⟨startable_of (by decide +kernel), by decide +kernel, by decide +kernel, fresh_of _ (by decide +kernel) (by decide +kernel),
    by decide +kernel, by decide +kernel, by decide +kernel, by decide +kernel, by decide +kernel,
    startable_of (by decide +kernel), by decide +kernel, by decide +kernel, by decide +kernel, by decide +kernel,
    startable_of (by decide +kernel), by decide +kernel, startable_of (by decide +kernel)⟩

/-- For Launches: threads 1 and 15 on core 0, from a segment with the X right, and from one without. -/
theorem witness_launch :
    let fs := [(2, 2, (0x8002 : BitVec 16).toNat), (4, 4, 16), (8, 8, 64), (16, 2, 8), (24, 8, (3 : Word).toNat),
      (64, 512, bitmapOf [0])]
    let s := flight 0x20 576 fs { linked with scAdmitted := 1 }
    let t := { s with xlt := { s.xlt with segs := [(16, some { segDev with x := false })] } }
    Startable s 0x20 hd fs ∧ grantsX s hd.ctx 64 = true ∧ inService s 0 = true ∧ Startable t 0x20 hd fs ∧
    grantsX t hd.ctx 64 = false :=
  ⟨startable_of (by decide +kernel), by decide +kernel, by decide +kernel, startable_of (by decide +kernel),
    by decide +kernel⟩

def launch0 : Launch := ⟨0, 0, 1, 2, 8, 64, 0, 3, [], [0], [], false⟩

/-- For Launches: core 0 runs its monitor and takes the launch, whose image is cached at its port. -/
theorem witness_taken :
    let l : Launch := { launch0 with waiting := [0], taken := [] }
    let s : State := { mapped (withCore { coreOf 1 {} with ctx := 0 }) with
      scAdmitted := 1, host := { State.reset.host with launches := [l] } }
    let x := xlateAll (s.modCore 0 fun c => { c with launch := some (0, 0), ctx := 1 }) ⟨coreFb 0, corePort 0, 1, .image 0⟩ 3 64 8
    (s.ctx 1).state = 1 ∧ ctxHeld s 1 = false ∧ (s.core 0).reset = false ∧ (s.core 0).monFault = false ∧
    s.iso (coreFb 0) = false ∧ inService s 0 = true ∧ (s.core 0).launch = none ∧ agentWaits s (.image 0) = false ∧
    readsOf s (.image 0) = [] ∧
    isOk x [(.dev 0x4000040, 8)] ∧ isOk (memRead x.1 0x4000040 8) [0, 0, 0, 0, 0, 0, 0, 0] := by decide +kernel

/-- For Launches: a launch whose thread has exited, and one whose thread is FAULTED. -/
theorem witness_launch_completes :
    let f : LFault := ⟨0, 1, 3, 0x0300, 0x4000, 64, false⟩
    let at_ (x : Thread) (l : Launch) : State := { runs 0x20 linked with
      cores := [(0, { coreOf 1 x with launch := some (0, 0) })], host := { (runs 0x20 linked).host with launches := [l] } }
    let s := at_ { thread [] with st := .off } launch0
    let t := at_ { thread [] with st := .faulted } { launch0 with faults := [f] }
    s.launch? hd.ring hd.seq = some launch0 ∧ s.cmd? hd.ring hd.seq = some (cmdOf hd 0x20) ∧ s.iso 0 = false ∧
    launchOps s launch0 = false ∧ (s.ctx 1).state = 1 ∧ (∀ e ∈ launchThreads s launch0, e.2.2.st = .off) ∧
    (∀ e ∈ launchThreads s launch0, opsPending s e.1 e.2.1 hd.vis = false) ∧ hd.vis < 2 ∧ launch0.waiting = [] ∧
    t.launch? hd.ring hd.seq = some { launch0 with faults := [f] } ∧ launchOps t launch0 = false ∧
    (∀ e ∈ launchThreads t launch0, stopped e.2.2 = true) ∧ f.status ≠ stDIELOST ∧ f.status ≠ stDONE := by decide +kernel
/-! ### Witnesses: firmware, regulation, groups and Carters -/

/-- A session on slot 1 in a stage. -/
def session (st : Nat) (s : State) : State := { s with sec := { s.sec with stage := st, slot := 1 } }

/-- For FirmwareUpdates: OPEN, WRITE, COMMIT, CANCEL, ACTIVATE, RATIFY, OWNER_ENROLL, and COMMIT without a session. Whether
the staged bytes are an Almanac that verifies, or an enrolment record does, is not fixed by the spec's text: one of the two
clauses applies. -/
theorem witness_fw_stage :
    let go (st n : Nat) (fs : List (Nat × Nat × Nat)) : State := session st (flight 0x81 n fs linked)
    let f0 := [(1, 1, 0), (2, 1, 1)]
    let f1 := [(1, 1, 1), (4, 4, 256), (8, 4, 256), (16, 8, 64)]
    let f6 := [(1, 1, 6), (8, 4, 171), (16, 8, 64)]
    let z : List Byte := List.replicate 256 0
    let r := { go 0 64 [(1, 1, 5)] with boot := { State.reset.boot with alm := { rollback := 1 } } }
    Startable (go 0 64 f0) 0x81 hd f0 ∧ (1 : Nat) ≠ (go 0 64 f0).boot.slot ∧
    Startable (go 1 64 f1) 0x81 hd f1 ∧ stageRange 256 256 = true ∧ stageWritten (go 1 64 f1) 256 256 = false ∧
    isDone (accessRead (started (go 1 64 f1) 0x81 f1) (cmdReq hd.ring hd.seq hd.ctx) 0 64 256) z [] ∧
    Startable (go 1 64 [(1, 1, 2)]) 0x81 hd [(1, 1, 2)] ∧ Startable (go 3 64 [(1, 1, 3)]) 0x81 hd [(1, 1, 3)] ∧
    Startable (go 3 64 [(1, 1, 4)]) 0x81 hd [(1, 1, 4)] ∧ Startable r 0x81 hd [(1, 1, 5)] ∧
    (1 ≤ Config.recoveryRollback → ratifyOk r = true) ∧ Startable (go 0 64 f6) 0x81 hd f6 ∧
    isDone (accessRead (started (go 0 64 f6) 0x81 f6) (cmdReq hd.ring hd.seq hd.ctx) 0 64 171) (List.replicate 171 0) [] ∧
    Startable (go 0 64 [(1, 1, 2)]) 0x81 hd [(1, 1, 2)] ∧ (go 0 64 [(1, 1, 2)]).sec.stage ≠ 1 := by
  refine ⟨startable_of (by decide +kernel), by decide +kernel, startable_of (by decide +kernel), by decide +kernel,
    by decide +kernel, by decide +kernel, startable_of (by decide +kernel), startable_of (by decide +kernel),
    startable_of (by decide +kernel), startable_of (by decide +kernel), fun h => ?_, startable_of (by decide +kernel),
    by decide +kernel, startable_of (by decide +kernel), by decide +kernel⟩
  simp [ratifyOk, session, flight, linked, hosted, mapped, State.reset, h]

theorem witness_commit (s : State) :
    (∃ a, Config.parseAlmanac (s.fw s.sec.slot).cells = some a ∧ almOk a s.sec.almOwner s.sec.rollback = true) ∨
    (∀ b, Config.parseAlmanac (s.fw s.sec.slot).cells = some b → almOk b s.sec.almOwner s.sec.rollback = false) := by
  cases hp : Config.parseAlmanac (s.fw s.sec.slot).cells with
  | none => exact .inr fun _ h => by simp at h
  | some a =>
    cases ha : almOk a s.sec.almOwner s.sec.rollback
    · exact .inr fun _ h => Option.some.inj h ▸ ha
    · exact .inl ⟨a, rfl, ha⟩

/-- For FirmwareUpdates: the module is up, in each stage. -/
theorem witness_pldm :
    let s (st : Nat) : State := session st { State.reset with pwr := { input := true }, boot := { State.reset.boot with phase := 8 } }
    pldmUp (s 0) = true ∧ (s 0).sec.stage = 0 ∧ pldmUp (s 2) = true ∧ (s 2).sec.stage = 2 ∧
    0 + [(1 : Byte)].length ≤ slotSize ∧ stageWritten (s 2) 0 1 = false ∧ pldmUp (s 3) = true ∧ (s 3).sec.stage = 3 ∧
    starting (s 3) = false := by
  decide +kernel

/-- An entry that guarantees class 2 a rate at the ports of Carters of FB1, and charges link 5. -/
def rgl1 : RglEntry := ⟨2, 1, 3, 1, 1000, 16, [(37, 100)]⟩
def rgl2 : RglEntry := { rgl1 with charges := [(9, 100)] }

/-- For Regulation: an entry that charges a running base fabric is admitted, one that charges a link that is not up is not; PWR_SET of
the smallest and the largest cap. -/
theorem witness_regulation :
    let s := flight 0x71 128 (rglFields rgl2) { linked with clk := { freq := [(8, 48)] } }
    let t := flight 0x71 128 (rglFields rgl1) linked
    s.rgl.wait = [] ∧ Startable s 0x71 hd (rglFields rgl2) ∧ rglBad rgl2 = false ∧
    rglAdmits s (tset [] s.rgl.charges rgl2.cls rgl2.charges) = true ∧ Startable t 0x71 hd (rglFields rgl1) ∧
    rglBad rgl1 = false ∧ rglAdmits t (tset [] t.rgl.charges rgl1.cls rgl1.charges) = false ∧
    Startable (flight 0x72 64 [(0, 1, 1), (2, 2, 1200)] linked) 0x72 hd [(0, 1, 1), (2, 2, 1200)] ∧
    Startable (flight 0x72 64 [(0, 1, 1), (2, 2, 3600)] linked) 0x72 hd [(0, 1, 1), (2, 2, 3600)] ∧
    (3600 : Nat) ≤ linked.pwr.ceilingW :=
  ⟨by decide +kernel, startable_of (by decide +kernel), by decide +kernel, by decide +kernel,
    startable_of (by decide +kernel), by decide +kernel, by decide +kernel, startable_of (by decide +kernel),
    startable_of (by decide +kernel), by decide +kernel⟩

/-- For Regulation: a bucket of each mode, with credit and without, and a packet that waits. -/
theorem witness_packets :
    let s (m : Nat) (l : Int) : State :=
      { State.reset with rgl := { buckets := [(bucketKey 0 0 0, { mode := m, burst := 16, rate := 10, level := l })] } }
    let b (s : State) : Bucket := tget {} s.rgl.buckets (bucketKey 0 0 (ratOf s 64).rclass)
    (b (s 0 0)).mode = 0 ∧ (b (s 1 1)).mode = 1 ∧ 0 < (b (s 1 1)).level ∧ (b (s 1 0)).level ≤ 0 ∧ (b (s 2 1)).mode = 2 ∧
    0 < (b (s 2 1)).level ∧ (b (s 2 (-5))).level ≤ 0 ∧ (s 2 1).rgl.wait = [] ∧ (tkeys (s 2 1).rgl.buckets).Nodup ∧
    (⟨0, 0, 3, 64, 256, 0, 256, 2, 0⟩ : Inj).held (s 2 1) = false ∧
    (⟨0, 0, 3, 64, 256, 0, 256, 2, 0⟩ : Inj).held
      { s 2 0 with rgl := { (s 2 0).rgl with wait := [⟨0, 0, 2, 512, 256, 0, 256, 2, 0⟩] } } = true := by
  decide +kernel

/-- A guaranteed packet with credit spends it (R174). -/
theorem test_packet :
    let s : State := { State.reset with rgl := { buckets := [(bucketKey 0 0 0, { mode := 1, burst := 16, rate := 10, level := 1 })] } }
    (match exec (.packetInjection 0 0 3 64 256 false) s with
      | .next t => (((tget {} t.rgl.buckets (bucketKey 0 0 0) : Bucket)).level, t.msh.inj.map (·.prio))
      | _ => (0, [])) = (-255, [1]) := by decide +kernel

/-- A REDUCE of cores 0 and 1 to local store. -/
def red : GroupDesc := ⟨3, 0, 0, 0, 1, 1, 0, false, 0, 0, 0, 256, 0, 1, 0, 0, 0, 0, 0, 1, 0, [0, 1]⟩

/-- For GroupCommands: a group that fits, a number that is taken, and the destruction of an idle, a busy and a FAULTED
group. -/
theorem witness_groups :
    let s := flight 0x50 576 (groupFields red) { linked with scAdmitted := 1, fbReady := 15 }
    let taken := { s with mil := { groups := [(3, { state := 1, ctx := 1 })] } }
    let fs (f : Bool) := [(0, 1, 1), (1, 1, 3), (2, 1, b2n f)]
    let d (f : Bool) (g : Group) : State := { flight 0x51 64 (fs f) linked with mil := { groups := [(3, g)] } }
    let idle : Group := { state := 1, ctx := 1, desc := some red }
    let busy : Group := { idle with mseq := [(0, 1)] }
    Startable s 0x50 hd (groupFields red) ∧ groupBad s hd.ctx red = false ∧ (s.group 3).state = 0 ∧
    stagingOk s (newGroup s hd.ctx red) red = true ∧ Startable taken 0x50 hd (groupFields red) ∧
    groupBad taken hd.ctx red = false ∧ (taken.group 3).state ≠ 0 ∧ Startable (d false idle) 0x51 hd (fs false) ∧
    groupBusy (d false idle) 3 = false ∧ (d false idle).host.parked = [] ∧ Startable (d false busy) 0x51 hd (fs false) ∧
    groupBusy (d false busy) 3 = true ∧ ((d false busy).group 3).state ≠ 3 ∧ ((d false busy).group 3).ctx = hd.ctx :=
  ⟨startable_of (by decide +kernel), by decide +kernel, by decide +kernel, by decide +kernel,
    startable_of (by decide +kernel), by decide +kernel, by decide +kernel, startable_of (by decide +kernel),
    by decide +kernel, by decide +kernel, startable_of (by decide +kernel), by decide +kernel, by decide +kernel,
    by decide +kernel⟩

/-- For CarterCommands: COPY of a byte, COPY_ND of two rows with a negative stride, FILL with the longest pattern. -/
theorem witness_carter_commands :
    let fl : FlagOpt := ⟨false, 0, 0⟩
    let on : FlagOpt := ⟨true, 15, 2 ^ 20⟩
    let f1 := [(1, 1, flagByte fl), (8, 8, 0), (16, 8, 1), (24, 8, 1), (32, 8, fl.dva)]
    let dims : List Dim := [⟨2, -512⟩]
    let f2 := ([(1, 1, flagByte on), (2, 1, dims.length + 1), (3, 1, 0), (4, 4, 256), (8, 8, 512), (16, 8, 4096), (24, 8, on.dva)] ++
      (List.range dims.length).map fun i => (32 + 8 * i, 8, dimWord (dims.getD i ⟨0, 0⟩)))
    let p := (List.replicate 32 (9 : Byte) ++ List.replicate 32 0).take (2 ^ 5)
    let f3 := [(1, 1, flagByte fl), (2, 1, 5), (8, 8, 2 ^ 56 - 1), (16, 8, 1), (24, 8, fl.dva), (32, p.length, leNat p)]
    Startable (flight 0x10 64 f1 linked) 0x10 hd f1 ∧ (jobOf hd 0x10 fl 1 0 1 0 1 [] []).bad = false ∧
    Startable (flight 0x11 64 f2 linked) 0x11 hd f2 ∧ (jobOf hd 0x11 on 512 512 4096 0 256 dims []).bad = false ∧
    Startable (flight 0x12 64 f3 linked) 0x12 hd f3 ∧ (jobOf hd 0x12 fl 1 0 (2 ^ 56 - 1) 0 1 [] p).bad = false :=
  ⟨startable_of (by decide +kernel), by decide +kernel, startable_of (by decide +kernel), by decide +kernel,
    startable_of (by decide +kernel), by decide +kernel⟩

/-- A COPY of 32 bytes between DVAs of segment 0. -/
def job : CarJob := { jobOf hd 0x10 ⟨false, 0, 0⟩ 32 0 64 0 32 [] [] with vis := 1 }

/-- Segment 0 is cached at the port of Carter 8. -/
def carried (c : CarSlot) : State :=
  { linked with
    xlt := { linked.xlt with l1 := [(264, [⟨⟨1, 0, 0⟩, 0x4000001⟩])] }
    car := { slots := [(32, c)] }, host := { linked.host with inflight := [cmdOf hd 0x10] } }

/-- For CarterCommands: Carter 8 is disabled and Carter 9 has a command: Carter 10 takes the next. -/
theorem witness_slots :
    let s : State := { State.reset with
      car := { queue := [(0, 0, job), (0, 2, job)], disable := [(0, 0x100)], slots := [(36, { state := 1 })] } }
    let open_ (x : Nat) : Prop := (tget 0 s.car.disable 0 : BitVec 12).getLsbD x = false ∧ occupied s 0 x < 4
    s.car.queue = [(0, 0, job)] ++ (0, 2, job) :: [] ∧ (∀ e ∈ [(0, 0, job)], ¬ (e.1 = 0 ∧ e.2.1 = 2)) ∧ s.iso 0 = false ∧
    (∀ x, x < 12 → 8 ≤ x → open_ x → occupied s 0 10 < occupied s 0 x ∨ (occupied s 0 10 = occupied s 0 x ∧ 10 ≤ x)) ∧
    open_ 10 ∧ (s.slot 0 10 0).state = 0 := by decide +kernel

/-- For CarterCommands: the first chunk of a command, translated, read, its data there, its write on its way, and the
command's end. -/
theorem witness_chunks :
    let s := carried { state := 1, job := some job }
    let who := Agent.chunk 0 8 0 0
    let src := xlateRuns s (carReq 0 8 job.ctx who) 0 (job.srcRuns 0) []
    let dst := xlateRuns src.1 (carReq 0 8 job.ctx who) 1 (job.dstRuns 0) []
    let from_ : List (Tgt × Nat) := [(.dev 0x4000000, 32)]
    let to_ : List (Tgt × Nat) := [(.dev 0x4000040, 32)]
    let z : List Byte := List.replicate 32 0
    let p : CarPend := ⟨0, z, to_, 0, false⟩
    let r := carried { state := 1, job := some job, asked := 1, reads := [⟨0, from_, to_, 0, none⟩] }
    let i := carried { state := 1, job := some job, asked := 1, reads := [⟨0, from_, to_, 0, some z⟩] }
    let w := carried { state := 1, job := some job, asked := 1, next := 1, pend := [p] }
    let e := carried { state := 1, job := some job, asked := 1, next := 1, vis := 1 }
    (s.slot 0 8 0).job = some job ∧ src.2.1 = none ∧ dst.2.1 = none ∧ src.2.2.flatten.map (·.2) = from_ ∧
    dst.2.2.flatten.map (·.2) = to_ ∧ (r.slot 0 8 0).reads = [⟨0, from_, to_, 0, none⟩] ∧ readsOf r who = [] ∧
    (∀ k, k < 4 → (r.slot 0 8 k).pend = []) ∧ (∀ k, k < 4 → k ≠ 0 → (r.slot 0 8 k).reads = []) ∧
    isOk (readPieces r from_ []) z ∧ (i.slot 0 8 0).reads = [⟨(i.slot 0 8 0).next, from_, to_, 0, some z⟩] ∧ job.vis = 1 ∧
    (∀ k, k < 4 → k ≠ 0 → (i.slot 0 8 k).job = none) ∧ (w.slot 0 8 0).pend = [p] ∧ portFree w 0 8 0 to_ = true ∧
    job.fl.on = false ∧ (w.slot 0 8 0).vis = 0 ∧ (w.slot 0 8 0).beyond = [] ∧ (memWrite w 0x4000040 z).2 = none ∧
    (e.slot 0 8 0).vis = job.chunks ∧ e.cmd? hd.ring hd.seq = some (cmdOf hd job.op) ∧ e.iso 0 = false := by decide +kernel
/-! ### Witnesses: Granary and device memory -/

/-- The cache of FB0 in a state, with a bank. -/
def cached (g : Grn) (ls : Tbl CLine) : State :=
  { State.reset with dram := { State.reset.dram with grn := [(0, g)], lines := ls, ratDefault := { vis := 1, policy := 0 } } }

/-- Every resident line is a line of device memory, as a test. -/
def linesOk (s : State) : Bool := s.dram.lines.all fun e => isDev (256 * e.1)

theorem lines_of {s : State} (h : linesOk s = true) : LinesOfMemory s := fun e he => List.all_eq_true.mp h e he

/-- For Granary: a line's last bytes; a dirty line with an uncorrectable error; a clean one with a correctable error,
for the fourth time and before; a write and an atomic. -/
theorem witness_granary_access :
    let s := cached { state := 1, enable := true } []
    let d := cached { state := 1, enable := true } [(1, ⟨3, true, false⟩)]
    let c (n : Nat) : State := { cached { state := 1, enable := true, scrub := true } [(1, ⟨3, false, false⟩)] with
      dram := { (cached { state := 1, enable := true, scrub := true } [(1, ⟨3, false, false⟩)]).dram with
        banks := [(64 * homeQ 0x1F8 + devBank 0x1F8, { ce := [(3, n)] })] } }
    isDev 0x1F8 = true ∧ s.iso (homeQ 0x1F8) = false ∧ ratHeld s 0x1F8 = false ∧ s.lost (0x1F8 / 256) = false ∧
    0x1F8 % 256 + 8 ≤ 256 ∧ linesOk s = true ∧
    (∀ x ∈ burstsOf 0x1F8 8, burstHeld s x = false ∧ burstDead s x = false ∧ burstBad s x = false) ∧
    linesOk d = true ∧ d.cline (0x1F8 / 256) = some ⟨3, true, false⟩ ∧ (lineWrite s 0x1F8 [1, 2]).2 = none ∧
    isOk (memAtom s 0x1F8 2 5 0) 0 ∧
    (∀ n ∈ [0, 3], (c n).cline (0x1F8 / 256) = some ⟨3, false, false⟩ ∧ linesOk (c n) = true ∧
      ((c n).bank (homeQ 0x1F8) (devBank 0x1F8)).disabled.getLsbD 3 = false ∧ ((c n).grn (homeQ 0x1F8)).scrub = true ∧
      windowOf (c n) (homeQ 0x1F8) = (c n).dram.window) := by decide +kernel

/-- For Granary: the sweep of FB0 ends, the largest partition and the smallest are in range, and those beside them are
not; bank 63 switches. -/
theorem witness_granary_control :
    let s := cached { state := 2 } [(0, ⟨3, true, false⟩)]
    let r := cached { state := 3, target := 16, switched := [0] } []
    s.iso 0 = false ∧ (s.grn 0).penPart = none ∧ linesOk s = true ∧
    (let o := cached { state := 1, enable := true } []
     (o.grn 0).state < 2 ∧ (∀ w ∈ [2, 16], bits (BitVec.ofNat 64 w).toNat 4 0 = w ∧ w ≤ maxScratch o 0) ∧
     ∀ w ∈ [0, 3, 18, 31], bits (BitVec.ofNat 64 w).toNat 4 0 = w ∧ (w % 2 = 1 ∨ 16 < w ∨ maxScratch o 0 < w ∨ w < 2)) ∧
    (r.grn 0).state = 3 ∧ 63 ∉ (r.grn 0).switched ∧ (r.grn 0).switched.length < 63 ∧ (r.grn 0).target ≤ 16 ∧ linesOk r = true := by decide +kernel

/-- A repartition zeroes the scratch that a bank gains (R125). -/
theorem test_repartition :
    let s := { cached { state := 3, target := 16 } [] with mem := [(0xF000000000, 7)] }
    inScrWay 0 0 0 0xF000000000 = true ∧
    (match exec (.repartitionBankSwitch 0 0 []) s with
      | .next t => (Memory.read t.mem 0xF000000000, (t.bank 0 0).w)
      | _ => (7, 0)) = (0, 16) := by decide +kernel

/-- For Granary: entry 63 with MiB 1 to 2; a limit below its base, a reserved bit, an index beyond the default's; a sweep
that runs. -/
theorem witness_region_table :
    let st (b a : Word) (busy : Bool) : State := { State.reset with dram := { State.reset.dram with
      ratCmd := { stageBase := b, stageAttr := a, busy := busy, hold := [(1, 2)] } } }
    let c (b a : Word) : RatCmd := (st b a false).dram.ratCmd
    let ok := c 0x100000 0x20000008100
    (0x23F : Word).getLsbD 9 = true ∧ bits (0x23F : Word).toNat 6 0 = 63 ∧ ratReserved ok = false ∧
    (stagedRat ok).policy ≤ 4 ∧ (stagedRat ok).vis ≠ 3 ∧ (stagedRat ok).valid = true ∧ (stagedRat ok).base ≤ (stagedRat ok).limit ∧
    ratCheck (c 0x300000 0x20000008100) 63 = some 0x0102 ∧ ratCheck (c 1 0x20000008100) 63 = some 0x0103 ∧
    ratCheck ok 65 = some 0x0102 ∧ ratCheck ok 64 = none ∧ (st 0 0 true).dram.ratCmd.busy = true ∧
    linesOk (st 0 0 true) = true ∧ ratHeld (st 0 0 true) 0x100000 = true := by decide +kernel

theorem nothing_held (s : State) (h0 : s.dram.writeBacks = []) (h1 : s.dram.parked = []) (h2 : s.cores = []) (h3 : s.host.parked = [])
    (h4 : s.car.slots = []) (h5 : s.mil.groups = []) : NothingHeld s :=
  ⟨h0, h1, by simp [waitingThreads, h2], h3, fun k => by rw [h4]; rfl, fun g => by rw [State.group, h5]; rfl⟩

/-- For Granary's end of a sweep and for MemoryControllers: at reset nothing is held at a home. -/
theorem witness_nothing_held : NothingHeld State.reset ∧
    NothingHeld { State.reset with dram := { State.reset.dram with ratCmd := { busy := true, hold := [(1, 2)] } } } :=
  ⟨nothing_held _ rfl rfl rfl rfl rfl rfl, nothing_held _ rfl rfl rfl rfl rfl rfl⟩

/-- For MemoryControllers: a burst that is good, one that is LOST, and the last 64 bytes below 192 GiB. -/
theorem witness_memory :
    let s := State.reset
    let l : State := { s with dram := { s.dram with lostBursts := [(0xBFFFFFFFC0 / 64, true)], hbm := [(0, { scrub := true })] } }
    isDev 0xBFFFFFFFC0 = true ∧ s.iso (homeQ 0xBFFFFFFFC0) = false ∧ burstHeld s (0xBFFFFFFFC0 / 64) = false ∧
    burstDead s (0xBFFFFFFFC0 / 64) = false ∧ burstBad s (0xBFFFFFFFC0 / 64) = false ∧
    (s.hbm (homeQ (64 * (0xBFFFFFFFC0 / 64)))).ueValid = false ∧ s.dram.repairing = [] ∧
    tget false s.dram.rowFailed (rowOf (64 * (0xBFFFFFFFC0 / 64))) = false ∧
    repaired s (rowBank (rowOf (64 * (0xBFFFFFFFC0 / 64)))) = 0 ∧ burstHeld l (0xBFFFFFFFC0 / 64) = false ∧
    burstDead l (0xBFFFFFFFC0 / 64) = false ∧ burstBad l (0xBFFFFFFFC0 / 64) = true ∧ (l.hbm (homeQ 0)).scrub = true ∧
    0xBFFFFFFFC0 % 64 = 0 ∧ 0 < [(1 : Byte)].length ∧ 0xBFFFFFFFC0 % 64 + [(1 : Byte)].length < 64 := by decide +kernel

theorem witness_spares (b : Nat × Nat × Nat × Nat) (k : Nat) : repaired State.reset b < spares k := by
  show 0 < max 1 (Config.spareRows k)
  omega

/-- For MemoryControllers: stacks in each state, a channel that retrains, a row under repair and zeroing. -/
theorem witness_upkeep :
    let st (n : Nat) : State := { State.reset with dram := { State.reset.dram with hbmStacks := [(7, { state := n })] } }
    let r : State := { State.reset with dram := { State.reset.dram with
      chans := [(255, { state := 2, was := 1 })], repairing := [rowOf 0x1000], zeroing := true } }
    ((st 2).stack 7).state = 2 ∧ 0 < ((st 2).hbm (7 / 2)).srIdle ∧ ((st 2).hbm (7 / 2)).scrub = false ∧
    ((st 3).stack 7).state = 3 ∧
    (let w : State := { st 3 with msReady := 0x80 }
     (w.stack 7).state = 3 ∧ w.msReady.getLsbD 7 = true ∧ ∃ i ∈ List.range 4096, 7 = 2 * homeQ (2 ^ 20 * i) + chanOf (2 ^ 20 * i) / 32) ∧
    (r.chan 3 63).state = 2 ∧ r.dram.repairing = [rowOf 0x1000] ∧ r.dram.zeroing = true := by
  decide +kernel

/-! ### Witnesses: mesh -/

def p9 : MPort := ⟨0, 9, 1⟩

/-- For Mesh: a lane with room, a cancelled packet, a credit out. -/
theorem witness_mesh_lanes :
    let k := laneKey p9 flit
    let s : State := { State.reset with msh := { dropping := [(k, true)], ports := [(portKey p9, { used := [(2, 1)] })] } }
    flit.cancel = false ∧ p9.p ≤ 9 ∧ p9.p ≠ 8 ∧ tget false State.reset.msh.dropping k = false ∧
    (State.reset.laneQ k).length < laneDepth p9.p (laneOf flit) ∧ tget false s.msh.dropping k = true ∧
    0 < tget 0 (s.port p9).used 2 := by decide +kernel

/-- For Mesh: a port that is not frozen, one that is frozen and has drained, one that the retrain of its pair froze. -/
theorem witness_mesh_ports :
    let e : MPort := ⟨0, 7, 1⟩
    let f : State := { State.reset with msh := { ports := [(portKey p9, { freeze := true })] } }
    let h : State := { State.reset with
      die := { State.reset.die with bundles := [(0, { st := 4 }), (32, { st := 4 })] }
      msh := { ports := [(portKey e, { freeze := true, hopFreeze := true })] } }
    State.reset.iso p9.fb = false ∧ connected State.reset p9 = true ∧ (State.reset.port p9).freeze = false ∧
    (State.reset.port p9).suspG = none ∧ (State.reset.port p9).suspB = none ∧ (f.port p9).freeze = true ∧
    (f.port p9).quiet = true ∧ (f.port p9).hopFreeze = false ∧ (h.port e).freeze = true ∧ (h.port e).quiet = true ∧
    (h.port e).hopFreeze = true ∧ edgeOf e = some (0, 0) ∧ pairUp h 0 0 = true ∧ hopReturns h 0 0 = false := by decide +kernel

/-- For Mesh: a CANCEL at a core's and at a bank's port, a retry at its destination, and an edge whose first pair has
lost its bundles. -/
theorem witness_mesh_ends :
    let c : Flit := { flit with cancel := true, type := 1, dstRouter := 17, dstPort := 1 }
    let r : Flit := { c with cancel := false, type := 0x0B }
    let up (i : Nat) : Tbl BundleEnd := [(2 * i, { st := 4 }), (32 + 2 * i, { st := 4 })]
    let e : State := { State.reset with
      die := { State.reset.die with bundles := (List.range 7).flatMap fun i => up (i + 1) }
      msh := { ports := (List.range 8).flatMap fun i => (pairPorts 0 i).map fun q =>
        (portKey q, { freeze := true, drained := true }) } }
    atDest p9 c = true ∧ atDest ⟨0, 9, 8⟩ { c with dstPort := 8 } = true ∧ atDest p9 r = true ∧
    ({ State.reset with msh := { retries := [r] } } : State).msh.retries = [r] ∧
    remapTable e 0 ≠ remapWord e 0 ∧ (∀ i, i < 8 → ∀ q ∈ pairPorts 0 i, (e.port q).freeze = true ∧ (e.port q).drained = true) := by
  decide +kernel

/-- The remap table of an edge whose first pair has no bundle: pair 0 goes by pair 1 (R164). -/
theorem test_remap :
    let up (i : Nat) : Tbl BundleEnd := [(2 * i, { st := 4 }), (32 + 2 * i, { st := 4 })]
    remapTable { State.reset with die := { State.reset.die with bundles := (List.range 7).flatMap fun i => up (i + 1) } } 0 =
      0x76543219 := by decide +kernel

/-- For Mesh: the head of a lane that goes east by this port, a grant of it that was decided, and a second cycle. -/
theorem witness_arbitration :
    let f : Flit := { flit with prio := 1, dstRouter := 18, dstPort := 4 }
    let k := 12 * portKey ⟨0, 9, 3⟩ + 1
    let s : State := { State.reset with msh := { lanes := [(k, [f])] } }
    let g : Grant := { lane := k }
    let t : State := { s with msh := { s.msh with ports := [(portKey p9, { grant := some g, dec := some k })] } }
    let b : State := { s with msh := { s.msh with ports := [(portKey p9, { busy := true })] } }
    connected s p9 = true ∧ (s.port p9).ends = [] ∧ (s.port p9).busy = false ∧ (s.port p9).grant = none ∧
    (s.port p9).suspG = none ∧ (s.port p9).suspB = none ∧ (s.port p9).freeze = false ∧ k ∈ heads s p9 (s.port p9) none ∧
    canSend s p9 (s.port p9) { lane := k } = true ∧ p9.p < 8 ∧ (t.port p9).grant = some g ∧ (t.port p9).dec = some g.lane ∧
    grantFlits t p9 g = [f] ∧ creditLeft (t.port p9) p9.p (laneOf f) 1 = true ∧ (b.port p9).busy = true ∧
    f.detour = false ∧ s.die.fbIso = 0 ∧ s.msh.pair = [] := by decide +kernel

/-- For Mesh: a request flit that leaves for the agent at its destination. -/
theorem witness_arbitration_agent :
    let p : MPort := ⟨0, 9, 9⟩
    let f : Flit := { flit with prio := 1, dstRouter := 17, dstPort := 9 }
    let k := 12 * portKey ⟨0, 9, 3⟩ + 1
    let g : Grant := { lane := k }
    let s : State := { State.reset with msh := { lanes := [(k, [f])], ports := [(portKey p, { grant := some g, dec := some k })] } }
    connected s p = true ∧ (s.port p).busy = false ∧ (s.port p).grant = some g ∧ (s.port p).dec = some g.lane ∧
    grantFlits s p g = [f] ∧ f.vn = 0 ∧ f.prio ≠ 0 ∧ f.cancel = false ∧ g.lane ≠ laneKey (farPort p) f ∧
    creditLeft (s.port p) p.p (laneOf f) 1 = true := by decide +kernel

/-! ### Witnesses: Mill -/

/-- A BARRIER of cores 0 and 1 at router 0, the root, and of cores 300 and 301 at router 6. -/
def bar : GroupDesc := ⟨3, 2, 0, 0, 0, 0, 0, false, 0, 0, 0, 0, 0, 0, 0, 0, 0, 0, 0, 0, 0, [0, 1, 300, 301]⟩

/-- The group ACTIVE, with something in flight. -/
def milled (d : GroupDesc) (f : List MFlight) (g : Group) : State :=
  { withThread 1 (thread []) with mil := { groups := [(3, { g with state := 1, ctx := 1, desc := some d })], flight := f } }

/-- For Mill: a partial from a child, a result at a router and at a member, Bells before and after the others, a
release at a router and at a member that waits. -/
theorem witness_mill :
    let m : MillChunk := ⟨3, 0, 0, 0, [1, 2], 1⟩
    let b : MillChunk := ⟨3, 0, 0, 0, [], 1⟩
    let w : MWait := ⟨0, 1, 5, 0x4000, 0, 2, true⟩
    let s := milled red [⟨.partial_ 0 17, m⟩, ⟨.result (.router 0), m⟩, ⟨.result (.member 0), m⟩] {}
    let t := milled bar [⟨.bell 0 0, b⟩, ⟨.release (.router 0), b⟩] {}
    let v := milled bar [⟨.release (.member 0), b⟩] { waits := [w] }
    (s.group 3).state = 1 ∧ (s.group 3).desc = some red ∧ m.group = 3 ∧ ⟨.partial_ 0 17, m⟩ ∈ s.mil.flight ∧
    ⟨.result (.router 0), m⟩ ∈ s.mil.flight ∧ ⟨.result (.member 0), m⟩ ∈ s.mil.flight ∧
    badWord (s.core 0).lsBad (red.resultLs + 0 % red.nbuf * outLen red + 0 * outChunkLen red) 2 = none ∧
    (s.group 3).waits = [] ∧ ⟨.bell 0 0, b⟩ ∈ t.mil.flight ∧ (∃ i ∈ inputsOf bar 0, i ≠ 0 ∧ (0, i, 0) ∉ (t.group 3).bells) ∧
    ⟨.release (.router 0), b⟩ ∈ t.mil.flight ∧ ⟨.release (.member 0), b⟩ ∈ v.mil.flight ∧ (v.group 3).waits = [w] ∧
    (v.thr 0 1).st = .ready ∧ v.host.parked = [] := by decide +kernel

/-- For Mill: the last Bell at a leaf below the root and at the root. -/
theorem witness_bells :
    let r := 6
    let rest (r : Nat) : List (Nat × Nat × W32) := ((inputsOf bar r).drop 1).map fun i => (r, i, 0)
    let leaf := milled bar [⟨.bell r ((inputsOf bar r).headD 0), ⟨3, 0, 0, 0, [], 1⟩⟩] { bells := rest r }
    let root := milled bar [⟨.bell 0 ((inputsOf bar 0).headD 0), ⟨3, 0, 0, 0, [], 1⟩⟩] { bells := rest 0 }
    r ≠ bar.root ∧ (parentOf bar r).isSome = true ∧ inputsOf bar r ≠ [] ∧
    (∀ i ∈ inputsOf bar r, i = (inputsOf bar r).headD 0 ∨ (r, i, 0) ∈ (leaf.group 3).bells) ∧
    (∀ i ∈ inputsOf bar 0, i = (inputsOf bar 0).headD 0 ∨ (0, i, 0) ∈ (root.group 3).bells) ∧ (root.group 3).tree = none ∧
    1 < (inputsOf bar 0).length := by decide +kernel

/-- For Mill: a deposit that has every chunk, and a notice of a FAULTED group. -/
theorem witness_mill_ends :
    let d : GroupDesc := { red with result := 1, resultDva := 256, flagDva := 64, vis := 1 }
    let s : State := { linked with
      xlt := { linked.xlt with l1 := [(320, [⟨⟨1, 0, 0⟩, 0x4000001⟩])] }
      mil := { groups := [(3, { state := 1, ctx := 1, desc := some d, dep := [(0, outChunks d, 2)] })] } }
    let x := xlateAll s (millReq s 3 d) 1 d.flagDva 8
    let w : MWait := ⟨0, 1, 5, 0x4000, 0, 2, false⟩
    let n : State := { withThread 1 (thread []) with mil := {
      groups := [(3, { state := 3, ctx := 1, desc := some red, waits := [w] })], flight := [⟨.notice 0, ⟨3, 0, 0, 0, [], 1⟩⟩] } }
    (s.group 3).dep = [((s.group 3).nextSeq, outChunks d, 2)] ∧ (s.group 3).depWait = none ∧ (s.group 3).depZlr = [] ∧
    isOk x [(.dev 0x4000040, 8)] ∧
    (memWrite x.1 0x4000040 (leBytes 8 (2 * 2 ^ 32 + 2 ^ 63))).2 = none ∧ ⟨.notice 0, ⟨3, 0, 0, 0, [], 1⟩⟩ ∈ n.mil.flight ∧
    (n.group 3).state = 3 ∧ (n.group 3).waits = [w] ∧ groupThreads n 3 = [] ∧ (n.thr 0 1).st = .ready ∧
    (n.thr 0 1).dfr = none := by decide +kernel
/-! ### Witnesses: rings, events and the host -/

/-- Ring 0 in host memory on link 0, with a packet at HEAD; completion ring 0 beside it. -/
def ringed : State :=
  { linked with
    boot := { State.reset.boot with phase := 8 }
    pwr := { input := true }
    host := { linked.host with
      rings := [(0, { enable := true, ctx := 1, tail := 1 })], cqs := [(0, { enable := true, base := 0x10000 })] } }

/-- A NOP of context 1 with a record, at a length. -/
def nopPacket (len : Nat) : List Byte := packet 64 [(0, 1, 0), (1, 1, 1), (2, 1, 1), (3, 1, 8), (4, 2, len)]

/-- For RingsAndPackets: a packet that passes its checks, one of a header that does not, one that frames no packet, and a
command that may time out. -/
theorem witness_packet_arrival :
    let s := ringed
    let r := s.ring 0
    let bad := packet 64 [(1, 1, 2), (4, 2, 1)]
    r.enable = true ∧ r.halted = false ∧ r.head ≠ r.tail ∧ s.iso 0 = false ∧ ctxHeld s r.ctx = false ∧ cmdRoom s 0 = true ∧
    r.loc = false ∧ r.window = false ∧ (s.link r.link).up = true ∧ (s.link r.link).busMaster = true ∧
    (nopPacket 1).length = 64 * 1 ∧ winCovers (s.link r.link) (r.base + 64 * 0) (64 * 1) = true ∧
    fieldOf (nopPacket 1) 4 2 = 1 ∧ 1 ≤ (r.tail - r.head).toNat ∧ packetStatus s 0 (nopPacket 1) = stDONE ∧
    packetStatus s 0 bad ≠ stDONE ∧ fieldOf bad 4 2 = 1 ∧ fieldOf (nopPacket 0) 4 2 = 0 ∧ fieldOf (nopPacket 65) 4 2 = 65 ∧
    (let h := { hd with timeout := 5 }
     let t : State := { linked with host := { linked.host with inflight := [cmdOf h 0x31] } }
     let u : State := { linked with host := { linked.host with inflight := [cmdOf h 0x20], launches := [launch0] } }
     t.cmd? h.ring h.seq = some (cmdOf h 0x31) ∧ t.xlt.faults = [] ∧ t.xlt.offered = [] ∧ t.iso (h.ring / 16) = false ∧
     u.cmd? h.ring h.seq = some (cmdOf h 0x20) ∧ u.launch? h.ring h.seq = some launch0) := by decide +kernel

/-- For RingsAndPackets: ring 0 may be enabled where it is not, and not with a link beyond the last; so may completion ring 1;
HEAD at both sides of its bound. -/
theorem witness_ring_registers :
    let s := ringed
    let cfg (v : Word) : Ring :=
      let w := (v ||| 1#64).toNat
      { s.ring 1 with
        link := bits w 26 24, cq := bits w 21 16, log2 := bits w 15 12, ctx := bits w 11 5, priv := bit w 2, loc := bit w 1 }
    s.iso (0 / 16) = false ∧ (s.ring 1).enable = false ∧ ringCfgOk s 1 (cfg 0x20) = true ∧ ringCfgOk s 1 (cfg 0x4000020) = false ∧
    (s.ring 0).enable = true ∧ (s.cq 1).enable = false ∧ early s = false ∧
    ringPlace s false 0 (s.cq 1).base (32 * 2 ^ ((s.cq 1).log2 + 7)) = true ∧ (s.cq 0).enable = true ∧
    ((s.cq 0).tail - 0).toNat ≤ (s.cq 0).size ∧ (s.cq 0).size < ((s.cq 0).tail - 1).toNat ∧
    ((s.cq 0).tail - (0 - 128)).toNat = (s.cq 0).size ∧ s.dram.parked = [] ∧
    ({ s with dram := { s.dram with parked := [.bell 0 0 4] } } : State).dram.parked = [.bell 0 0 4] := by decide +kernel

/-- For HostRings: a record of each ring, that its link takes and that it does not. -/
theorem witness_records :
    let r : Rec := ⟨0, 0x12, 4, 0, 0, 0, 0, 0, false⟩
    let e : Ev := ⟨0, false, 1, 0x0400, 0, 0, 0, 0, 0⟩
    let at_ (h : Host_) : State := { ringed with
      host := { h with held := [(0, [r])] }
      evt := { ringed.evt with out := [e], ring := { enable := true, irqSev := 1 } }
      xlt := { ringed.xlt with faults := [xf], fq := [9], ring := { enable := true } } }
    let s := at_ { ringed.host with links := [(0, { (ringed.link 0) with msix := [(0, { masked := false })] })] }
    let t := at_ { ringed.host with links := [] }
    (s.cq 0).enable = true ∧ (s.cq 0).full = false ∧ nextRec s 0 = some r ∧ s.iso 0 = false ∧
    linkTakes (s.link 0) (s.cq 0).base 32 = true ∧ linkTakes (t.link 0) (t.cq 0).base 32 = false ∧ nextRec t 0 = some r ∧
    (s.cq 0).refused = false ∧ s.evt.ring.enable = true ∧ s.evt.ring.full 7 = false ∧ s.evt.out = [e] ∧ s.evt.held = [] ∧
    linkTakes (s.link 0) 0 32 = true ∧ e.sev < s.evt.ring.irqSev ∧ linkTakes (t.link 0) 0 32 = false ∧
    s.xlt.ring.enable = true ∧ s.xlt.ring.full 6 = false ∧ s.xlt.rewrite = [] ∧
    s.xlt.fq = [xf.id] ∧ s.xlt.offered = [] ∧
    s.xlt.faults.find? (fun y => y.id = xf.id) = some xf ∧ linkTakes (s.link 0) 0 64 = true ∧
    (tget {} (s.link 0).msix 0 : Msix).masked = false ∧ winCovers (s.link 0) (tget {} (s.link 0).msix 0 : Msix).addr 4 = true ∧
    linkTakes (t.link 0) 0 64 = false := by decide +kernel

/-- For HostRings: the largest ring and one beyond it, HEAD at both sides of its bound. -/
theorem witness_host_ring_registers :
    let s := ringed
    let p (v : Word) : W32 := v.setWidth 32
    bits (0x14 : Word).toNat 4 1 ≤ 10 ∧ 10 < bits (0x16 : Word).toNat 4 1 ∧ (s.link (bits (0x14 : Word).toNat 6 5)).up = true ∧
    s.evt.ring.enable = false ∧ s.xlt.ring.enable = false ∧ (s.evt.ring.tail - p 0xFFFFFF80).toNat ≤ 2 ^ (s.evt.ring.log2 + 7) ∧
    2 ^ (s.evt.ring.log2 + 7) < (s.evt.ring.tail - p 0xFFFFFF7F).toNat ∧
    (s.xlt.ring.tail - p 0xFFFFFFC0).toNat ≤ 2 ^ (s.xlt.ring.log2 + 6) ∧
    2 ^ (s.xlt.ring.log2 + 6) < (s.xlt.ring.tail - p 0xFFFFFFBF).toNat := by decide +kernel

/-- For Events: an INFO event that enters, merges, and is dropped by a queue of 960; a record that is released, with LOSS and
without. -/
theorem witness_events :
    let e : EvReport := ⟨0x0400, 0x0A00, 0, 5, 6⟩
    let r : Ev := ⟨0, false, 1, 0x0400, 0x0A00, 0, 1, 5, 6⟩
    let q (n : Nat) (d : Word) : State := { State.reset with evt := { State.reset.evt with queue := List.replicate n { r with d0 := d } } }
    let like (x : Ev) : Bool := x.code = e.code && x.source = e.source && x.ctx = e.ctx && x.d0 = e.d0
    let w (l : Bool) : State := { State.reset with evt := { State.reset.evt with queue := [r], loss := l, stamps := [(0, 1)] } }
    State.reset.iso (e.source / 2 ^ 14) = false ∧ evSev e.code < 2 ∧ (q 959 0).evt.queue.any like = false ∧ (q 959 0).evt.used < 960 ∧
    (q 1 5).evt.queue.any like = true ∧ (q 960 0).evt.queue.any like = false ∧ 960 ≤ (q 960 0).evt.used ∧
    (∀ l, (w l).evt.queue = [r] ∧ (∀ f, f < 4 → fbUp (w l) f = true → r.mer ≤ tget (0 : Word) (w l).evt.stamps f) ∧
      (w l).evt.loss = l ∧ (w l).evt.sbCount = 0 ∧ r.sev < (w l).evt.minSev) ∧ mctpServed ringed = true := by decide +kernel

/-- What holds of every entry and of the default holds of what a table gives. -/
theorem tget_forall {α : Type} {p : α → Bool} {d : α} {t : Tbl α} (h : (t.all fun e => p e.2) = true) (hd : p d = true)
    (k : Nat) : p (tget d t k) = true := by
  induction t with
  | nil => exact hd
  | cons e r ih =>
    obtain ⟨i, x⟩ := e
    simp only [List.all_cons, Bool.and_eq_true] at h
    simp only [tget]
    split
    · exact h.1
    · exact ih h.2

/-- No link has a zero-length read of an invalidation to do where none has one at all. -/
theorem no_inval {s : State} (h : (s.host.links.all fun e => e.2.zlr.isEmpty) = true) (j : Nat) :
    ZWho.inval ∉ (s.link j).zlr := by
  have := tget_forall (p := fun k : Link => k.zlr.isEmpty) (d := {}) h rfl j
  rw [State.link, List.isEmpty_iff.mp this]
  exact List.not_mem_nil

def linkAt (k : Link) : State := { ringed with host := { ringed.host with links := [(0, k)] } }

/-- For HostLinks: links that are up, retrain, have a read outstanding, and are down and may train. -/
theorem witness_links :
    let s := ringed
    let r : ORead := ⟨some 0, .thread 0 1, 1, 0, 0, 8, 0, 0, none⟩
    s.dram.parked = [] ∧ (∀ j, ZWho.inval ∉ (s.link j).zlr) ∧ (s.link 0).perst = false ∧ (s.link 2).perst = false ∧
    (s.link 0).up = true ∧ ((linkAt { retraining := true }).link 0).retraining = true ∧
    (∀ j, ZWho.inval ∉ ((linkAt { retraining := true }).link j).zlr) ∧
    (((linkAt { up := true, reads := [r] }).link 0).reads.any fun r => r.tag.isSome) = true ∧
    (∀ j, ZWho.inval ∉ ((linkAt { up := true, reads := [r] }).link j).zlr) ∧
    ((linkAt {}).link 0).up = false ∧ mayTrain (linkAt {}) 0 = true ∧ rateOk (linkAt {}) 0 6 16 = true ∧
    ((linkAt {}).link 0).pend = [] ∧ (linkAt {}).evt.ring.refused = false ∧ (linkAt {}).xlt.ring.refused = false ∧
    (∀ e ∈ (linkAt {}).host.cqs, e.2.refused = false) ∧ NothingHeld (linkAt {}) :=
  ⟨by decide +kernel, no_inval (by decide +kernel), by decide +kernel, by decide +kernel, by decide +kernel, by decide +kernel,
    no_inval (by decide +kernel), by decide +kernel, no_inval (by decide +kernel), by decide +kernel, by decide +kernel,
    by decide +kernel, by decide +kernel, by decide +kernel, by decide +kernel, by decide +kernel,
    nothing_held _ rfl rfl rfl rfl rfl rfl⟩

/-- For HostLoss: link 0 in each step of a loss, with the context's thread READY, and its resumption. -/
theorem witness_host_loss :
    let at_ (n : Nat) (rst armed : Bool) : State := { mapped (withThread 1 (thread [])) with
      host := { State.reset.host with links := [(0, { loss := n, lossReset := rst })], armed := armed } }
    let fs := [(1, 1, 1), (2, 1, 2 * 0)]
    let h0 := { hd with ctx := 0 }
    let s : State := { mapped (withThread 1 { thread [] with st := .held, prev := .ready }) with
      host := { State.reset.host with
        links := [(0, { up := true })], rings := [(0, { enable := true, ctx := 1 })],
        inflight := [{ cmdOf h0 0x82 with running := false, par := packet 64 fs }] } }
    let r : State := { s with xlt := { s.xlt with ctxs := [(1, { state := 2 })] } }
    (∀ n ∈ [1, 2, 3], ∀ b c, ((at_ n b c).link 0).loss = n ∧ ((at_ n b c).link 0).lossReset = b ∧ (at_ n b c).host.armed = c) ∧
    ((at_ 1 false false).core 0).ctx = 1 ∧ ((at_ 1 false false).ctx 1).state ≠ 0 ∧ ((at_ 1 false false).ctx 1).link = 0 ∧
    ((at_ 1 false false).thr 0 1).st = .ready ∧ ((at_ 2 false false).link 0).reads = [] ∧
    ((at_ 2 false false).link 0).zlr = [] ∧ (at_ 2 false false).car.slots = [] ∧ (at_ 2 false false).car.queue = [] ∧
    (at_ 2 false false).host.parked = [] ∧ (∀ e ∈ (at_ 2 false false).cores, e.2.aops = [] ∧ ∀ x ∈ e.2.thr, x.2.blk = none) ∧
    (at_ 2 false false).mil.groups = [] ∧ ((at_ 2 false false).ctx 1).state = 1 ∧
    (let s := at_ 3 true true
     s.dram.parked = [] ∧ s.dram.zeroing = false ∧ s.xlt.inval = none ∧ s.xlt.invalQ = [] ∧ s.xlt.dying = []) ∧
    (let s := at_ 3 true false
     let s0 : State := s.setLink 0 { s.link 0 with loss := 0, lossReset := false }
     (destroyAll { s0 with host := { s0.host with lossEnds := true } }
       ((tkeys s.xlt.ctxs).filter fun c => c ≠ 0 && (s.ctx c).state ≠ 0)).dram.parked = []) ∧
    (isFw 0x82 && reeveDown r 0) = false ∧ (beginCmd r h0 0x82 fs).isSome = true ∧ isPriv 0x82 = true ∧
    (r.ctx 1).state = 2 ∧ trained r 0 = true ∧
    (∀ q ∈ ringsOf r 1, (r.ring q).enable = true ∧ (r.ring q).link = 0) ∧ r.host.held = [] ∧ (r.core 0).ctx = 1 ∧
    (r.thr 0 1).st = .held := by decide +kernel

theorem witness_resume_threads (x : Thread) (h : x.st = .held → x.prev = .ready) (m v : Nat) :
    ((withThread 1 x).thr m v).st = .held → ((withThread 1 x).thr m v).prev = .ready := by
  intro hh
  by_cases hm : m = 0
  · subst hm
    by_cases hv : v = 1
    · subst hv
      exact h hh
    · have : (withThread 1 x).thr 0 v = {} := by
        show tget ({} : Thread) [(1, _)] v = {}
        simp only [tget, hv, ↓reduceIte]
      rw [this] at hh
      exact TState.noConfusion hh
  · have : (withThread 1 x).thr m v = {} := by
      show tget ({} : Thread) (tget ({} : Core) [(0, _)] m).thr v = {}
      simp only [tget, hm, ↓reduceIte]
    rw [this] at hh
    exact TState.noConfusion hh

/-- For HostLinks: thread 1 waits with an LDG of host memory. -/
theorem witness_outbound :
    let r : ORead := ⟨some 7, .thread 0 1, 1, 64, 2 ^ 30 + 64, 8, 0, 0, none⟩
    let s : State := { withThread 1 { thread [(1, 2 ^ 30 + 64)] with
        st := .waiting, wait := .access, blk := some (.ldg 0 4 1 3) } with
      xlt := { State.reset.xlt with atHome := [⟨.thread 0 1, 0, 2 ^ 30 + 64, 8, [(.host 0 64, 8)]⟩] }
      host := { State.reset.host with links := [(0, { up := true, busMaster := true, reads := [r] })] } }
    let x := s.thr 0 1
    twf {} s.host.links = true ∧ (s.link 0).reads = [r] ∧ readsOf s (.thread 0 1) = [r] ∧ x.st = .waiting ∧
    x.blk = some (.ldg 0 4 1 3) ∧ x.dfr = none ∧ s.xlt.inval = none ∧ (s.link 0).retraining = false ∧ s.car.slots = [] ∧
    (leBytes 8 5).length = r.len ∧ r.len = sizeBytes 3 ∧ (x.rp 0).getLsbD 0 = true ∧
    (dvaChecks (x.rs 1).toNat r.len).all (fun c => !c.1) = true ∧ pcOk 1 (x.pc.toNat + 8) = true ∧
    s.xlt.atHome = [⟨.thread 0 1, 0, (x.rs 1).toNat, r.len, [(.host 0 r.addr, r.len)]⟩] := by decide +kernel

/-- For HostAccesses: TAIL moves within the ring, beyond it and back; a packet in the window. -/
theorem witness_doorbells :
    let s := { ringed with host := { ringed.host with
      rings := [(0, { enable := true, ctx := 1, tail := 1 })], windows := Memory.writeN [] 0 (nopPacket 3) } }
    let r := s.ring 0
    let fits (t : W32) : Prop :=
      r.enable = true ∧ (t - r.head).toNat ≤ 2 ^ (r.log2 + 6) ∧ (r.tail - r.head).toNat ≤ (t - r.head).toNat
    s.dram.zeroing = false ∧ s.dram.parked = [] ∧ fits 64 ∧ ¬ fits 65 ∧ ¬ fits 0 ∧ r.window = false ∧ windowLen s 0 = 3 ∧
    fits 4 ∧ (4 : W32) = r.tail + BitVec.ofNat 32 3 ∧ (s.ring 1).enable = false ∧
    (let w := s.setRing 0 { r with window := true }
     (w.ring 0).window = true ∧ (w.ring 0).enable = true ∧ w.dram.parked = []) := by decide +kernel

/-- For HostAccesses: the host and a peer once the module is READY, and any access before. -/
theorem witness_bar_accesses :
    let s := { ringed with host := { ringed.host with links := [(0, { up := true, rid := 8, ridMask := 0xFFFF })] } }
    let k := s.link 0
    s.boot.phase = 8 ∧ ((8 : BitVec 16) &&& k.ridMask) = k.rid ∧ s.dram.zeroing = false ∧ s.dram.parked = [] ∧
    isOk (memRead s (k.bar2 + 64) 4) [0, 0, 0, 0] ∧ (memWrite s (k.bar2 + 64) [1]).2 = none ∧
    ((9 : BitVec 16) &&& k.ridMask) ≠ k.rid ∧ s.host.regions = [] ∧ State.reset.boot.phase ≠ 8 ∧
    State.reset.boot.phase ≠ 9 := by decide +kernel

/-- For HostAccesses: a write of each side, one that comes into effect, and the release of a region. -/
theorem witness_windows :
    let at_ (own : Bool) : State := { ringed with host := { ringed.host with
      winOwn := [(0, own)], links := [(0, { up := true, winPending := [(3, true, 0x5000)] })],
      regions := [(7, some ⟨true, true, 0, 0, 4096, 4096⟩)],
      inflight := [{ cmdOf hd 0x61 with running := false, par := packet 64 [(1, 1, 7)] }] } }
    (at_ true).iso (linkFb 0) = false ∧ tget true (at_ true).host.winOwn (0 % 2) = true ∧
    tget true (at_ false).host.winOwn (0 % 2) = false ∧ ((at_ true).link 0).winPending = [(3, true, 0x5000)] ∧
    ((at_ true).link 0).pend = [] ∧ (at_ true).evt.ring.refused = false ∧ (∀ e ∈ (at_ true).host.cqs, e.2.refused = false) ∧
    Startable (at_ true) 0x61 hd [(1, 1, 7)] ∧ tget none (at_ true).host.regions 7 = some ⟨true, true, 0, 0, 4096, 4096⟩ ∧
    (at_ true).dram.parked = [] :=
  ⟨by decide +kernel, by decide +kernel, by decide +kernel, by decide +kernel, by decide +kernel, by decide +kernel,
    by decide +kernel, startable_of (by decide +kernel), by decide +kernel, by decide +kernel⟩
/-! ### Witnesses: power, temperature and clocks -/

/-- A module that is up, READY. -/
def up : State := { State.reset with pwr := { input := true }, boot := { State.reset.boot with phase := 8 }, scAdmitted := 1 }

/-- For Power: no input, the input with and without a warning. -/
theorem witness_input :
    State.reset.pwr.input = false ∧ up.pwr.input = true ∧ up.pwr.ovWarn = false ∧
    ({ up with pwr := { up.pwr with uvWarn := true, ovWarn := true } } : State).pwr.ovWarn = true := by decide +kernel

/-- For Power: samples at 93 % of the limit and above it, a release that is due, a budget for an FB that a PWR_SET
waits for, caps at both ends, quadrants 0 and 3. -/
theorem witness_limits :
    let l := limitW up
    let r : State := { up with pwr := { up.pwr with limReq := 3, limHold := 0, limWin := 100 } }
    let b : State := { runs 0x72 up with host := { (runs 0x72 up).host with parked := [(0, 0, .budget [2])] } }
    l = 3600 ∧ 93 * l < 100 * 3349 ∧ 100 * 3348 ≤ 93 * l ∧ up.pwr.limReq ≠ 3 ∧ 0 < r.pwr.limReq ∧ r.pwr.limHold = 0 ∧
    r.pwr.limWin = 100 ∧ up.powered = true ∧ up.iso 2 = false ∧ reeveDown up 0 = false ∧ up.host.parked = [] ∧
    b.host.parked = [(hd.ring, hd.seq, .budget [2])] ∧ b.cmd? hd.ring hd.seq = some (cmdOf hd 0x72) ∧
    b.iso (hd.ring / 16) = false ∧ mctpServed up = true ∧ 1200 ≤ up.pwr.ceilingW := by decide +kernel

/-- For Temperatures: a die at each limit, and below the limit at which it clears. -/
theorem witness_temperatures :
    let s (w t : Bool) : State := { up with thm := { up.thm with warn := [(24 + 1, w)], throttle := [(24 + 1, t)] } }
    let a : State := { up with thm := { thermtrip := true, autoHeld := true, temp := [(0, 69)] } }
    tget false (s false false).thm.warn (8 * 3 + 1) = false ∧ tget false (s true true).thm.warn (8 * 3 + 1) = true ∧
    tget false (s false false).thm.throttle (8 * 3 + 1) = false ∧ tget false (s true true).thm.throttle (8 * 3 + 1) = true ∧
    (s true true).powered = true ∧ a.thm.thermtrip = true ∧ a.thm.autoHeld = true ∧ a.pwr.input = true ∧
    a.pwr.ovLatch = false ∧ (∀ e ∈ a.thm.temp, e.2 < 70) := by decide +kernel

/-- For ClocksAndMeridian: copies that agree, one that is behind and one that is ahead. -/
theorem witness_meridian :
    let s (n : Nat) : State := { up with mer := { acc := [(0, 100), (1, 100), (2, BitVec.ofNat 96 n), (3, 100)] } }
    let acc (s : State) (j : Nat) : BitVec 96 := tget 0 s.mer.acc j
    up.pwr.input = true ∧ (∀ j, j ∈ [1, 2, 3] → acc (s 100) j = acc (s 100) 0) ∧
    (∀ n ∈ [99, 101], (∀ j, j ∈ [1, 2, 3] → j ≠ 2 → acc (s n) j = acc (s n) 0) ∧ (s n).iso 2 = false ∧
      tget false (s n).mer.hold 2 = false) ∧
    acc (s 99) 2 < acc (s 99) 0 ∧ acc (s 101) 0 < acc (s 101) 2 ∧ up.fab.role ≠ 2 ∧ up.mer.tempPpb = 0 ∧
    up.mer.stepNs = 0 := by decide +kernel

/-- 25 MHz edges: FB0's copy is 40 ns on (R318, R400). -/
theorem test_meridian : (match exec .meridianEdge up with
    | .next t => tget (0 : BitVec 96) t.mer.acc 0
    | _ => 0) = 171798691840 := by decide +kernel

/-- For ClocksAndMeridian: a unit below its target, a cluster whose cores are idle and one whose cores are not, a stopped SC, a sleeping
one, an idle FB. -/
theorem witness_clocks :
    let s : State := { up with clk := { freq := [(0, 24), (1, 24)], running := [(0, 1)] } }
    let idle (s : State) (k : Nat) : Prop := ∀ n ∈ clusterCores s 0 k, coreIdle s n = true
    let z : State := { up with pwr := { up.pwr with rail := [(1, 2)] }, cores := [(17, { reset := false })] }
    0 < freqOf s 0 0 ∧ freqOf s 0 0 < targetFreq s 0 0 ∧ clusterRuns s 0 0 = true ∧ idle s 0 ∧ s.scAdmitted.getLsbD 0 = true ∧
    clusterRuns s 0 16 = false ∧ scSleeps s 0 = false ∧ tget 0 up.clk.running 0 = 0 ∧ scSleeps up 0 = false ∧
    scSleeps z 0 = true ∧ ¬ idle z 1 ∧ idle z 0 ∧ tget false up.clk.baseStop 1 = false ∧ up.iso 1 = false ∧
    fabricIdle up 1 = true ∧ tget false up.clk.reeveStop 1 = false ∧ starting up = false ∧
    (∀ x ∈ up.host.inflight, x.ring / 16 = 1 → isFw x.op = false) := by decide +kernel

/-! ### Witnesses: dies and bundles -/

/-- For DieLoss: a clock off by more than a quarter, for the first and the second time; an FB without a reference and FB3
with its other one. -/
theorem witness_detection :
    let s : State := { up with die := { up.die with
      fbs := [(2, { source := 1 }), (3, { source := 1, altOk := true })], bad := [(0, 2, 0)] } }
    s.powered = true ∧ dieOut s (.sc 0) = false ∧ (s.fbDie 2).source = 1 ∧ (s.fbDie 2).altOk = false ∧
    dieOut s (.fb 2) = false ∧ s.iso 3 = false ∧ (s.fbDie 3).source = 1 ∧ (s.fbDie 3).altOk = true ∧ s.iso 0 = false ∧
    1000 < 4 * ((1251 - 1000) + (1000 - 1251)) ∧ ¬ 1000 < 4 * ((1250 - 1000) + (1000 - 1250)) ∧ (0, 2, 0) ∈ s.die.bad ∧
    (0, 2, 1) ∉ s.die.bad ∧ dieOut s (.sc (4 * 0 + 0 % 4)) = false := by decide +kernel

/-- For DieLoss: an SC and an FB that have been declared lost, an SC that is marked, with and without a LAUNCH. -/
theorem witness_isolation :
    let lost (d : Die) : State := { up with die := { up.die with lost := [(d, 2)] } }
    let m : State := { up with die := { up.die with marked := [(.sc 0, 2)] } }
    let n : State := { hosted with die := { up.die with marked := [(.sc 0, 2)] }, host := { up.host with launches := [launch0] } }
    (lost (.sc 15)).die.lost = [(.sc 15, 2)] ∧ (up.iso 1 && up.iso 2) = false ∧ (lost (.fb 2)).die.lost = [(.fb 2, 2)] ∧
    up.fab.links = [] ∧ (up.iso 1 || up.iso 2) = false ∧ m.die.marked = [(.sc 0, 2)] ∧ m.mil.groups = [] ∧ m.fab.reqs = [] ∧
    m.host.launches = [] ∧ (m.sc 0).lossWin ≠ some (windowOf m 0) ∧ Die.sc 0 ∉ m.die.readmit ∧ n.die.marked = [(.sc 0, 2)] ∧
    n.host.launches = [launch0] ∧ launchOn (.sc 0) launch0 = true ∧ (n.ctx launch0.ctx).state = 1 := by decide +kernel

theorem witness_isolation_held (d : Die) : NothingHeld { up with die := { up.die with lost := [(d, 2)] } } :=
  nothing_held _ rfl rfl rfl rfl rfl rfl

/-- A capability record of SC 5: RECORD 1, KIND 1 of generation 1, its index, RPROTO 1. -/
def scRecord : List Byte := packet 64 [(0, 1, 1), (1, 1, 0x11), (3, 1, 5), (4, 1, 0x10), (6, 2, 272), (8, 2, 64)]
def fbRecord : List Byte := packet 64 [(0, 1, 1), (1, 1, 0x10), (3, 1, 2), (4, 1, 0x10)]

/-- For DiesAndBundles: SCs in each state, records that pass and that do not, an FB that is isolated, one whose readmission
runs. -/
theorem witness_readmission :
    let st (n : Nat) : State := { up with die := { up.die with scs := [(5, { st := n })] } }
    let fb : State := { up with die := { up.die with fbIso := 4 } }
    let re : State := { up with die := { up.die with fbIso := 4, readmit := [.fb 2], fbs := [(2, { record := true })] } }
    let four : State := { up with boot := { up.boot with phase := 4 } }
    up.powered = true ∧ up.iso (0 / 4) = false ∧ up.scAdmitted.getLsbD 0 = true ∧ dieOut up (.sc 0) = false ∧
    (st 3).scAdmitted.getLsbD 5 = false ∧ mayReadmit (st 3) 5 = true ∧ ((st 3).fbDie (5 / 4)).autoReadmit = true ∧
    reeveDown (st 3) (5 / 4) = false ∧ ((st 4).sc 5).st = 4 ∧
    (({ up with die := { up.die with scs := [(5, { st := 4, proto := 1 })] } } : State).sc 5).proto = 1 ∧ ((st 1).sc 5).st = 1 ∧ recordCheck (st 1) (.sc 5) scRecord = 0 ∧
    recordCheck (st 1) (.sc 5) fbRecord ≠ 0 ∧ four.boot.phase = 4 ∧ recordCheck four (.fb 2) fbRecord = 0 ∧ fb.iso 2 = true ∧
    Die.fb 2 ∉ fb.die.readmit ∧ fb.die.marked = [] ∧ Die.fb 2 ∈ re.die.readmit ∧ (re.fbDie 2).record = true := by
  decide +kernel

/-- For DiesAndBundles: an end in each state, 16 lanes and 15, lane clock 1 alone, a hop that is frozen and drained. -/
theorem witness_bundles :
    let b : Bundle := ⟨0, 0, 1, 1⟩
    let at_ (x : BundleEnd) : State := { up with
      die := { up.die with bundles := [(endKey b, x), (endKey (peerEnd b), x)] }
      msh := { ports := (pairPorts 0 1).map fun q => (portKey q, { freeze := true, drained := true }) } }
    ((at_ { st := 4, nakRun := 7, nakSeq := 5 }).bend b).st = 4 ∧ ((at_ { st := 4, nakRun := 7, nakSeq := 5 }).bend b).nakSeq = 5 % 4096 ∧
    ((at_ { st := 2 }).bend b).st = 2 ∧ (at_ {}).boot.disabled = [] ∧ (at_ {}).boot.fuse = [] ∧
    16 ≤ popcount18 (0x3FFFC &&& 0x0FFFF ||| 0x30000) ∧ popcount18 0x07FFF < 16 ∧ (2 : BitVec 2) &&& 3 ≠ 0 ∧
    ((at_ { st := 3 }).bend b).st = 3 ∧ ((at_ { st := 5, rounds := 3 }).bend b).st = 5 ∧
    bundleUp (at_ { st := 4 }) (edgeOfB b) b.i b.b = true ∧
    (∀ p ∈ pairPorts (edgeOfB b) b.i, ((at_ { st := 4 }).port p).freeze = true ∧ ((at_ { st := 4 }).port p).drained = true) ∧
    starting (at_ {}) = false ∧ ((at_ { st := 4 }).bend b).crcErr < 16 ∧ ((at_ { st := 4, retrain := true }).bend b).retrain = true ∧
    b.fb < 4 ∧ b.s < 2 ∧ b.i < 8 ∧ b.b < 2 ∧
    (let up (s : State) : State := s.setBend b { s.bend b with
      st := 4, rxSeq := 0, txSeq := 0, acked := 0, nakRun := 0, nakOwed := false, crcErr := 0 }
     hopReturns (up (at_ { st := 3 })) (edgeOfB b) b.i = false ∧
     hopReturns (up ((at_ { st := 4, retrain := true }).setBend b { st := 3, retrain := true })) (edgeOfB b) b.i = true) := by
  decide +kernel
/-! ### Witnesses: starts, monitors, watchdogs -/

/-- A start is in a step. -/
def inStep (p slot : Nat) (warm : Bool) : State :=
  { up with boot := { up.boot with phase := p, slot := slot, warm := warm } }

/-- For StartRequestsAndFailures: a module that is READY, and one that starts. -/
theorem witness_start_requests : up.powered = true ∧ starting up = false ∧ starting (inStep 3 0 false) = true ∧
    (∀ e ∈ up.xlt.ctxs, e.2.state = 0) := by decide +kernel

theorem witness_no_contexts (c : Nat) : (up.ctx c).state = 0 := rfl

/-- For StartSteps: each step with what its clause needs. -/
theorem witness_steps :
    let four : State := { inStep 4 0 false with die := { up.die with
      fbs := [(1, { record := true }), (2, { record := true }), (3, { record := true })], scs := [(5, { st := 1, proto := 1 })] } }
    (∀ p ∈ [1, 2, 3, 4, 5, 6, 7], ∀ w, (inStep p 0 w).powered = true ∧ 20000 ≤ stepLimit w p) ∧ 200000 = stepLimit true 11 ∧
    (inStep 2 0 false).lock = false ∧ (inStep 2 0 false).boot.toRecovery = false ∧ (c0Check (c0Words (inStep 2 0 false))).2 = [] ∧ (inStep 3 0 false).die.fbIso = 0 ∧
    four.boot.disabled = [] ∧ (∀ i ∈ [1, 2, 3], (four.fbDie i).record = true) ∧ (four.sc 5).st = 1 ∧ (four.sc 5).proto = 1 ∧
    (inStep 5 2 false).boot.slot = 2 ∧ (inStep 7 0 false).boot.release = [] ∧ linesOk (inStep 11 0 true) = true ∧ (inStep 11 0 true).dram.writeBacks = [] ∧
    ((inStep 11 0 true).cores.map (·.1)).Nodup := by decide +kernel

/-- The two slots that the spec allows in context 0 pass the check (R214, R353). -/
theorem test_c0seg : (c0Check (c0Words State.reset)).1.length = 2 := by decide +kernel

/-- For StartRequestsAndFailures: a firmware failure with each image, FB0's, another failure of a warm start, and both sides of a step's
limit. -/
theorem witness_failures :
    let r : StepReport := ⟨true, true, [], [], [], [], [], []⟩
    let f : StepReport := ⟨false, false, [0], [], [], [], [], []⟩
    let o : StepReport := ⟨true, false, [], [], [], [], [], []⟩
    r.fail = true ∧ r.firmware = true ∧ f.fail = false ∧ 0 ∈ f.fbFail ∧ o.fail = true ∧ o.firmware = false ∧ o.fbFail = [] ∧
    (inStep 2 1 false).boot.slot < 2 ∧ (inStep 3 2 false).boot.slot = 2 ∧ (inStep 6 0 true).boot.warm = true ∧
    300000 ≤ stepLimit true 2 ∧ stepLimit true 2 < 300001 ∧ starting (inStep 11 0 true) = true ∧ stepLimit false 1 < 20001 := by
  decide +kernel

/-- For MonitorsAndWatchdogs: the first SC to release, a core that boots with a good descriptor and with a bad one, one whose monitor
faulted. -/
theorem witness_monitor_start :
    let s7 : State := { inStep 7 0 false with boot := { (inStep 7 0 false).boot with release := [0, 3] } }
    let c (d : List Byte) (w : Nat) : State := { up with
      cores := [(0, { reset := false })], mem := Memory.writeN [] 0xF000000000 d
      dram := { up.dram with banks := (List.range 64).map fun b => (b, { w := w, scr := [(0, 0), (1, 1)] }) } }
    let d := descriptor up 0
    let s := c d 2
    let b := c (List.replicate 32 1) 2
    let f : State := { up with cores := [(0, { reset := false, monFault := true })] }
    s7.boot.release = 0 :: [3] ∧ booting s 0 = true ∧ isOk (memRead s 0xF000000000 32) d ∧
    goodDescriptor (memRead s 0xF000000000 32).1 d = some (8, 0xF000020000, 0) ∧
    isOk (memRead (memRead s 0xF000000000 32).1 0xF000020000 8) [0, 0, 0, 0, 0, 0, 0, 0] ∧ booting b 0 = true ∧
    isOk (memRead b 0xF000000000 32) (List.replicate 32 1) ∧
    goodDescriptor (memRead b 0xF000000000 32).1 (List.replicate 32 1) = none ∧ b.boot.phase ≠ 7 ∧
    (memRead b 0xF000000000 32).1.boot.phase = b.boot.phase ∧ (f.core 0).monFault = true ∧ reeveDown f (coreFb 0) = false ∧
    f.fab.reqs = [] := by decide +kernel

/-- For MonitorsAndWatchdogs: a Reeve that runs in READY, in steps 2 and 3, one that restarts, the port enabled. -/
theorem witness_watchdogs :
    let j : State := { up with sec := { up.sec with jtagEn := true, wdog := [(1, { down := true })] } }
    up.iso 1 = false ∧ reeveDown up 1 = false ∧ up.boot.phase = 8 ∧ reeveDown (inStep 2 1 false) 1 = false ∧
    (inStep 3 1 false).boot.slot < 2 ∧ (tget {} j.sec.wdog 1 : Wdog).down = true ∧ j.sec.jtagEn = true ∧
    up.sec.jtagEn = false := by decide +kernel

/-- For RegisterWrites: a write of each kind; the lock open and closed. -/
theorem witness_register_writes :
    let k : State := { up with lock := true }
    (3 : Nat) ≠ 4 ∧ (3 : Nat) ≠ 8 ∧ 4 % 8 ≠ 0 ∧ State.reset.powered = false ∧
    ({ up with die := { up.die with fbIso := 2 } } : State).iso ((2 ^ 24 + 8) / 2 ^ 24) = true ∧ up.powered = true ∧
    up.iso 0 = false ∧ up.lock = false ∧ k.lock = true := by decide +kernel

/-! ### Witnesses: fabric -/

/-- A link of Lantern 0 in a state. -/
def linkIn (k : FLink) : State :=
  { up with fab := { up.fab with
      links := [(0, k)], id := 5, idValid := true
      lanterns := [(0, { admitted := true, ucieUp := 1, lightA := true })] } }

/-- For FabricLinks: a link in each state; an exchange that agrees on six lanes, and one that does not, early and in the
third round. -/
theorem witness_training :
    let x (w : Nat) : TrainEx := ⟨0x7F, 0xFF, 8, w, true, 9, 3⟩
    let fits (s : State) (x : TrainEx) (v : Nat) : Prop := v ∈ [8, 6, 4, 2] ∧ v ≤ popcount8 (x.good &&& x.peerGood) ∧
      v ≤ min (min (if tget false s.thm.throttle 7 = true then 4 else 8) (s.flink 0).maxW) x.peerMax
    let s := linkIn { st := 2 }
    let b : State := { linkIn {} with fab := { (linkIn {}).fab with
      lanterns := [(0, { admitted := true, ucieBad := 1 })] }, die := { up.die with fbIso := 1 } }
    s.fab.waits = [] ∧ s.fab.reqs = [] ∧ s.fab.fwd = [] ∧ s.iso (0 / 24) = false ∧ b.iso (0 / 24) = true ∧
    (b.lantern (0 / 24)).ucieBad.getLsbD (0 % 24 / 2) = true ∧ ((linkIn {}).flink 0).st = 0 ∧ ((linkIn {}).lantern (0 / 24)).admitted = true ∧
    (up.lantern (0 / 24)).admitted = false ∧ ((linkIn { st := 1 }).flink 0).st = 1 ∧ (s.flink 0).txq = [] ∧ (s.flink 0).maxW ≤ 8 ∧
    fits s (x 6) 6 ∧ (∀ v, v ≤ 8 → fits s (x 6) v → v ≤ 6) ∧ (x 6).peerWidth = 6 ∧ (x 6).peerId ≠ s.fab.id ∧
    (x 4).peerWidth ≠ 6 ∧ (s.flink 0).rounds < 2 ∧ 2 ≤ ((linkIn { st := 2, rounds := 2 }).flink 0).rounds ∧
    (∀ e ∈ s.cores, ∀ y ∈ e.2.thr, y.2.wait ≠ .xrecv 0) ∧ ((linkIn { st := 3 }).flink 0).st = 3 ∧
    (5 : Nat) ∉ [8, 6, 4, 2] ∧ (s.flink 0).frames = [] ∧ ((linkIn { st := 5 }).flink 0).st = 5 := by decide +kernel

/-- A Lantern's record. -/
def lanternRecord (p : Nat) : List Byte := packet 32 [(0, 1, 1), (1, 1, 1), (6, 1, 24), (7, 1, 8), (8, 1, 1), (9, 1, 2), (10, 2, p)]

/-- For FabricLinks: a link in each state; records that pass and that fail by their power. -/
theorem witness_link_failures :
    (∀ n ∈ [2, 3, 4], ((linkIn { st := n }).flink 0).st = n) ∧ (linkIn {}).fab.reqs = [] ∧ (linkIn {}).fab.fwd = [] ∧
    (linkIn {}).cores = [] ∧ (linkIn {}).iso (0 / 24) = false ∧
    lanternReject (linkIn {}) (lanternRecord 100) = none ∧ lanternReject (linkIn {}) (lanternRecord 99) = some 10 := by
  decide +kernel

theorem witness_links_empty (j : Nat) : ((linkIn { st := 3 }).flink j).txq = [] ∧ ((linkIn { st := 3 }).flink j).frames = [] := by
  show (tget ({} : FLink) [(0, _)] j).txq = [] ∧ (tget ({} : FLink) [(0, _)] j).frames = []
  simp only [tget]
  split <;> exact ⟨rfl, rfl⟩

/-- For FabricLinks: a link at the bounds of its counts, and a frame that has been asked for seven times. -/
theorem witness_frames :
    let a := linkIn { st := 3, uncorr := 16, nakRun := 7, rxSeq := 4095 }
    let b := linkIn { st := 3, uncorr := 15 }
    let c := linkIn { st := 3, frames := [(7, fpkt)], txSeq := 8, txAck := 7, nakRun := 7, nakSeq := 7 }
    (a.flink 0).st = 3 ∧ (a.flink 0).txq = [] ∧ (a.flink 0).uncorr ≤ 16 ∧ (a.flink 0).nakRun < 8 ∧ (b.flink 0).uncorr < 16 ∧
    (c.flink 0).frames = [(7, fpkt)] ∧ (c.flink 0).nakSeq = (c.flink 0).txAck ∧
    0 < framesOut (c.flink 0) ∧ (c.flink 0).nakRun = 7 ∧ (6 + 1 + 4096 - (c.flink 0).txAck) % 4096 = 0 ∧ a.fab.fwd = [] := by decide +kernel

/-- For FabricTraffic: a read and writes of a home, a response to an RGET, errors with and without a tag, packets for another
module, one that waits for a route, and a tag that times out. -/
theorem witness_fabric_packets :
    let s := linkIn { st := 3 }
    let w : State := { s with dram := { s.dram with ratDefault := { vis := 1, peerWr := true } } }
    let rd : FPkt := { fpkt with dst := 5, type := 0x02, addr := 64, len := 32 }
    let wr : FPkt := { fpkt with dst := 5, type := 0x01, addr := 64, data := [1, 2] }
    let rs : FPkt := { fpkt with dst := 5, type := 0x08, tag := 3, src := 9, data := [1, 2] }
    let q : EReq := ⟨0, some 3, 0, 1, 0, 0x4000, 64, { fpkt with dst := 9, len := 2 }, 3, false, none⟩
    let o : AOp := ⟨0, 1, 0x4000, 2, .rget 64 0 2, 0, 1, [], []⟩
    let t : State := { s with fab := { s.fab with reqs := [q] }, cores := [(0, { coreOf 1 (thread []) with aops := [o] })] }
    let v : State := { s with fab := { s.fab with waits := [(4, { fpkt with type := 0x0C })] } }
    let go : State := { s with fab := { s.fab with route := [(0, 0x8000000100000000)] } }
    let full : State := { go with fab := { go.fab with links := [(0, { st := 3, txq := List.replicate 40 { fpkt with
      len := 4096, data := List.replicate 4096 0 } })] } }
    let on : FPkt := { fpkt with hops := 1, len := 4096, data := List.replicate 4096 0 }
    (∀ p ∈ [rd, wr, rs, fpkt], takesPkt s 0 p = true) ∧ rd.dst = s.fab.id ∧ dpaOk (rxPass s 0 rd) 64 = true ∧
    dpaOk (rxPass s 0 rd) (64 + rd.len - 1) = true ∧ isOk (memRead (rxPass s 0 rd) 64 32) (List.replicate 32 0) ∧
    (ratOf (rxPass w 0 wr) 64).peerWr = true ∧ (memWrite (rxPass w 0 wr) 64 wr.data).2 = none ∧ w.dram.parked = [] ∧
    takesPkt w 0 wr = true ∧ (ratOf (rxPass s 0 wr) 64).peerWr = false ∧ t.fab.reqs = [q] ∧ q.tag = some rs.tag ∧
    q.pkt.dst = rs.src ∧ q.dead = false ∧ takesPkt t 0 rs = true ∧ rs.data.length = q.pkt.len ∧
    (t.core 0).lsBad = [] ∧ (t.core 0).aops = [o] ∧ o.id = q.op ∧ o.stage = 1 ∧ reqOf s 3 = none ∧ reqOf t 3 = some q ∧
    fpkt.dst ≠ s.fab.id ∧ fpkt.type ≠ 0x20 ∧ v.fab.waits = [(4, { fpkt with type := 0x0C })] ∧ v.fab.reqs = [] ∧
    takesPkt go 0 fpkt = true ∧ go.fab.fwd = [] ∧ (∃ e, routeOf go { fpkt with hops := 1 } = .go e ∧ e = 0) ∧
    egressRoom (go.flink 0) { fpkt with hops := 1 } = true ∧ takesPkt full 0 { on with hops := 0 } = true ∧
    (∃ e, routeOf full on = .go e ∧ e = 0) ∧ egressRoom (full.flink 0) on = false ∧
    (∀ e ∈ s.cores, ∀ x ∈ e.2.thr, x.2.wait ≠ .xrecv 0) := by
  refine ⟨by decide +kernel, by decide +kernel, by decide +kernel, by decide +kernel, by decide +kernel, by decide +kernel,
    by decide +kernel, by decide +kernel, by decide +kernel, by decide +kernel, by decide +kernel, by decide +kernel,
    by decide +kernel, by decide +kernel, by decide +kernel, by decide +kernel, by decide +kernel, by decide +kernel,
    by decide +kernel, by decide +kernel, by decide +kernel, by decide +kernel, by decide +kernel, by decide +kernel,
    by decide +kernel, by decide +kernel, by decide +kernel, by decide +kernel, ⟨0, rfl, rfl⟩, by decide +kernel,
    by decide +kernel, ⟨0, rfl, rfl⟩, by decide +kernel, by decide +kernel⟩

/-- For FabricTraffic: no group; a group with a child, whose chunk is new and was seen; one with a parent; a chunk that
waits for its acknowledgement. -/
theorem witness_collectives :
    let tr : FTree := ⟨none, [9], 5, false⟩
    let p : FPkt := { fpkt with type := 0x10, src := 9, group := 3 }
    let at_ (g : Group) : State :=
      { linkIn { st := 3 } with mil := { groups := [(3, { g with state := 1, ctx := 1, desc := some red })] } }
    let o : FOut := ⟨9, 1, ⟨3, 0, 0, 0, [], 1⟩, true, 1⟩
    let s := at_ { tree := some tr }
    takesPkt s 0 p = true ∧ takesPkt (linkIn { st := 3 }) 0 p = true ∧ stages (s.group 3) red p.seq p.chunk = true ∧
    activeTree (linkIn { st := 3 }) p.group = none ∧ activeTree s p.group = some (red, tr) ∧
    (s.group 3).seen.contains (p.src, p.type, p.seq, p.chunk) = false ∧ (s.group 3).fin.length < red.depth ∧
    ((at_ { tree := some tr, seen := [(9, 0x10, 0, 0)] }).group 3).seen.contains (p.src, p.type, p.seq, p.chunk) = true ∧
    (8 : Nat) ∉ tr.children ∧ (s.group 3).fbells = [] ∧
    activeTree (at_ { tree := some ⟨some 9, [], 5, false⟩ }) p.group = some (red, ⟨some 9, [], 5, false⟩) ∧
    ((at_ { tree := some tr, fout := [o] }).group 3).fout.find?
      (fun o => o.sent && o.dst = p.src && o.m.seq = p.seq && o.m.chunk = p.chunk) = some o ∧
    o.backoff ≠ 0 ∧ tr.timeout ≠ 0 ∧ tr.parent = none ∧ o.dst = 9 ∧ s.host.parked = [] := by decide +kernel

/-- For RegisterWrites: a FOLLOWER whose parent link is ACTIVE, and one without; offsets at both sides of 1 µs; routes with no
link, four links and too many. -/
theorem witness_fabric_registers :
    let f (k : FLink) : State := { linkIn k with fab := { (linkIn k).fab with role := 2, parent := 0, exchange := true } }
    let off (t : Int) : Int := ((0 - t) - (t - 0)) / 2
    (f { st := 3 }).fab.role = 2 ∧ ((f { st := 3 }).flink 0).st = 3 ∧ ((f { st := 3 }).flink 0).txq = [] ∧
    ((f {}).flink 0).st ≠ 3 ∧ (f {}).fab.altParent = 0x7F ∧ (f {}).fab.exchange = true ∧ -16000 ≤ off 16000 ∧
    off 16001 < -16000 ∧ (∀ l, l < 96 → ((f {}).flink l).st ≠ 3) ∧ (0x8000000000000000 : Word).getLsbD 63 = true ∧
    bits (0x8000000000000000 : Word).toNat 34 32 = 0 ∧ ¬ 4 < bits (0x8000000403020100 : Word).toNat 34 32 ∧
    (∀ l ∈ routeAlts (0x8000000403020100 : Word).toNat, ¬ 95 < l) ∧ (∃ l ∈ routeAlts (0x8000000100000060 : Word).toNat, 95 < l) ∧
    (up.group 3).state = 0 ∧ ((milled red [] {}).group 3).state ≠ 0 := by decide +kernel
/-! ### Worked examples of the spec -/

/-- FP32 0x3FA6_6666 to E4M3 and 500.0 to FP8 (chapter 02, worked conversions). -/
theorem test_example_fp8 :
    encode 0x04 0 false 0 0 (dec32 0x3FA66666) = (0x3A, fNX) ∧
    encode 0x04 0 true 0 0 (dec32 0x43FA0000) = (0x7E, fOF ||| fNX) ∧
    encode 0x04 0 false 0 0 (dec32 0x43FA0000) = (0x7F, fOF ||| fNX) ∧
    encode 0x05 0 false 0 0 (dec32 0x43FA0000) = (0x60, fNX) := by decide +kernel

/-- The same value under SR: up exactly where sr_bits lies below 0x6666_6000 (R50). -/
theorem test_example_sr :
    (encFp ((ffmt 0x04).getD fp32) 4 false 0x66665FFF (dec32 0x3FA66666)).1 = 0x3B ∧
    (encFp ((ffmt 0x04).getD fp32) 4 false 0x66666000 (dec32 0x3FA66666)).1 = 0x3A := by decide +kernel

/-- Four E2M3 elements in three bytes (R40). -/
theorem test_example_pack : packBits 6 [0x01, 0x02, 0x03, 0x3F] = 0xFC3081 := by decide +kernel

/-- The QBF4 block of 24.0, 0.7 and 0.1: its scale, sub-scales, elements and bytes (R43, R44, R52). -/
theorem test_example_qbf4 :
    let vs := (List.range 256).map fun i =>
      if i = 0 then dec32 0x41C00000 else if i = 48 then dec32 0x3F333333 else if i = 49 then dec32 0x3DCCCCCD else dec32 0
    let r := quantQ 0 0 0 vs
    let b := packQ r.1 r.2.1 r.2.2.1
    (r.1, r.2.1.getD 0 9, r.2.1.getD 3 9, r.2.2.1.getD 0 0, r.2.2.1.getD 48 0, r.2.2.1.getD 49 0) = (0x81, 0, 5, 7, 7, 2) ∧
    b / 256 ^ 24 % 256 = 0x27 ∧ b / 256 ^ 129 % 256 / 16 = 5 ∧ b / 256 ^ 136 = 0x81 := by decide +kernel

/-- One sum in FP32 mode, and in EXACT mode with anchors 0 and 88 (chapter 03, worked example). -/
theorem test_example_sum :
    let a (x y : Nat) : Val := mulVal (decElem 0x04 x) (decElem 0x04 y)
    let s1 := [a 0x7E 0x7E, a 0x01 0x38]
    let s2 := [a 0xFE 0x7E]
    let f : Tile := {}
    let e (n : Int) : Tile := { exact_ := true, anchor := n }
    let f1 := stepElem f {} s1
    let e1 := stepElem (e 0) {} s1
    let e2 := stepElem (e 0) e1.1 s2
    let g1 := stepElem (e 88) {} s1
    let g2 := stepElem (e 88) g1.1 s2
    f1.1.g = 0x48440000 ∧ f1.2 = fNX ∧ stepElem f f1.1 s2 = ({}, 0) ∧
    e1.1.g = 0x0003_1000_0080_0000_0000_0000_0000_0000 ∧ e1.2 = 0 ∧ e2.1.g = 0x0080_0000_0000_0000_0000_0000 ∧
    encode 0x03 0 false 0 0 (elemVal (e 0) e2.1).1 = (0x3B00, 0) ∧ g1.2 = fTR ∧ g2.1.g = 0 ∧
    encode 0x03 0 false 0 0 (elemVal (e 88) g2.1).1 = (0, 0) := by decide +kernel

/-- Homes of DPA 0x12_3476_7890 (R115, R135 to R137) and of scratch DPA 0xF0_2345_6780 (R118). -/
theorem test_example_homes :
    (homeQ 0x1234767890, quadOff 0x1234767890, chanOf 0x1234767890, chanOff 0x1234767890) = (2, 0x48D167890, 34, 0x12345890) ∧
    (devBank 0x1234767890, devSet 0x1234767890) = (33, 1113) ∧
    (scrQ 0xF023456780, scrBank 0xF023456780, scrWay 0xF023456780, scrSet 0xF023456780) = (1, 39, 1, 1301) ∧
    homeQ 0x1234567890 = 0 := by decide +kernel

/-- A translation: DVA 0x10_0002_3456_7890 by slot 3 of context 5 (R205 to R210). -/
theorem test_example_translation :
    let d : SegDesc := ⟨0, 0, true, true, false, 0, 0x10_0000_0000_0000, 512, 0x40000000, 0xFFF0_7F20_0000_0000⟩
    let s : State := { State.reset with xlt := { State.reset.xlt with
      ctxs := [(5, { state := 1 })], segs := [(16 * 5 + 3, some d)], l1 := [(0, [⟨⟨5, 3, 141⟩, 0x1234000001⟩])] } }
    findSeg s 5 0x10_0002_3456_7890 = some (3, d) ∧ (0x10_0002_3456_7890 - d.base) / pageSize d = 141 ∧
    d.array + 8 * 141 = 0x40000468 ∧ pteOk d 0x1234000001 = true ∧
    isOk (xlate s ⟨0, 0, 5, .thread 0 1⟩ 0 0x10_0002_3456_7890 8) (.dev 0x1234567890) = true := by decide +kernel

/-- A guarantee on MS4 that is admitted, one more that is refused, and its factor when the stack's refresh doubles
(R176 to R179). -/
theorem test_example_regulation :
    let s (t : Bool) : State := { State.reset with
      dram := { State.reset.dram with hbmStacks := [(4, { state := 2, refresh2x := t })] } }
    let cs : Tbl (List (Nat × Nat)) := [(1, [(4, 17000)]), (2, [(4, 1920)])]
    deliverable (s false) 4 = 23040 ∧ deliverable (s true) 4 = 22208 ∧ rglAdmits (s false) cs = true ∧
    rglAdmits (s false) ((3, [(4, 1000)]) :: cs) = false ∧
    factorOf { (State.reset.rgl) with charges := cs, base := [(4, 23040)] } 4 22208 = 987 := by decide +kernel

/-- A REDUCE group of cores 0, 5, 300 and 1,100 with root 20: leaves, combining routers, orders and staging (R185 to
R187). -/
theorem test_example_tree :
    let d : GroupDesc := { red with root := 20, depth := 2, members := [0, 5, 300, 1100] }
    [0, 5, 300, 1100].map leafOf = [0, 0, 6, 24] ∧ [0, 5, 300, 1100].map slotOf = [0, 5, 12, 12] ∧
    (∀ r, r < 256 → (r ∈ combining d ↔ r ∈ [0, 4, 6, 20, 24])) ∧ inputsOf d 4 = [17, 19] ∧ inputsOf d 20 = [16, 17] ∧
    [0, 4, 20, 6, 24].map (reserved { desc := some d } d) = [1536, 1536, 1536, 1024, 1024] := by decide +kernel

/-- Element 0 of that group's sums, ORDERED (R191). -/
theorem test_example_ordered :
    redOp 0x01 0 0x3F800000 0x33800000 = (0x3F800000, fNX) ∧ redOp 0x01 0 0x33800000 0x3F800000 = (0x3F800000, fNX) ∧
    redOp 0x01 0 0x3F800000 0xBF800000 = (0, 0) := by decide +kernel

/-- A follower 6.25 ns ahead (R318), a crystal 1.5 ppm fast (R400), a bundle with lanes 5 and 15 bad (R335), and source
numbers (R410). -/
theorem test_example_rest :
    let f : State := { up with fab := { up.fab with role := 2, exchange := true } }
    let m : State := { up with mer := { up.mer with tempPpb := -1500 } }
    (match exec (.meridianExchangeReceive 0 740 0 540) f with
      | .next t => (t.fab.offset, t.mer.slew)
      | _ => (0, 0)) = (100, -26843545600) ∧
    (match exec .meridianEdge m with
      | .next t => tget (0 : BitVec 96) t.mer.acc 0
      | _ => 0) = 171798434142 ∧
    (0x3FFDF : BitVec 18) &&& 0x37FFF = 0x37FDF ∧ popcount18 0x37FDF = 16 ∧
    srcNo 2 0x07 0x21 = 0x8721 ∧ srcNo (coreFb 2316) (coreBlock 2316) (2316 % 256) = 0xA10C := by decide +kernel

/-- With FB1 isolated a packet from router 50 to router 172 goes south first, and then east (R342). -/
theorem test_example_y_first :
    let s : State := { up with die := { up.die with fbIso := 2 } }
    let f : Flit := { flit with srcRouter := 50, dstRouter := 172, dstPort := 4 }
    routeFlit s 0 26 9 f = (2, false) ∧ routeFlit s 2 18 0 f = (1, false) ∧ routeFlit up 0 26 9 f = (1, false) := by
  decide +kernel

/-- Physical cores 7, 40 and 131 of SC5 are bad: exposed core 129 is served by core 132 (R358). -/
theorem test_example_map :
    let u (k : Nat) : TitheUnit := ⟨1, 5, k⟩
    let s (l : List Nat) : State := { up with boot := { up.boot with disabled := l.map u } }
    (goodCores (s [7, 40]) 5)[129]? = some 131 ∧ (goodCores (s [7, 40, 131]) 5)[129]? = some 132 ∧
    (goodCores (s [7, 40]) 5).length = 256 + 14 := by decide +kernel

end Sys2Proof.Tests
end

section
/-! Issue of asynchronous operations (O14): an instruction whose checks are clear and whose effect is `startOp` issues its
operation at once, whatever its group. -/

namespace Sys2Proof.Machine

variable {s : State} {n t pr k : Nat} {kind : AKind}

/-! ### Checks that are clear -/

@[simp] theorem clear_nil : Clear [] := by simp [Clear]

@[simp] theorem clear_cons {c : Check} {cs : List Check} : Clear (c :: cs) ↔ c.1 = false ∧ Clear cs := List.forall_mem_cons

theorem clear_append {cs ds : List Check} : Clear (cs ++ ds) ↔ Clear cs ∧ Clear ds := List.forall_mem_append

theorem firstCheck_clear {cs : List Check} (h : Clear cs) : firstCheck cs = none := by
  have hf : cs.filter (·.1) = [] := List.filter_eq_nil_iff.mpr fun c hc => by simp [h c hc]
  simp only [firstCheck, hf, List.foldl_nil]

/-- The monitor region is of no concern to a range that ends below the top of what its thread may use (R83). -/
theorem inMon_of_le_top {a len : Nat} (h : a + len ≤ if t = 0 then lsTop else monLs) : inMon t a len = false := by
  by_cases ht : t = 0
  · simp [inMon, ht]
  · rw [if_neg ht] at h
    have : ¬ monLs < a + len := Nat.not_lt.mpr h
    simp [inMon, this]

/-! ### The issue -/

/-- An instruction that only starts an operation, its checks clear and a slot free, issues it (R83, R89, R91). -/
theorem issues_of_clear {i : Instr} {checks : State → List Check} {eff : State → Res} (hi : MayIssue s n t pr)
    (hs : SlotFree s n t) (hx : exec i s = coreStep n t pr false checks eff s)
    (he : eff s = startOp n t k kind s) (hc : Clear (checks s)) : Issues s n t i k kind :=
  ⟨_, hx.trans (coreStep_done hi.runs hi.next (firstCheck_clear hc) (he.trans (startOp_free hs))), issued_of rfl⟩

/-- Settles O14: each form is `issues_of_clear`; where the checks are not a hypothesis, the bounds and alignments of the
form clear them one by one. -/
theorem asyncIssue : Obligations.AsyncIssue := by
  intro n t pr d a b c k op vis s hi hs
  refine ⟨issues_of_clear hi hs (exec_cpin ..) rfl, issues_of_clear hi hs (exec_cpout ..) rfl,
    issues_of_clear hi hs (exec_cpin2 ..) rfl, issues_of_clear hi hs (exec_cpout2 ..) rfl, ?ldqb,
    fun hc => ⟨issues_of_clear hi hs (exec_rput ..) rfl hc, issues_of_clear hi hs (exec_rget ..) rfl hc⟩,
    ?ratom, ?xsend, ?ifetch⟩
  case ldqb =>
    intro ha hatop hd hdtop hb hstride hfirst hlow hhigh
    refine issues_of_clear hi hs (exec_ldqb ..) rfl ?_
    simp only [clear_cons, clear_nil, inMon_of_le_top hatop, inMon_of_le_top hdtop, ha, hd, hb, hstride,
      Nat.not_lt.mpr hatop, Nat.not_lt.mpr hdtop, Nat.not_lt.mpr hfirst, Int.not_lt.mpr hlow, Int.not_lt.mpr hhigh,
      decide_false, Bool.or_false, bne_self_eq_false, and_self]
  case ratom =>
    intro hop hvis ha hatop hmon hb hga
    refine issues_of_clear hi hs (exec_ratom ..) rfl (clear_append.mpr ⟨?_, hga⟩)
    simp only [clear_cons, clear_nil, hmon, ha, hb, Nat.not_lt.mpr hop, Nat.not_lt.mpr hvis, Nat.not_lt.mpr hatop,
      decide_false, Bool.or_false, bne_self_eq_false, and_self]
  case xsend =>
    intro hraw ha hlen hlow hhigh htop hmon hreach
    -- no link is raw for the monitor, whose context is 0
    have ht : t ≠ 0 := fun e => by simp [rawOk, e] at hraw
    rw [if_neg ht] at htop
    refine issues_of_clear hi hs (exec_xsend ..) rfl ?_
    simp only [clear_cons, clear_nil, hraw, hmon, ha, hlen, if_neg ht, hreach, Nat.not_lt.mpr hlow, Nat.not_lt.mpr hhigh,
      Nat.not_lt.mpr htop, decide_false, Bool.or_false, bne_self_eq_false, Bool.not_true, and_self]
  case ifetch =>
    rintro rfl hlive ha hlen hpos htop hdva
    have hkernel : (decide (0x4000 < ((s.thr n 0).rs a).toNat + ((s.thr n 0).rs c).toNat) && kernelsLive s n) = false := by
      rcases hlive with h | h
      · simp only [Nat.not_lt.mpr h, decide_false, Bool.false_and]
      · rw [h, Bool.and_false]
    have hne : (((s.thr n 0).rs c).toNat == 0) = false := beq_false_of_ne (Nat.ne_of_gt hpos)
    refine issues_of_clear hi hs (exec_ifetch ..) rfl ?_
    simp only [clear_cons, clear_nil, monOnly, hkernel, ha, hlen, hne, Nat.not_lt.mpr htop, Nat.not_lt.mpr hdva,
      decide_false, Bool.or_false, bne_self_eq_false, and_self]

end Sys2Proof.Machine
end

section
/-! The Meridian at an edge and at a check of its copies (R400, R401), for O52. -/

namespace Sys2Proof.Machine

variable {s t : State} {j k : Nat}

/-- FB `j`'s copy of the Meridian, in 2^-32 ns. -/
def merCopy (s : State) (j : Nat) : BitVec 96 := tget 0 s.mer.acc j

/-! ### An edge -/

/-- What an edge adds to a copy that runs, in 2^-32 ns: 40 ns, their correction and a step that is due (R318, R400). -/
def edgeAdd (s : State) : Nat := (40 * 2 ^ 32 + edgeCorr (s.mer.tempPpb + slewPpb s)).toNat + s.mer.stepNs * 2 ^ 32

/-- A copy after an edge that adds to it. -/
def edgeNext (s : State) (j : Nat) : Nat := ((merCopy s j).toNat + edgeAdd s) % 2 ^ 96

/-- Copy `j` after an edge: an isolated one stands still, and one that is ahead waits for FB0's (R401). -/
def edgeValue (s : State) (j : Nat) : Nat :=
  if s.iso j then (merCopy s j).toNat
  else if j ≠ 0 ∧ tget false s.mer.hold j = true then
    (if (merCopy s j).toNat ≤ edgeNext s 0 then edgeNext s 0 else (merCopy s j).toNat)
  else edgeNext s j

/-- The rounding of a correction, written out. -/
theorem edgeAdd_eq (s : State) : edgeAdd s =
    (40 * 2 ^ 32 + (2 * (40 * 2 ^ 32 * (s.mer.tempPpb + slewPpb s)) + 10 ^ 9) / (2 * 10 ^ 9)).toNat +
      s.mer.stepNs * 2 ^ 32 := by
  have hb : ((10 ^ 9 : Nat) : Int) = 10 ^ 9 := rfl
  simp only [edgeAdd, edgeCorr, roundDiv, hb]

/-- Without a correction and a step an edge adds 40 ns. -/
theorem edgeAdd_plain (hr : s.fab.role ≠ 2) (ht : s.mer.tempPpb = 0) (hs : s.mer.stepNs = 0) : edgeAdd s = 40 * 2 ^ 32 := by
  simp [edgeAdd, slewPpb, hr, ht, hs, edgeCorr, roundDiv]

/-- Value and hold that an edge begun in `s` gives copy `k`, whose hold is `held`. -/
def edgeStep (s : State) (k : Nat) (held : Bool) : Nat × Bool :=
  if k = 0 then (edgeNext s 0, false) else copyEdge held (merCopy s k).toNat (edgeNext s 0) (edgeAdd s)

theorem edgeStep_value (hi : s.iso k = false) : (edgeStep s k (tget false s.mer.hold k)).1 = edgeValue s k := by
  by_cases hk : k = 0
  · simp [edgeStep, edgeValue, hk, hk ▸ hi]
  · cases hh : tget false s.mer.hold k with
    | false => simp [edgeStep, edgeValue, copyEdge, hi, hk, hh, edgeNext]
    | true =>
      simp only [edgeStep, edgeValue, copyEdge, hi, hk, hh, ↓reduceIte, Bool.false_eq_true, ne_eq, not_false_eq_true,
        and_self]
      split <;> rfl

/-- What an edge begun in `s` does to copy `k`, the copies before it having had theirs in `t`. -/
def edgeCopy (s t : State) (k : Nat) : State :=
  if t.iso k then t
  else { t with mer := { t.mer with
    acc := tset 0 t.mer.acc k (BitVec.ofNat 96 (edgeStep s k (tget false t.mer.hold k)).1)
    hold := tset false t.mer.hold k (edgeStep s k (tget false t.mer.hold k)).2 } }

/-- An edge: every copy in turn, what is left of the slew and the step, and the error windows (R126). -/
theorem execMeridianEdge_running (h : s.pwr.input = true) :
    execMeridianEdge s = .next (rollWindow
      (let t := [0, 1, 2, 3].foldl (edgeCopy s) s
       { t with mer := { t.mer with
          slew := t.mer.slew - edgeCorr (slewPpb s)
          steps := if 0 < t.mer.stepNs then satInc 65535 t.mer.steps else t.mer.steps
          stepNs := 0 } }) 0) := by
  unfold execMeridianEdge
  rw [h]
  rfl

/-- Copies `ks` have had the edge that began in `s`, and nothing else is touched. -/
structure Edged (s t : State) (ks : List Nat) : Prop where
  frame : { t with mer := s.mer } = s
  copies : ∀ j, merCopy t j = if j ∈ ks then BitVec.ofNat 96 (edgeValue s j) else merCopy s j
  hold : ∀ j, j ∉ ks → tget false t.mer.hold j = tget false s.mer.hold j

theorem Edged.none (s : State) : Edged s s [] := ⟨rfl, fun _ => rfl, fun _ _ => rfl⟩

theorem Edged.iso {ks : List Nat} (h : Edged s t ks) (j : Nat) : t.iso j = s.iso j := by
  change ({ t with mer := s.mer } : State).iso j = s.iso j
  rw [h.frame]

/-- One more copy has its edge. -/
theorem Edged.cons {ks : List Nat} (h : Edged s t ks) (hk : k ∉ ks) : Edged s (edgeCopy s t k) (k :: ks) := by
  cases hi : s.iso k with
  | true =>
    rw [edgeCopy, if_pos (by rw [h.iso, hi])]
    refine ⟨h.frame, fun j => ?_, fun j hj => h.hold j fun hm => hj (List.mem_cons_of_mem _ hm)⟩
    by_cases hj : j = k
    · simp [h.copies, hj, hk, edgeValue, hi]
    · simp [h.copies, hj]
  | false =>
    rw [edgeCopy, if_neg (by rw [h.iso, hi]; exact Bool.false_ne_true), h.hold k hk, edgeStep_value hi]
    refine ⟨h.frame, fun j => (tget_tset ..).trans ?_, fun j hj => ?_⟩
    · by_cases hj : j = k
      · simp [hj]
      · rw [if_neg hj]
        exact (h.copies j).trans (by simp [hj])
    · obtain ⟨hjk, hjs⟩ := List.ne_and_not_mem_of_not_mem_cons hj
      exact (tget_tset_ne _ _ _ hjk).trans (h.hold j hjs)

/-- An edge comes to all four copies. -/
theorem edged_all (s : State) : Edged s ([0, 1, 2, 3].foldl (edgeCopy s) s) [3, 2, 1, 0] :=
  (((((Edged.none s).cons (k := 0) (by decide)).cons (k := 1) (by decide)).cons (k := 2) (by decide)).cons (k := 3)
    (by decide))

theorem rollWindow_frame (s : State) (fb : Nat) : { rollWindow s fb with dram := s.dram } = s := by
  unfold rollWindow
  dsimp only
  split <;> rfl

theorem rollWindow_mer (s : State) (fb : Nat) : (rollWindow s fb).mer = s.mer := by
  change ({ rollWindow s fb with dram := s.dram } : State).mer = s.mer
  rw [rollWindow_frame]

/-- An edge changes the copies, the corrections and the error windows, and every copy to its `edgeValue` (R400, R401). -/
theorem meridianEdge_gives (h : s.pwr.input = true) :
    Gives .meridianEdge s fun t => { t with mer := s.mer, dram := s.dram } = s ∧ t.mer.stepNs = 0 ∧
      ∀ j, j < 4 → merCopy t j = BitVec.ofNat 96 (edgeValue s j) := by
  have he := edged_all s
  generalize hT : [0, 1, 2, 3].foldl (edgeCopy s) s = T at he
  refine ⟨_, (exec_meridianEdge s).trans (execMeridianEdge_running h), ?_, ?_, fun j hj => ?_⟩
  · rw [hT]
    generalize hu : ({ T with mer := _ } : State) = u
    have hs : { u with mer := s.mer } = s := by rw [← hu]; exact he.frame
    calc { rollWindow u 0 with mer := s.mer, dram := s.dram }
        = { ({ rollWindow u 0 with dram := u.dram } : State) with mer := s.mer, dram := s.dram } := rfl
      _ = { ({ u with mer := s.mer } : State) with dram := s.dram } := by rw [rollWindow_frame]
      _ = s := by rw [hs]
  · rw [rollWindow_mer]
  · rw [merCopy, rollWindow_mer, hT]
    refine (he.copies j).trans (if_pos ?_)
    simp only [List.mem_cons, List.not_mem_nil, or_false]
    omega

/-! ### The part's own correction -/

/-- A signed reading of `w` bits lies in their range. -/
theorem sext_bounds {w : Nat} (hw : 0 < w) (v : Nat) :
    -((2 ^ (w - 1) : Nat) : Int) ≤ sext w v ∧ sext w v < (2 ^ (w - 1) : Nat) := by
  have hlt := Nat.mod_lt v (Nat.two_pow_pos w)
  have hpow : 2 ^ w = 2 * 2 ^ (w - 1) := by rw [← Nat.pow_succ', Nat.succ_eq_add_one, Nat.sub_add_cancel hw]
  simp only [sext]
  generalize 2 ^ (w - 1) = p at *
  split <;> omega

theorem tempPpbUpdate_gives (reading : Int) (h : s.pwr.input = true) :
    Gives (.tempPpbUpdate reading) s fun t => { t with mer := { t.mer with tempPpb := s.mer.tempPpb } } = s ∧
      -(2 ^ 31 : Int) ≤ t.mer.tempPpb ∧ t.mer.tempPpb < 2 ^ 31 := by
  refine ⟨_, (exec_tempPpbUpdate reading s).trans (if_neg (by simp [h])), rfl, ?_⟩
  exact_mod_cast sext_bounds (w := 32) (by decide) _

/-! ### The check of the copies -/

/-- Logging reads the Meridian, which keeps its copies, holds and counts. -/
theorem logEvent_mer (s : State) (code fb block inst ctx : Nat) (d0 d1 : Word) :
    ∃ l, (logEvent s code fb block inst ctx d0 d1).mer = { s.mer with last := l } := by
  unfold logEvent
  split
  · exact ⟨s.mer.last, rfl⟩
  · exact ⟨_, rfl⟩

/-- The check passes over a copy that is isolated, level or held. -/
theorem levelCopy_skip (h : s.iso k = true ∨ merCopy s 0 = merCopy s k ∨ tget false s.mer.hold k = true) :
    levelCopy s k = s := by
  refine if_pos (?_ : (s.iso k || decide (merCopy s 0 = merCopy s k) || tget false s.mer.hold k) = true)
  simpa [or_assoc] using h

/-- What the check writes of a copy that differs (R401). -/
theorem levelCopy_mer (hi : s.iso k = false) (hh : tget false s.mer.hold k = false) (h : merCopy s 0 ≠ merCopy s k) :
    ∃ l, (levelCopy s k).mer = { s.mer with
      acc := if merCopy s k < merCopy s 0 then tset 0 s.mer.acc k (merCopy s 0) else s.mer.acc
      hold := if merCopy s k < merCopy s 0 then s.mer.hold else tset false s.mer.hold k true
      resyncs := tset 0 s.mer.resyncs k (satInc 65535 (tget 0 s.mer.resyncs k))
      last := l } := by
  have hc : ¬ (s.iso k || decide (merCopy s 0 = merCopy s k) || tget false s.mer.hold k) = true := by simp [hi, hh, h]
  have he : levelCopy s k = ev _ _ _ _ _ _ _ := if_neg hc
  rw [he]
  exact logEvent_mer ..

theorem merCopy_levelCopy_ne (hj : j ≠ k) : merCopy (levelCopy s k) j = merCopy s j := by
  by_cases hs : s.iso k = true ∨ merCopy s 0 = merCopy s k ∨ tget false s.mer.hold k = true
  · rw [levelCopy_skip hs]
  · simp only [not_or, Bool.not_eq_true] at hs
    obtain ⟨hi, h, hh⟩ := hs
    obtain ⟨l, hm⟩ := levelCopy_mer hi hh h
    rw [merCopy, hm]
    dsimp only
    split
    · exact tget_tset_ne _ _ _ hj
    · rfl

/-- Copies that are level stay, whatever the check. -/
theorem meridianCopyCheck_level (hp : s.pwr.input = true) (h : ∀ j, j ∈ [1, 2, 3] → merCopy s j = merCopy s 0) :
    exec .meridianCopyCheck s = .next s := by
  have hl : ∀ j, j ∈ [1, 2, 3] → levelCopy s j = s := fun j hj => levelCopy_skip (.inr (.inl (h j hj).symm))
  rw [exec_meridianCopyCheck, execMeridianCopyCheck, if_neg (by simp [hp])]
  simp only [List.foldl_cons, List.foldl_nil, hl 1 (by decide), hl 2 (by decide), hl 3 (by decide)]

/-- Where one copy alone differs the check is that copy's. -/
theorem meridianCopyCheck_one (hp : s.pwr.input = true) (hk : k ∈ [1, 2, 3])
    (h : ∀ j, j ∈ [1, 2, 3] → j ≠ k → merCopy s j = merCopy s 0) :
    exec .meridianCopyCheck s = .next (levelCopy s k) := by
  have hk0 : k ≠ 0 := fun e => by simp [e] at hk
  have before : ∀ j, j ∈ [1, 2, 3] → j ≠ k → levelCopy s j = s := fun j hj hjk =>
    levelCopy_skip (.inr (.inl (h j hj hjk).symm))
  have after : ∀ j, j ∈ [1, 2, 3] → j ≠ k → levelCopy (levelCopy s k) j = levelCopy s k := fun j hj hjk =>
    levelCopy_skip (.inr (.inl (by rw [merCopy_levelCopy_ne hk0.symm, merCopy_levelCopy_ne hjk, h j hj hjk])))
  rw [exec_meridianCopyCheck, execMeridianCopyCheck, if_neg (by simp [hp])]
  simp only [List.mem_cons, List.not_mem_nil, or_false] at hk
  rcases hk with rfl | rfl | rfl <;> simp [before, after]

/-- A copy that is behind is brought level and counted (R401). -/
theorem meridianCopyCheck_behind (hp : s.pwr.input = true) (hk : k ∈ [1, 2, 3])
    (h : ∀ j, j ∈ [1, 2, 3] → j ≠ k → merCopy s j = merCopy s 0) (hi : s.iso k = false)
    (hh : tget false s.mer.hold k = false) (hlt : merCopy s k < merCopy s 0) :
    Gives .meridianCopyCheck s fun t => merCopy t k = merCopy s 0 ∧ tget false t.mer.hold k = false ∧
      tget 0 t.mer.resyncs k = satInc 65535 (tget 0 s.mer.resyncs k) ∧ ∀ j, j ≠ k → merCopy t j = merCopy s j := by
  obtain ⟨l, hm⟩ := levelCopy_mer hi hh (BitVec.ne_of_lt hlt).symm
  simp only [if_pos hlt] at hm
  refine ⟨_, meridianCopyCheck_one hp hk h, ?_, ?_, ?_, fun j hj => merCopy_levelCopy_ne hj⟩
  · rw [merCopy, hm]; exact tget_tset_same ..
  · rw [hm]; exact hh
  · rw [hm]; exact tget_tset_same 0 _ _ _

/-- A copy that is ahead keeps its value and is held (R401). -/
theorem meridianCopyCheck_ahead (hp : s.pwr.input = true) (hk : k ∈ [1, 2, 3])
    (h : ∀ j, j ∈ [1, 2, 3] → j ≠ k → merCopy s j = merCopy s 0) (hi : s.iso k = false)
    (hh : tget false s.mer.hold k = false) (hlt : merCopy s 0 < merCopy s k) :
    Gives .meridianCopyCheck s fun t => merCopy t k = merCopy s k ∧ tget false t.mer.hold k = true ∧
      ∀ j, j ≠ k → merCopy t j = merCopy s j := by
  obtain ⟨l, hm⟩ := levelCopy_mer hi hh (BitVec.ne_of_lt hlt)
  simp only [if_neg (BitVec.not_lt.mpr (BitVec.le_of_lt hlt))] at hm
  refine ⟨_, meridianCopyCheck_one hp hk h, ?_, ?_, fun j hj => merCopy_levelCopy_ne hj⟩
  · rw [merCopy, hm]; rfl
  · rw [hm]; exact tget_tset_same false s.mer.hold k true

end Sys2Proof.Machine
end

section
/-! Clocks that are lowered, that stop and that wake (R395, R398, R399), for O52. -/

namespace Sys2Proof.Machine

variable {s : State} {fb u sc k : Nat}

/-! ### Lowering -/

/-- The clocks of all units are `tb`. -/
def withFreq (s : State) (tb : Tbl Nat) : State := { s with clk := { s.clk with freq := tb } }

/-- What `lowerClocks` does to one unit, numbered 5 to an FB. -/
def lowerUnit (s : State) (i : Nat) : State :=
  if targetFreq s (i / 5) (i % 5) < freqOf s (i / 5) (i % 5) then setFreq s (i / 5) (i % 5) (targetFreq s (i / 5) (i % 5))
  else s

theorem lowerClocks_eq (s : State) : lowerClocks s = (List.range 20).foldl lowerUnit s := rfl

/-- What bounds a clock does not depend on clocks. -/
theorem targetFreq_withFreq (s : State) (tb : Tbl Nat) (fb u : Nat) :
    targetFreq (withFreq s tb) fb u = targetFreq s fb u := rfl

theorem freqOf_withFreq (s : State) (tb : Tbl Nat) (fb u : Nat) : freqOf (withFreq s tb) fb u = tget 0 tb (8 * fb + u) := rfl

/-- One unit is at most at its target, and the others as before. -/
theorem lowerUnit_withFreq (s : State) (tb : Tbl Nat) (i : Nat) : ∃ tb', lowerUnit (withFreq s tb) i = withFreq s tb' ∧
    ∀ g w, w < 5 → tget 0 tb' (8 * g + w) =
      if 5 * g + w = i then min (tget 0 tb (8 * g + w)) (targetFreq s g w) else tget 0 tb (8 * g + w) := by
  unfold lowerUnit
  rw [targetFreq_withFreq, freqOf_withFreq]
  split
  · next hlt =>
    refine ⟨tset 0 tb (8 * (i / 5) + i % 5) (targetFreq s (i / 5) (i % 5)), rfl, fun g w hw => ?_⟩
    rw [tget_tset]
    by_cases hi : 5 * g + w = i
    · obtain ⟨rfl, rfl⟩ : i / 5 = g ∧ i % 5 = w := by omega
      rw [if_pos rfl, if_pos hi, Nat.min_eq_right (Nat.le_of_lt hlt)]
    · rw [if_neg (by omega), if_neg hi]
  · next hge =>
    refine ⟨tb, rfl, fun g w hw => ?_⟩
    by_cases hi : 5 * g + w = i
    · obtain ⟨rfl, rfl⟩ : i / 5 = g ∧ i % 5 = w := by omega
      rw [if_pos hi, Nat.min_eq_left (Nat.not_lt.mp hge)]
    · rw [if_neg hi]

/-- The first `n` units are lowered. -/
theorem foldl_lowerUnit (s : State) (n : Nat) : ∃ tb, (List.range n).foldl lowerUnit s = withFreq s tb ∧
    ∀ g w, w < 5 → tget 0 tb (8 * g + w) =
      if 5 * g + w < n then min (freqOf s g w) (targetFreq s g w) else freqOf s g w := by
  induction n with
  | zero => exact ⟨s.clk.freq, rfl, fun _ _ _ => rfl⟩
  | succ n ih =>
    obtain ⟨tb, hf, hv⟩ := ih
    obtain ⟨tb', hf', hv'⟩ := lowerUnit_withFreq s tb n
    refine ⟨tb', ?_, fun g w hw => ?_⟩
    · rw [List.range_succ, List.foldl_append, hf, List.foldl_cons, List.foldl_nil, hf']
    · rw [hv' g w hw, hv g w hw]
      rcases Nat.lt_trichotomy (5 * g + w) n with h | h | h
      · rw [if_neg (by omega), if_pos h, if_pos (by omega)]
      · rw [if_pos h, if_neg (by omega), if_pos (by omega)]
      · rw [if_neg (by omega), if_neg (by omega), if_neg (by omega)]

/-- Every clock is at most its target, and nothing else changes (R394, R398). -/
theorem lowerClocks_spec (s : State) : ∃ tb, lowerClocks s = withFreq s tb ∧
    ∀ g w, g < 4 → w < 5 → tget 0 tb (8 * g + w) = min (freqOf s g w) (targetFreq s g w) := by
  obtain ⟨tb, hf, hv⟩ := foldl_lowerUnit s 20
  exact ⟨tb, (lowerClocks_eq s).trans hf, fun g w hg hw => (hv g w hw).trans (if_pos (by omega))⟩

/-- FMAX of an FB's SC clusters is `f`. -/
def withFmax (s : State) (fb f : Nat) : State := { s with clk := { s.clk with fmax := tset 48 s.clk.fmax fb f } }

/-- A new FMAX lowers at once what runs above it (R395). -/
theorem fmaxWrite_gives {v : Word} (hi : s.iso fb = false) (hlo : 24 ≤ bits v.toNat 5 0) (hhi : bits v.toNat 5 0 ≤ 48) :
    Gives (.fmaxWrite fb v) s fun t => fmaxOf t fb = bits v.toNat 5 0 ∧ { t with clk := s.clk } = s ∧
      ∀ g w, g < 4 → w < 5 → freqOf t g w = min (freqOf s g w) (targetFreq t g w) := by
  have he : fmaxWrite s fb v = lowerClocks (withFmax s fb (bits v.toNat 5 0)) :=
    (if_neg (by simp [hi])).trans (if_pos ⟨hlo, hhi⟩)
  obtain ⟨tb, hl, hv⟩ := lowerClocks_spec (withFmax s fb (bits v.toNat 5 0))
  exact ⟨_, congrArg Host.Outcome.next (he.trans hl), tget_tset_same 48 s.clk.fmax fb _, rfl, hv⟩

/-- An FMAX outside 0.6 to 1.2 GHz is discarded (R395). -/
theorem fmaxWrite_discards {v : Word} (hi : s.iso fb = false) (hr : bits v.toNat 5 0 < 24 ∨ 48 < bits v.toNat 5 0) :
    exec (.fmaxWrite fb v) s = .next (regDiscard s (regOff fb 0x05 0) 0 v) :=
  congrArg Host.Outcome.next ((if_neg (by simp [hi])).trans (if_neg (by omega)))

/-! ### Raising -/

theorem clockRaiseDone_raises (h0 : 0 < freqOf s fb u) (h : freqOf s fb u < targetFreq s fb u) :
    exec (.clockRaiseDone fb u) s = .next (setFreq s fb u (targetFreq s fb u)) := if_pos ⟨h0, h⟩

/-! ### Clusters and SCs -/

/-- An idle cluster stops, and the last of its SC stops that too (R399). -/
theorem clusterClockStop_idle (hr : clusterRuns s sc k = true) (hi : ∀ n ∈ clusterCores s sc k, coreIdle s n = true) :
    exec (.clusterClockStop sc k) s = .next { s with clk := { s.clk with
      running := tset 0 s.clk.running sc (runningOf s sc - 2 ^ k)
      scState := if runningOf s sc = 2 ^ k then tset 0 s.clk.scState sc 1 else s.clk.scState } } := by
  have hge : 2 ^ k ≤ runningOf s sc := Nat.ge_two_pow_of_testBit hr
  rw [exec_clusterClockStop, execClusterClockStop, if_pos (by rw [hr, Bool.true_and]; exact List.all_eq_true.mpr hi)]
  dsimp only
  by_cases he : runningOf s sc = 2 ^ k
  · rw [if_pos (by omega), if_pos he]; rfl
  · rw [if_neg (by omega), if_neg he]; rfl

/-- A stopped cluster of an SC that does not sleep runs again (R399). -/
theorem clusterWake_wakes (ha : s.scAdmitted.getLsbD sc = true) (hr : clusterRuns s sc k = false) (hk : k < 17)
    (hs : scSleeps s sc = false) : exec (.clusterWake sc k) s =
      .next (setScState (setRunning s sc (runningOf s sc + 2 ^ k)) sc 0) := if_pos (by simp [ha, hr, hk, hs])

/-- An SC whose clusters are stopped sleeps at retention (R399). -/
theorem scSleep_sleeps (ha : s.scAdmitted.getLsbD sc = true) (hr : runningOf s sc = 0) (hs : scSleeps s sc = false) :
    exec (.scSleep sc) s = .next (setFreq (setRail s (sc / 4) (sc % 4 + 1) 2) (sc / 4) (sc % 4 + 1) 0) :=
  if_pos (by simp [ha, hr, hs])

/-- The lowest cluster with work, of clusters 0 to 16. -/
theorem wantedCluster_eq (hw : ¬ ∀ n ∈ clusterCores s sc k, coreIdle s n = true) (hk : k < 17)
    (hl : ∀ j, j < k → ∀ n ∈ clusterCores s sc j, coreIdle s n = true) : wantedCluster s sc = some k := by
  rw [wantedCluster, List.find?_range_eq_some]
  exact ⟨by simpa using hw, List.mem_range.mpr hk, fun j hj => by simpa using hl j hj⟩

/-- A sleeping SC wakes at 0.6 GHz, with the lowest cluster that has work (R399). -/
theorem scWake_wakes (hs : scSleeps s sc = true) (hw : ¬ ∀ n ∈ clusterCores s sc k, coreIdle s n = true) (hk : k < 17)
    (hl : ∀ j, j < k → ∀ n ∈ clusterCores s sc j, coreIdle s n = true) :
    Gives (.scWake sc) s fun t =>
      freqOf t (sc / 4) (sc % 4 + 1) = 24 ∧ railOf t (sc / 4) (sc % 4 + 1) = 1 ∧ runningOf t sc = 2 ^ k ∧
      { t with clk := s.clk, pwr := s.pwr } = s := by
  have hwant : wantedCluster (setFreq (setRail s (sc / 4) (sc % 4 + 1) 1) (sc / 4) (sc % 4 + 1) 24) sc = some k :=
    wantedCluster_eq hw hk hl
  refine ⟨setScState (setRunning (setFreq (setRail s (sc / 4) (sc % 4 + 1) 1) (sc / 4) (sc % 4 + 1) 24) sc (2 ^ k)) sc 0,
    ?_, tget_tset_same 0 s.clk.freq _ 24, tget_tset_same 0 s.pwr.rail _ 1, tget_tset_same 0 s.clk.running sc _, rfl⟩
  rw [exec_scWake, execScWake]
  simp only [scUnit]
  rw [if_pos hs, hwant]

/-! ### Base fabrics and Reeves -/

theorem baseFabricClockStop_idle (hb : tget false s.clk.baseStop fb = false) (hi : s.iso fb = false)
    (hf : fabricIdle s fb = true) : exec (.baseFabricClockStop fb) s = .next (setBaseStop s fb true) :=
  if_pos (by simp [hb, hi, hf])

theorem baseFabricWake_wakes (hb : tget false s.clk.baseStop fb = true) :
    exec (.baseFabricWake fb) s = .next (setBaseStop s fb false) := if_pos hb

/-- A Reeve that runs no start and no firmware command stops (R399). -/
theorem reeveClockStop_idle (hr : tget false s.clk.reeveStop fb = false) (hi : s.iso fb = false)
    (hs : starting s = false) (hf : ∀ x ∈ s.host.inflight, x.ring / 16 = fb → isFw x.op = false) :
    exec (.reeveClockStop fb) s = .next (setReeveStop s fb true) := by
  have hb : reeveBusy s fb = false := by simpa [reeveBusy, hs] using hf
  exact if_pos (by simp [hr, hb, hi])

theorem reeveWake_wakes (hr : tget false s.clk.reeveStop fb = true) :
    exec (.reeveWake fb) s = .next (setReeveStop s fb false) := if_pos hr

/-! ### The statement -/

/-- Settles O52, row by row. -/
theorem clocksAndMeridian : Obligations.ClocksAndMeridian := by
  refine ⟨fun k reading s hp => ?_, fun fb u sc k v s => ?_⟩
  · dsimp only
    rw [← edgeAdd_eq]
    exact ⟨meridianEdge_gives hp, edgeAdd_plain, tempPpbUpdate_gives reading hp, meridianCopyCheck_level hp,
      fun hk h hi hh => ⟨meridianCopyCheck_behind hp hk h hi hh, meridianCopyCheck_ahead hp hk h hi hh⟩⟩
  · exact ⟨clockRaiseDone_raises, clusterClockStop_idle, clusterWake_wakes, scSleep_sleeps, scWake_wakes,
      baseFabricClockStop_idle, baseFabricWake_wakes, reeveClockStop_idle, reeveWake_wakes,
      fun hi _ hlo hhi => fmaxWrite_gives hi hlo hhi, fmaxWrite_discards⟩

end Sys2Proof.Machine
end

section
/-! Vector instructions that write a whole register under their mask: VSUMF and the conversions (R92, R95, R96), for
O11. -/

namespace Sys2Proof.Machine

variable {s : State} {n t pr d k : Nat} {i : Instr} {checks : State → List Check} {f : Thread → Thread}

/-! ### Effects on the issuing thread alone -/

/-- An effect on the issuing thread that leaves its program counter and a hold asked for retires with that effect. -/
theorem threadGives_of_pure {vec : Bool} {p : Thread → Thread → Prop} (hi : Runs s n t pr vec)
    (hn : pcOk t ((s.thr n t).pc.toNat + 8) = true) (hx : exec i s = coreStep n t pr vec checks (pure_ n t f) s)
    (hc : Clear (checks s)) (hpc : (f (s.thr n t)).pc = (s.thr n t).pc)
    (hhold : (f (s.thr n t)).holdReq = (s.thr n t).holdReq) (hp : p (s.thr n t) (retire (f (s.thr n t)))) :
    ThreadGives s n t i p := by
  refine ⟨_, hx.trans (coreStep_done hi hn (firstCheck_clear hc) rfl),
    (onlyThread_modThr ..).trans (onlyThread_modThr ..), ?_, ?_⟩
  · rw [State.modThr_modThr]
    exact ⟨congrArg (· + 8) hpc, by rw [← hhold]; rfl, rfl⟩
  · rwa [State.modThr_modThr]

/-- A vector instruction whose effect is to write a value of its thread into `d` and to raise `g` does so and no more. -/
theorem vectorSet_of_pure {v : Thread → VReg} {g : Flg} (hi : MayIssueV s n t)
    (hx : exec i s = coreStep n t pr true checks (pure_ n t f) s) (hc : Clear (checks s))
    (hf : f (s.thr n t) = ((s.thr n t).wv d (v (s.thr n t))).orFlg g) :
    ThreadGives s n t i fun x x' => VectorSet x x' d (v x) g := by
  refine threadGives_of_pure hi.runs hi.next hx hc (by rw [hf]; rfl) (by rw [hf]; rfl) ?_
  rw [hf]
  exact ⟨Thread.rv_wv_same .., fun j hj => (Thread.rv_wv ..).trans (if_neg hj), fun _ => rfl, fun _ => rfl, fun _ => rfl,
    rfl⟩

/-- `v` over the lanes of `d` that `m` enables (R92). -/
theorem maskedSet_of_pure {m : Word} {v : VReg} {g : Flg} (hi : MayIssueV s n t)
    (hx : exec i s = coreStep n t pr true checks (pure_ n t f) s) (hc : Clear (checks s))
    (hf : f (s.thr n t) = ((s.thr n t).wv d (maskLanes m ((s.thr n t).rv d) v)).orFlg g) :
    ThreadGives s n t i fun x x' => VectorSet x x' d (maskLanes m (x.rv d) v) g :=
  vectorSet_of_pure (v := fun x => maskLanes m (x.rv d) v) hi hx hc hf

/-! ### The lane sum (R95) -/

theorem packBits_replicate_zero (w k : Nat) : packBits w (List.replicate k 0) = 0 := by
  induction k with
  | zero => rfl
  | succ k ih => simp [List.replicate_succ, packBits, ih]

/-- A register whose lanes after the first are 0. -/
theorem ofLanes_cons_zeros (x k : Nat) : ofLanes (x :: List.replicate k 0) = BitVec.ofNat 2048 (x % 2 ^ 32) := by
  rw [ofLanes, packBits, packBits_replicate_zero, Nat.mul_zero, Nat.add_zero]

/-! ### Conversions (R96) -/

theorem clear_cvtChecks {o : CvtOpt} (hk : o.k ≤ 62) (hrm : o.rm ≤ 4) : Clear (cvtChecks o false) := by
  simp [cvtChecks, hk, hrm]

/-- Seed and base index are registers K and K + 1 under SR, else 0. -/
theorem cvtSeed_eq (x : Thread) (o : CvtOpt) :
    cvtSeed x o = (if o.rm = 4 then x.rs o.k else 0, if o.rm = 4 then x.rs (o.k + 1) else 0) := by
  unfold cvtSeed
  split <;> rfl

/-- The flags of a block are raised where some lane is written. -/
theorem ite_anyLane (p : Word) (g : Flg) : (if anyLane p = true then g else 0) = if p = 0 then 0 else g := by
  by_cases h : p = 0 <;> simp [anyLane, h]

/-- The 64 values of one register, read as those of `vA` and the registers after it. -/
theorem map_lanes_one (x : Thread) (a : Nat) :
    ((List.range (64 * 1)).map fun i => dec32 (lane (x.rv (a + i / 64)) (i % 64))) =
      (List.range 64).map fun i => dec32 (lane (x.rv a) i) := by
  refine List.map_congr_left fun i hi => ?_
  have hlt := List.mem_range.mp hi
  rw [Nat.div_eq_of_lt hlt, Nat.mod_eq_of_lt hlt, Nat.add_zero]

/-- Settles O11: each form writes its value under the mask (`maskedSet_of_pure`), its checks clear. Which flags the
conversions and the lane sum raise is the model's reading (log entry 30). -/
theorem vectorConversions : Obligations.VectorConversions := by
  intro n t pr d a o s hi
  refine ⟨?vsumf, fun hk hrm hsrc htgt => ?vcvt,
    fun hk hrm hsrc htgt => ?vqmx, fun hk hrm hsrc htgt ha => ?vq4⟩
  case vsumf =>
    refine maskedSet_of_pure hi (exec_vsumf ..) clear_nil ?_
    simp only [List.map_cons, List.map_replicate, ofLanes_cons_zeros]
  case vcvt =>
    refine maskedSet_of_pure hi (exec_vcvt ..) (by simpa [hsrc, htgt] using clear_cvtChecks hk hrm) ?_
    simp only [cvtSeed_eq]
  case vqmx =>
    have hmx : (mxElem o.tgt).isNone = false := by rw [Option.isNone_eq_false_iff, htgt]
    refine maskedSet_of_pure hi (exec_vqmx ..) (by simpa [hsrc, hmx] using clear_cvtChecks hk hrm) ?_
    simp only [cvtSeed_eq, ite_anyLane, map_lanes_one]
  case vq4 =>
    refine maskedSet_of_pure hi (exec_vq4 ..) (clear_cons.mpr ⟨by simp [ha], ?_⟩) ?_
    · simpa [hsrc, htgt] using clear_cvtChecks hk hrm
    · simp only [cvtSeed_eq, ite_anyLane]

end Sys2Proof.Machine
end

section
/-! What releasing a tile and letting STALLED threads try again may change (R56, R85), for O18 and O20. -/

namespace Sys2Proof.Machine

/-! ### A table written key by key -/

/-- A pass over the first `N` keys that changes each key's value on its own changes every value once. -/
theorem tget_foldl_range {α : Type} {d : α} {g : Tbl α → Nat → Tbl α} {F : Nat → α → α}
    (hg : ∀ tb k j, tget d (g tb k) j = if j = k then F k (tget d tb k) else tget d tb j) (tb : Tbl α) (N j : Nat) :
    tget d ((List.range N).foldl g tb) j = if j < N then F j (tget d tb j) else tget d tb j := by
  induction N with
  | zero => rfl
  | succ N ih =>
    rw [List.range_succ, List.foldl_append, List.foldl_cons, List.foldl_nil, hg]
    by_cases hj : j = N
    · subst hj
      have hself := ih
      rw [if_neg (Nat.lt_irrefl j)] at hself
      rw [if_pos rfl, if_pos (Nat.lt_succ_self j), hself]
    · have hlt : j < N + 1 ↔ j < N := by omega
      rw [if_neg hj, ih]
      simp only [hlt]

/-! ### STALLED threads try again (R85) -/

/-- A thread after a resource has freed. -/
def unstallThread (x : Thread) : Thread :=
  if x.st = .stalled then { x with st := .ready }
  else if x.st = .held ∧ x.prev = .stalled then { x with prev := .ready } else x

/-- One step of the pass over a core's threads. -/
def unstallStep (tb : Tbl Thread) (u : Nat) : Tbl Thread :=
  let x : Thread := tget {} tb u
  if x.st = .stalled then tset {} tb u { x with st := .ready }
  else if x.st = .held ∧ x.prev = .stalled then tset {} tb u { x with prev := .ready } else tb

theorem unstall_eq (c : Core) : unstall c = { c with thr := (List.range 16).foldl unstallStep c.thr } := by
  unfold unstall
  rfl

theorem tget_unstallStep (tb : Tbl Thread) (k j : Nat) :
    tget {} (unstallStep tb k) j = if j = k then unstallThread (tget {} tb k) else tget {} tb j := by
  unfold unstallStep unstallThread
  dsimp only
  split
  · exact tget_tset ..
  · split
    · exact tget_tset ..
    · split
      · next e => rw [e]
      · rfl

theorem thread_unstall (c : Core) (u : Nat) :
    (unstall c).thread u = if u < 16 then unstallThread (c.thread u) else c.thread u := by
  rw [unstall_eq, Core.thread, tget_foldl_range tget_unstallStep]
  rfl

theorem unstallThread_of_ready {x : Thread} (h : x.st = .ready) : unstallThread x = x := by simp [unstallThread, h]

@[simp] theorem unstallThread_flg (x : Thread) : (unstallThread x).flg = x.flg := by
  unfold unstallThread
  split
  · rfl
  · split <;> rfl

@[simp] theorem unstallThread_pc (x : Thread) : (unstallThread x).pc = x.pc := by
  unfold unstallThread
  split
  · rfl
  · split <;> rfl

theorem thread_unstall_of_ready {c : Core} {u : Nat} (h : (c.thread u).st = .ready) :
    (unstall c).thread u = c.thread u := by
  rw [thread_unstall, unstallThread_of_ready h, ite_self]

@[simp] theorem thread_unstall_flg (c : Core) (u : Nat) : ((unstall c).thread u).flg = (c.thread u).flg := by
  rw [thread_unstall]; split <;> simp

@[simp] theorem thread_unstall_pc (c : Core) (u : Nat) : ((unstall c).thread u).pc = (c.thread u).pc := by
  rw [thread_unstall]; split <;> simp

/-- Nothing but the threads differs. -/
theorem unstall_frame (c : Core) : ∃ thr, unstall c = { c with thr := thr } := ⟨_, unstall_eq c⟩

@[simp] theorem unstall_tile (c : Core) (k : Nat) : (unstall c).tile k = c.tile k := by
  obtain ⟨thr, h⟩ := unstall_frame c; rw [h]; rfl
@[simp] theorem unstall_ls (c : Core) : (unstall c).ls = c.ls := by
  obtain ⟨thr, h⟩ := unstall_frame c; rw [h]
@[simp] theorem unstall_tq (c : Core) : (unstall c).tq = c.tq := by
  obtain ⟨thr, h⟩ := unstall_frame c; rw [h]
@[simp] theorem unstall_rq (c : Core) : (unstall c).rq = c.rq := by
  obtain ⟨thr, h⟩ := unstall_frame c; rw [h]

/-! ### Tiles and their release (R56) -/

theorem Core.tile_setTile (c : Core) (k j : Nat) (x : Tile) :
    (c.setTile k x).tile j = if j = k then x else c.tile j := tget_tset ..

@[simp] theorem Core.tile_setTile_same (c : Core) (k : Nat) (x : Tile) : (c.setTile k x).tile k = x := tget_tset_same ..

theorem Core.tile_setTile_ne (c : Core) {k j : Nat} (x : Tile) (h : j ≠ k) : (c.setTile k x).tile j = c.tile j :=
  tget_tset_ne _ _ _ h

/-- A tile is to be released once what is in flight on it has taken effect. -/
def markRelease (c : Core) (tl : Nat) : Core := c.setTile tl { c.tile tl with releasing := some c.nextId }

@[simp] theorem markRelease_tile_same (c : Core) (tl : Nat) :
    (markRelease c tl).tile tl = { c.tile tl with releasing := some c.nextId } := Core.tile_setTile_same ..

variable {c : Core} {tl id : Nat}

theorem settle_pending (hr : (c.tile tl).releasing = some id) (hp : tilePending c tl id = true) : settle c tl = c := by
  simp [settle, hr, hp]

theorem settle_free (hr : (c.tile tl).releasing = some id) (hp : tilePending c tl id = false) :
    settle c tl = unstall (c.setTile tl { c.tile tl with releasing := none, owner := none }) := by
  simp [settle, hr, hp]

/-- What settling a tile's release can do: nothing, or the tile has no owner and STALLED threads try again. -/
theorem settle_cases (c : Core) (tl : Nat) :
    settle c tl = c ∨ settle c tl = unstall (c.setTile tl { c.tile tl with releasing := none, owner := none }) := by
  cases hr : (c.tile tl).releasing with
  | none => exact .inl (by simp [settle, hr])
  | some id =>
    cases hp : tilePending c tl id with
    | true => exact .inl (settle_pending hr hp)
    | false => exact .inr (settle_free hr hp)

end Sys2Proof.Machine
end

section
/-! Tensor instructions enter their queue, and tiles change owner (R56-R58, R97), for O18. -/

namespace Sys2Proof.Machine

variable {s s1 : State} {n t pr k : Nat} {kind : AKind} {tq rq : List Nat} {tiles : Tbl Tile}

/-! ### What a core instruction leaves of the other cores -/

theorem onlyCore_setCore (s : State) (n : Nat) (c : Core) : OnlyCore s (s.setCore n c) n :=
  ⟨rfl, fun m hm => by rw [State.core_setCore, if_neg hm]⟩

theorem onlyCore_modCore (s : State) (n : Nat) (g : Core → Core) : OnlyCore s (s.modCore n g) n := onlyCore_setCore ..

theorem onlyCore_modThr (s : State) (n t : Nat) (f : Thread → Thread) : OnlyCore s (s.modThr n t f) n := onlyCore_setCore ..

theorem OnlyCore.trans {s₁ s₂ s₃ : State} {n : Nat} (h : OnlyCore s₁ s₂ n) (g : OnlyCore s₂ s₃ n) : OnlyCore s₁ s₃ n where
  rest := by
    have h1 := h.rest; have g1 := g.rest
    calc { s₃ with cores := s₁.cores } = { ({ s₃ with cores := s₂.cores } : State) with cores := s₁.cores } := rfl
      _ = s₁ := by rw [g1, h1]
  cores := fun m hm => by rw [g.cores m hm, h.cores m hm]

/-! ### Entry into a queue (R58, R91) -/

/-- A core's new operation, queues and tiles, followed by the retirement of its thread, are its issue. -/
theorem issued_of_onlyCore (ho : OnlyCore s s1 n)
    (hc : s1.core n = { s.core n with
      aops := (s.core n).aops ++ [newOp s n t k kind], nextId := (s.core n).nextId + 1, tq := tq, rq := rq,
      tiles := tiles }) :
    Issued s (s1.modThr n t retire) n t k kind tq rq tiles := by
  have hthr : ∀ u, s1.thr n u = s.thr n u := fun u => by unfold State.thr; rw [hc]; rfl
  have hframe := ho.trans (onlyCore_modThr s1 n t retire)
  refine ⟨hframe.rest, hframe.cores, fun u hu => ?_, ?_, ?_, ?_, ?_⟩
  · rw [State.thr_modThr, if_neg (fun h => hu h.2), hthr]
  · rw [State.thr_modThr_same, hthr]
    exact ⟨rfl, rfl, rfl⟩
  · rw [State.thr_modThr_same, hthr]
    exact ⟨fun _ => rfl, fun _ => rfl, fun _ => rfl, fun _ => rfl, rfl⟩
  · rw [State.core_modThr_same, hc]
    rfl
  · rw [State.core_modThr_same, hc]
    rfl

/-- An instruction whose checks are clear and whose effect is to issue an operation issues it. -/
theorem gives_issued {i : Instr} {checks : State → List Check} {eff : State → Res} (hi : MayIssue s n t pr)
    (hx : exec i s = coreStep n t pr false checks eff s) (hc : Clear (checks s)) (he : eff s = .done s1)
    (ho : OnlyCore s s1 n)
    (hcore : s1.core n = { s.core n with
      aops := (s.core n).aops ++ [newOp s n t k kind], nextId := (s.core n).nextId + 1, tq := tq, rq := rq,
      tiles := tiles }) :
    Gives i s fun s' => Issued s s' n t k kind tq rq tiles :=
  ⟨_, hx.trans (coreStep_done hi.runs hi.next (firstCheck_clear hc) he), issued_of_onlyCore ho hcore⟩

/-- An instruction that only enters the readout queue, an entry and a slot being free. -/
theorem gives_readout {i : Instr} {checks : State → List Check} {eff : State → Res} (hi : MayIssue s n t pr)
    (hs : SlotFree s n t) (hq : (s.core n).rq.length < 2) (hx : exec i s = coreStep n t pr false checks eff s)
    (he : eff s = queueOp n t k true kind s) (hc : Clear (checks s)) :
    Gives i s fun s' => Issued s s' n t k kind (s.core n).tq ((s.core n).rq ++ [(s.core n).nextId]) (s.core n).tiles :=
  gives_issued hi hx hc (he.trans ((queueOp_free hs).2 hq)) (onlyCore_setCore ..) (State.core_setCore_same ..)

/-- What entry into the readout queue does. -/
theorem queueOp_readout (hs : SlotFree s n t) (hq : (s.core n).rq.length < 2) :
    ∃ s1, queueOp n t k true kind s = .done s1 ∧ OnlyCore s s1 n ∧ s1.core n = { s.core n with
      aops := (s.core n).aops ++ [newOp s n t k kind], nextId := (s.core n).nextId + 1
      rq := (s.core n).rq ++ [(s.core n).nextId] } :=
  ⟨_, (queueOp_free hs).2 hq, onlyCore_setCore .., State.core_setCore_same ..⟩

/-! ### Checks of the operands (R59, R64, R83, R97) -/

theorem pitchOf_ne_zero {f : Nat} (h : isT f = true) : 64 * pitchOf f ≠ 0 := by
  have hall : ∀ g ∈ [0x02, 0x03, 0x04, 0x05, 0x06, 0x07, 0x08, 0x10, 0x11, 0x18, 0x19, 0x1A, 0x1B, 0x1C, 0x1D, 0x20],
      64 * pitchOf g ≠ 0 := by decide
  exact hall f (List.contains_iff_mem.mp h)

/-- An operand range that is empty, or that is aligned and inside what its thread may use, breaks no check. -/
theorem operand_checks {la len al : Nat} (h : len = 0 ∨ (la % al = 0 ∧ la + len ≤ lsTop ∧ inMon t la len = false)) :
    inMon t la len = false ∧ (len != 0 && (la % al != 0 || decide (lsTop < la + len))) = false := by
  rcases h with rfl | ⟨hal, htop, hmon⟩
  · simp [inMon]
  · exact ⟨hmon, by simp [hal, htop]⟩

/-- The same where the range is not empty. -/
theorem operand_align {la len al : Nat} (hlen : len ≠ 0)
    (h : len = 0 ∨ (la % al = 0 ∧ la + len ≤ lsTop ∧ inMon t la len = false)) :
    (la % al != 0 || decide (lsTop < la + len)) = false := by
  simpa [hlen] using (operand_checks h).2

/-! ### Ownership (R56) -/

@[simp] theorem tile_modThr (s : State) (n t k : Nat) (f : Thread → Thread) :
    ((s.modThr n t f).core n).tile k = (s.core n).tile k := by
  rw [State.core_modThr_same]
  rfl

/-- An instruction whose effect touches its own core but not its thread retires with what that effect leaves. -/
theorem gives_of_coreEffect {i : Instr} {checks : State → List Check} {eff : State → Res} {c : Core} {p : State → Prop}
    (hi : MayIssue s n t pr) (hx : exec i s = coreStep n t pr false checks eff s) (hc : Clear (checks s))
    (he : eff s = .done (s.setCore n c)) (ht : c.thread t = s.thr n t)
    (hp : p ((s.setCore n c).modThr n t retire)) :
    Gives i s fun s' => OnlyCore s s' n ∧ Retired (s.thr n t) (s'.thr n t) ∧ SameRegs (s.thr n t) (s'.thr n t) ∧ p s' := by
  have hthr : (s.setCore n c).thr n t = s.thr n t := by rw [State.thr, State.core_setCore_same, ht]
  refine ⟨_, hx.trans (coreStep_done hi.runs hi.next (firstCheck_clear hc) he),
    (onlyCore_setCore ..).trans (onlyCore_modThr ..), ?_, ?_, hp⟩
  · rw [State.thr_modThr_same, hthr]
    exact ⟨rfl, rfl, rfl⟩
  · rw [State.thr_modThr_same, hthr]
    exact ⟨fun _ => rfl, fun _ => rfl, fun _ => rfl, fun _ => rfl, rfl⟩

/-- An instruction whose one check finds a tile of another thread takes TILE. -/
theorem tile_fault {i : Instr} {b : Bool} {checks : State → List Check} {eff : State → Res} (hi : MayIssue s n t pr)
    (hx : exec i s = coreStep n t pr false checks eff s) (hc : checks s = [(b, cTILE, 0)]) (hb : b = true)
    (hj : ∀ s' x, eff s ≠ .jump s' x) : exec i s = .next (takeFault s n t cTILE 0 0) :=
  hx.trans (coreStep_check hi.runs hi.next (fun s' x h => absurd h (hj s' x)) (by rw [hc, hb]; rfl))

theorem owner_of_owns {c : Core} {tile : Nat} (h : owns c tile t = true) : (c.tile tile).owner = some t := by
  simp only [owns, Bool.and_eq_true, decide_eq_true_eq] at h
  exact h.1

/-- TZERO claims a free tile or its own, cleared (R56). -/
theorem tzero_claims {tile : Nat} {ex : Bool} {anchor : Int} (hi : MayIssue s n t pr)
    (hfree : ((s.core n).tile tile).owner = none ∨ ((s.core n).tile tile).owner = some t)
    (hp : tilePending (s.core n) tile (s.core n).nextId = false) :
    Gives (.tzero n t pr tile ex anchor) s fun s' =>
      OnlyCore s s' n ∧ Retired (s.thr n t) (s'.thr n t) ∧ SameRegs (s.thr n t) (s'.thr n t) ∧
      (s'.core n).tile tile = { exact_ := ex, anchor := if ex then anchor else 0, owner := some t } ∧
      ∀ k, k ≠ tile → (s'.core n).tile k = (s.core n).tile k := by
  refine gives_of_coreEffect hi (exec_tzero ..) ?_ (if_neg (by rw [hp]; exact Bool.false_ne_true)) rfl ⟨?_, fun k hk => ?_⟩
  · rcases hfree with h | h <;> simp [h]
  · rw [tile_modThr, State.core_setCore_same, Core.tile_setTile_same]
  · rw [tile_modThr, State.core_setCore_same, Core.tile_setTile_ne _ _ hk]

/-- TREL gives its tile up at once, or once what is pending on it has taken effect (R56). -/
theorem trel_releases {tile : Nat} (hi : MayIssue s n t pr) (hown : owns (s.core n) tile t = true) :
    Gives (.trel n t pr tile) s fun s' =>
      OnlyCore s s' n ∧ Retired (s.thr n t) (s'.thr n t) ∧ SameRegs (s.thr n t) (s'.thr n t) ∧
      (tilePending (s.core n) tile (s.core n).nextId = false →
        (s'.core n).tile tile = { (s.core n).tile tile with owner := none, releasing := none }) ∧
      (tilePending (s.core n) tile (s.core n).nextId = true →
        (s'.core n).tile tile = { (s.core n).tile tile with releasing := some (s.core n).nextId }) := by
  have hr : ((markRelease (s.core n) tile).tile tile).releasing = some (s.core n).nextId := by rw [markRelease_tile_same]
  refine gives_of_coreEffect (c := settle (markRelease (s.core n) tile) tile) hi (exec_trel ..) (by simp [hown]) rfl ?_
    ⟨fun hp => ?_, fun hp => ?_⟩
  · have hready : ((markRelease (s.core n) tile).thread t).st = .ready := hi.ready
    rcases settle_cases (markRelease (s.core n) tile) tile with h | h <;> rw [h]
    · rfl
    · exact thread_unstall_of_ready hready
  · rw [tile_modThr, State.core_setCore_same, settle_free hr hp, unstall_tile, Core.tile_setTile_same,
      markRelease_tile_same]
  · rw [tile_modThr, State.core_setCore_same, settle_pending hr hp, markRelease_tile_same]

/-- The readout that TRD captures: where its rows go, and seed, base index and stride under SR alone (R97). -/
def trdKind (th : Thread) (tile : Nat) (o : TrdOpt) (d x : Nat) : AKind :=
  let w := (th.rs d).toNat
  let sr (v : Word) : Word := if o.rm = 4 then v else 0
  .trd tile o (w % 2 ^ 18) (bits w 35 20) (bits w 57 40) (sr (th.rs x)) (sr (th.rs (x + 1))) (sr (th.rs (x + 2)))

/-- Settles O18: the instructions that enter a queue by `gives_issued`, their checks clear; TZERO and TREL by what they
leave of the tile. That TZERO leaves anchor 0 in FP32 mode is the model's choice (log entry 120). -/
theorem tensorIssue : Obligations.TensorIssue := by
  refine ⟨fun n t pr tile fa fb a b sc d x k fmt o s hi hs => ⟨?tmma, ?trd, ?tlda, ?images⟩,
    fun n t pr tile ex anchor s hi => ⟨tzero_claims hi, fun u hu hne => ⟨?tzeroFault, ?trelFault⟩, trel_releases hi⟩⟩
  case tmma =>
    intro hown hfa hfb hclass hq hla hlb hsa hsb
    refine gives_issued hi (exec_tmma ..) ?_ ((queueOp_free hs).1 hq) (onlyCore_setCore ..) (State.core_setCore_same ..)
    simp only [clear_cons, clear_nil, operand_checks hla, operand_checks hlb, operand_checks hsa, operand_checks hsb,
      operand_align (pitchOf_ne_zero hfa) hla, operand_align (pitchOf_ne_zero hfb) hlb, hown, hfa, hfb, hclass,
      bne_self_eq_false, Bool.not_true, Bool.or_false, and_self]
  case trd =>
    intro hown htarget hrm hseed hq hpitch hrow htop hmon hscales
    have hx : decide (o.rm = 4 ∧ 61 < x) = false := decide_eq_false fun h => Nat.not_lt.mpr (hseed h.1) h.2
    have hmx : ((mxElem o.fmt).isSome && inMon t (bits ((s.thr n t).rs d).toNat 57 40) 128) = false ∧
        ((mxElem o.fmt).isSome && decide (lsTop < bits ((s.thr n t).rs d).toNat 57 40 + 128)) = false := by
      cases h : (mxElem o.fmt).isSome with
      | false => exact ⟨rfl, rfl⟩
      | true => simp [hscales h]
    obtain ⟨s0, hdone, ho, hcore⟩ := queueOp_readout (kind := trdKind (s.thr n t) tile o d x) hs hq
    refine gives_issued (s1 := if o.rel then s0.modCore n (markRelease · tile) else s0) hi (exec_trd ..) ?_ ?_ ?_ ?_
    · simp only [clear_cons, clear_nil, hx, hmon, hmx, hown, htarget, hpitch, Nat.not_lt.mpr hrm, Nat.not_lt.mpr hrow,
        Nat.not_lt.mpr htop, decide_false, bne_self_eq_false, Bool.not_true, Bool.or_false, and_self]
    · by_cases hsr : o.rm = 4
      all_goals
        simp only [trdKind, hsr, ↓reduceIte] at hdone ⊢
        rw [hdone]
        rfl
    · split
      · exact ho.trans (onlyCore_modCore ..)
      · exact ho
    · split
      · rw [State.core_modCore_same, hcore]
        rfl
      · exact hcore
  case tlda =>
    intro hown hfmt hq hpitch hrow htop hmon
    refine gives_readout hi hs hq (exec_tlda ..) rfl ?_
    simp only [clear_cons, clear_nil, hmon, hown, ← hfmt, hpitch, Nat.not_lt.mpr hrow, Nat.not_lt.mpr htop, decide_false,
      bne_self_eq_false, Bool.not_true, Bool.or_false, and_self]
  case images =>
    rintro rfl hal hadr hq
    have hclear : Clear [((0 : Nat) != 0, cPRIV, 0),
        (((s.thr n 0).rs a).toNat % 64 != 0, cALIGN, ((s.thr n 0).rs a).toNat),
        (decide (2 ^ 56 ≤ ((s.thr n 0).rs a).toNat), cADDR, ((s.thr n 0).rs a).toNat)] := by
      simp only [clear_cons, clear_nil, hal, Nat.not_le.mpr hadr, decide_false, bne_self_eq_false, and_self]
    exact ⟨gives_readout hi hs hq (exec_tsave ..) rfl hclear, gives_readout hi hs hq (exec_tload ..) rfl hclear⟩
  case tzeroFault =>
    refine tile_fault hi (exec_tzero ..) rfl (by simp [hu, hne]) fun s' x h => ?_
    dsimp only at h
    split at h <;> cases h
  case trelFault =>
    have hown : owns (s.core n) tile t = false := Bool.eq_false_iff.mpr fun h =>
      hne (Option.some.inj (hu.symm.trans (owner_of_owns h)))
    exact tile_fault hi (exec_trel ..) rfl (by rw [hown]; rfl) fun s' x h => nomatch h

end Sys2Proof.Machine
end

section
/-! Save images of tiles (R78), for O20: the fields of an image's header and of its elements read back. -/

namespace Sys2Proof.Machine

/-! ### Bytes of an image -/

theorem leNat_append (xs ys : List Byte) : leNat (xs ++ ys) = leNat xs + 256 ^ xs.length * leNat ys := by
  induction xs with
  | nil => simp [leNat]
  | cons x xs ih =>
    rw [List.cons_append, leNat, leNat, ih, List.length_cons, Nat.pow_succ', Nat.mul_add, Nat.mul_assoc, Nat.add_assoc]

/-- Piece `k` of pieces of one length laid end to end. -/
theorem take_drop_flatMap {α β : Type} {f : α → List β} {len : Nat} (hf : ∀ x, (f x).length = len) :
    ∀ (l : List α) (k : Nat) (hk : k < l.length), ((l.flatMap f).drop (len * k)).take len = f l[k]
  | x :: l, 0, _ => by
    rw [Nat.mul_zero, List.drop_zero, List.flatMap_cons, List.getElem_cons_zero, ← hf x, List.take_left]
  | x :: l, k + 1, hk => by
    have hdrop : (f x ++ l.flatMap f).drop len = l.flatMap f := by rw [← hf x, List.drop_left]
    rw [List.flatMap_cons, Nat.mul_succ, Nat.add_comm, ← List.drop_drop, hdrop, List.getElem_cons_succ]
    exact take_drop_flatMap hf l k (Nat.lt_of_succ_lt_succ hk)

theorem b2n_le_one (b : Bool) : b2n b ≤ 1 := by cases b <;> decide

/-- A one-bit field is read back by `bit`. -/
theorem bit_of_b2n {x i : Nat} {b : Bool} (h : x / 2 ^ i % 2 = b2n b) : bit x i = b := by
  rw [bit, Nat.testBit_eq_decide_div_mod_eq, h]
  cases b <;> rfl

/-! ### The header -/

/-- The owner field of a header: bit 4 with the thread, or zero. -/
def ownerField (owner : Option Nat) : Nat := match owner with | some t => t + 16 | none => 0

/-- The header of a tile's image, as a number. -/
def imageHeader (tl : Tile) : Nat :=
  1 + b2n tl.exact_ * 2 ^ 8 + (tl.anchor % 1024).toNat * 2 ^ 16 + ownerField tl.owner * 2 ^ 32

/-- An element as an image holds it. -/
def elemBytes (e : Elem) : List Byte := leBytes 20 e.g.toNat ++ leBytes 4 (b2n e.nan + 2 * b2n e.pinf + 4 * b2n e.ninf)

/-- The same as a number. -/
def elemNumber (e : Elem) : Nat := e.g.toNat + 2 ^ 160 * (b2n e.nan + 2 * b2n e.pinf + 4 * b2n e.ninf)

theorem tileImage_eq (tl : Tile) : tileImage tl =
    leBytes 64 (imageHeader tl) ++ (List.range 4096).flatMap fun k => elemBytes (tget {} tl.elems k) := by
  unfold tileImage imageHeader ownerField
  rfl

theorem ownerField_lt {owner : Option Nat} (h : ∀ u, owner = some u → u < 16) : ownerField owner < 32 := by
  cases owner with
  | none => decide
  | some u => exact Nat.add_lt_add_right (h u rfl) 16

section Header

variable {tl : Tile}

/-- The fields of a header, each in its range. -/
theorem imageHeader_fields (ho : ∀ u, tl.owner = some u → u < 16) :
    ∃ a w, imageHeader tl = 1 + b2n tl.exact_ * 2 ^ 8 + a * 2 ^ 16 + w * 2 ^ 32 ∧ a = (tl.anchor % 1024).toNat ∧
      a < 1024 ∧ w = ownerField tl.owner ∧ w < 32 :=
  ⟨_, _, rfl, rfl, by omega, rfl, ownerField_lt ho⟩

theorem leNat_header (ho : ∀ u, tl.owner = some u → u < 16) : leNat ((tileImage tl).take 64) = imageHeader tl := by
  obtain ⟨a, w, hh, -, ha, -, hw⟩ := imageHeader_fields ho
  have hb := b2n_le_one tl.exact_
  rw [tileImage_eq, List.take_left' (length_leBytes 64 _), leNat_leBytes, hh]
  omega

/-- The version is 1 and the reserved fields are zero. -/
theorem imageHeader_reserved (ho : ∀ u, tl.owner = some u → u < 16) :
    imageHeader tl % 16 = 1 ∧ bits (imageHeader tl) 7 4 = 0 ∧ bits (imageHeader tl) 15 9 = 0 ∧
    bits (imageHeader tl) 31 26 = 0 ∧ bits (imageHeader tl) 39 37 = 0 ∧ imageHeader tl / 2 ^ 40 = 0 := by
  obtain ⟨a, w, hh, -, ha, -, hw⟩ := imageHeader_fields ho
  have hb := b2n_le_one tl.exact_
  simp only [bits, Nat.shiftRight_eq_div_pow, hh]
  omega

theorem bit_imageHeader_exact (ho : ∀ u, tl.owner = some u → u < 16) : bit (imageHeader tl) 8 = tl.exact_ := by
  obtain ⟨a, w, hh, -, ha, -, hw⟩ := imageHeader_fields ho
  have hb := b2n_le_one tl.exact_
  exact bit_of_b2n (by rw [hh]; omega)

theorem sext_imageHeader_anchor (ho : ∀ u, tl.owner = some u → u < 16) (hlo : -512 ≤ tl.anchor) (hhi : tl.anchor < 512) :
    sext 10 (imageHeader tl / 2 ^ 16) = tl.anchor := by
  obtain ⟨a, w, hh, ha, hlt, -, hw⟩ := imageHeader_fields ho
  have hb := b2n_le_one tl.exact_
  have hfield : imageHeader tl / 2 ^ 16 % 2 ^ 10 = a := by rw [hh]; omega
  simp only [sext, hfield]
  split <;> omega

theorem imageHeader_owner (ho : ∀ u, tl.owner = some u → u < 16) :
    (if bit (imageHeader tl) 36 then some (bits (imageHeader tl) 35 32) else none) = tl.owner := by
  obtain ⟨a, w, hh, -, ha, hw, hlt⟩ := imageHeader_fields ho
  have hb := b2n_le_one tl.exact_
  cases howner : tl.owner with
  | none =>
    have hw0 : w = 0 := by rw [hw, howner]; rfl
    have hbit : bit (imageHeader tl) 36 = false := bit_of_b2n (by rw [hh]; change _ = 0; omega)
    rw [hbit]
    rfl
  | some u =>
    have hwu : w = u + 16 := by rw [hw, howner]; rfl
    have hbit : bit (imageHeader tl) 36 = true := bit_of_b2n (by rw [hh]; change _ = 1; omega)
    have hfield : bits (imageHeader tl) 35 32 = u := by rw [bits, Nat.shiftRight_eq_div_pow, hh]; omega
    rw [hbit, hfield]
    rfl

end Header

/-! ### The elements -/

theorem length_elemBytes (e : Elem) : (elemBytes e).length = 24 := by simp [elemBytes]

theorem leNat_elemBytes (e : Elem) : leNat (elemBytes e) = elemNumber e := by
  have hg := e.g.isLt
  have h1 := b2n_le_one e.nan
  have h2 := b2n_le_one e.pinf
  have h3 := b2n_le_one e.ninf
  rw [elemBytes, leNat_append, leNat_leBytes, leNat_leBytes, length_leBytes, elemNumber]
  omega

theorem leNat_elem (tl : Tile) {k : Nat} (hk : k < 4096) :
    leNat (((tileImage tl).drop (64 + 24 * k)).take 24) = elemNumber (tget {} tl.elems k) := by
  rw [tileImage_eq, ← List.drop_drop, List.drop_left' (length_leBytes 64 _),
    take_drop_flatMap (fun _ => length_elemBytes _) _ k (by rw [List.length_range]; exact hk), List.getElem_range,
    leNat_elemBytes]

/-- The special bits stand above the 160 bits of the accumulator, and nothing above them. -/
theorem elemNumber_reserved (e : Elem) : elemNumber e / 2 ^ 163 = 0 ∧ elemNumber e % 2 ^ 160 = e.g.toNat := by
  have hg := e.g.isLt
  have h1 := b2n_le_one e.nan
  have h2 := b2n_le_one e.pinf
  have h3 := b2n_le_one e.ninf
  rw [elemNumber]
  omega

/-- An element as TLOAD reads it from its number. -/
def elemOfNumber (x : Nat) : Elem := ⟨BitVec.ofNat 160 x, bit x 160, bit x 161, bit x 162, false⟩

/-- An element reads back whole. -/
theorem elemOfNumber_elemNumber {e : Elem} (hbad : e.bad = false) : elemOfNumber (elemNumber e) = e := by
  have hg := e.g.isLt
  have h1 := b2n_le_one e.nan
  have h2 := b2n_le_one e.pinf
  have h3 := b2n_le_one e.ninf
  have hval : BitVec.ofNat 160 (elemNumber e) = e.g :=
    BitVec.eq_of_toNat_eq (by rw [BitVec.toNat_ofNat]; exact (elemNumber_reserved e).2)
  have hnan : bit (elemNumber e) 160 = e.nan := bit_of_b2n (by rw [elemNumber]; omega)
  have hpinf : bit (elemNumber e) 161 = e.pinf := bit_of_b2n (by rw [elemNumber]; omega)
  have hninf : bit (elemNumber e) 162 = e.ninf := bit_of_b2n (by rw [elemNumber]; omega)
  rw [elemOfNumber, hval, hnan, hpinf, hninf, ← hbad]

/-! ### The image restores its tile -/

section Restore

variable {tl : Tile}

/-- A table filled from its key. -/
theorem tget_foldl_tset {α : Type} [DecidableEq α] (d : α) (f : Nat → α) (tb : Tbl α) (N j : Nat) :
    tget d ((List.range N).foldl (fun tb k => tset d tb k (f k)) tb) j = if j < N then f j else tget d tb j :=
  tget_foldl_range (F := fun k _ => f k) (fun tb k j => tget_tset d tb k j (f k)) tb N j

theorem imageTile_elems (bs : List Byte) : (imageTile bs).elems = (List.range 4096).foldl (fun tb k =>
    tset {} tb k (elemOfNumber (leNat ((bs.drop (64 + 24 * k)).take 24)))) [] := by
  simp only [imageTile, elemOfNumber]

/-- Every element of a tile without errors comes back. -/
theorem tget_imageTile {k : Nat} (hbad : (tget {} tl.elems k).bad = false)
    (hout : 4096 ≤ k → tget {} tl.elems k = {}) :
    tget {} (imageTile (tileImage tl)).elems k = tget {} tl.elems k := by
  rw [imageTile_elems, tget_foldl_tset]
  by_cases hk : k < 4096
  · rw [if_pos hk, leNat_elem tl hk, elemOfNumber_elemNumber hbad]
  · rw [if_neg hk, hout (Nat.not_lt.mp hk)]
    rfl

/-- A tile whose FP32 elements keep to 32 bits has a well-formed image. -/
theorem imageOk_tileImage (ho : ∀ u, tl.owner = some u → u < 16)
    (hfp : tl.exact_ = false → ∀ k, (tget {} tl.elems k).g.toNat < 2 ^ 32) : imageOk (tileImage tl) = true := by
  obtain ⟨h1, h2, h3, h4, h5, h6⟩ := imageHeader_reserved ho
  unfold imageOk
  simp only [leNat_header ho, h1, h2, h3, h4, h5, h6, bit_imageHeader_exact ho, beq_self_eq_true, Bool.true_and,
    List.all_eq_true, List.mem_range]
  intro k hk
  obtain ⟨hhigh, hlow⟩ := elemNumber_reserved (tget {} tl.elems k)
  rw [leNat_elem tl hk, hhigh, hlow]
  cases hex : tl.exact_ with
  | true => rfl
  | false => simp only [Nat.div_eq_of_lt (hfp hex k), beq_self_eq_true, Bool.or_true, Bool.and_self]

/-- Mode, anchor and owner come back. -/
theorem imageTile_header (ho : ∀ u, tl.owner = some u → u < 16) (hlo : -512 ≤ tl.anchor) (hhi : tl.anchor < 512) :
    (imageTile (tileImage tl)).exact_ = tl.exact_ ∧ (imageTile (tileImage tl)).anchor = tl.anchor ∧
    (imageTile (tileImage tl)).owner = tl.owner := by
  unfold imageTile
  dsimp only
  rw [leNat_header ho]
  exact ⟨bit_imageHeader_exact ho, sext_imageHeader_anchor ho hlo hhi, imageHeader_owner ho⟩

end Restore

end Sys2Proof.Machine
end

section
/-! The tensor unit's engines take the oldest entry of their queue (R57, R58, R74), for O20. -/

namespace Sys2Proof.Machine

variable {s : State} {n tl : Nat} {o : AOp} {f : Flg}

/-! ### What settling a release leaves -/

theorem settle_tile_elems (c : Core) (tl k : Nat) : ((settle c tl).tile k).elems = (c.tile k).elems := by
  rcases settle_cases c tl with h | h
  · rw [h]
  · rw [h, unstall_tile, Core.tile_setTile]
    split
    · next e => rw [e]
    · rfl

theorem settle_tile_ne (c : Core) {tl k : Nat} (hk : k ≠ tl) : (settle c tl).tile k = c.tile k := by
  rcases settle_cases c tl with h | h
  · rw [h]
  · rw [h, unstall_tile, Core.tile_setTile_ne _ _ hk]

/-- What neither a change of a tile nor the waking of STALLED threads touches stays. -/
theorem settle_keeps {α : Type} (g : Core → α) (hu : ∀ c, g (unstall c) = g c) (ht : ∀ c k x, g (Core.setTile c k x) = g c)
    (c : Core) (tl : Nat) : g (settle c tl) = g c := by
  rcases settle_cases c tl with h | h
  · rw [h]
  · rw [h, hu, ht]

@[simp] theorem settle_tq (c : Core) (tl : Nat) : (settle c tl).tq = c.tq :=
  settle_keeps (·.tq) unstall_tq (fun _ _ _ => rfl) c tl
@[simp] theorem settle_rq (c : Core) (tl : Nat) : (settle c tl).rq = c.rq :=
  settle_keeps (·.rq) unstall_rq (fun _ _ _ => rfl) c tl
@[simp] theorem settle_ls (c : Core) (tl : Nat) : (settle c tl).ls = c.ls :=
  settle_keeps (·.ls) unstall_ls (fun _ _ _ => rfl) c tl
@[simp] theorem settle_thread_flg (c : Core) (tl u : Nat) : ((settle c tl).thread u).flg = (c.thread u).flg :=
  settle_keeps (fun c => (c.thread u).flg) (thread_unstall_flg · u) (fun _ _ _ => rfl) c tl
@[simp] theorem settle_thread_pc (c : Core) (tl u : Nat) : ((settle c tl).thread u).pc = (c.thread u).pc :=
  settle_keeps (fun c => (c.thread u).pc) (thread_unstall_pc · u) (fun _ _ _ => rfl) c tl

/-! ### An operation that has taken effect -/

/-- What taking effect does to a core beside the operation's own writes: the operation leaves its queue, its thread gains
its flags, and its tile may lose an owner that gave it up. -/
structure EffectOf (c c' : Core) (o : AOp) (f : Flg) (tl : Nat) : Prop where
  elems : ∀ k, (c'.tile k).elems = (c.tile k).elems
  others : ∀ k, k ≠ tl → c'.tile k = c.tile k
  tq : c'.tq = c.tq.filter (· ≠ o.id)
  rq : c'.rq = c.rq.filter (· ≠ o.id)
  ls : c'.ls = c.ls
  flg : (c'.thread o.t).flg = (c.thread o.t).flg ||| f
  pc : ∀ u, (c'.thread u).pc = (c.thread u).pc

theorem effectOf_tookEffect (s : State) (n : Nat) (o : AOp) (f : Flg) (htl : tileOf o.kind = some tl) :
    EffectOf (s.core n) ((tookEffect s n o f).core n) o f tl := by
  unfold tookEffect
  rw [State.core_modCore_same, htl]
  dsimp only
  refine ⟨fun k => ?_, fun k hk => ?_, ?_, ?_, ?_, ?_, fun u => ?_⟩
  · rw [unstall_tile, settle_tile_elems]
    rfl
  · rw [unstall_tile, settle_tile_ne _ hk]
    rfl
  · rw [unstall_tq, settle_tq]
    rfl
  · rw [unstall_rq, settle_rq]
    rfl
  · rw [unstall_ls, settle_ls]
    rfl
  · rw [thread_unstall_flg, settle_thread_flg, Core.thread_setThread_same]
    rfl
  · rw [thread_unstall_pc, settle_thread_pc, Core.thread_setThread]
    split
    · next e => rw [e]; rfl
    · rfl

theorem onlyCore_tookEffect (s : State) (n : Nat) (o : AOp) (f : Flg) : OnlyCore s (tookEffect s n o f) n :=
  onlyCore_modCore ..

/-- Taking effect after a change of the operation's own core. -/
theorem effectOf_setCore (s : State) (n : Nat) (c : Core) (o : AOp) (f : Flg) (htl : tileOf o.kind = some tl) :
    OnlyCore s (tookEffect (s.setCore n c) n o f) n ∧ EffectOf c ((tookEffect (s.setCore n c) n o f).core n) o f tl := by
  refine ⟨(onlyCore_setCore ..).trans (onlyCore_tookEffect ..), ?_⟩
  have h := effectOf_tookEffect (s.setCore n c) n o f htl
  rwa [State.core_setCore_same] at h

/-! ### Rows written to local store (R74) -/

/-- Nothing but local store and its check bits differs. -/
structure OnlyLs (c c' : Core) : Prop where
  rest : { c' with ls := c.ls, lsBad := c.lsBad } = c

theorem OnlyLs.trans {c₁ c₂ c₃ : Core} (h : OnlyLs c₁ c₂) (g : OnlyLs c₂ c₃) : OnlyLs c₁ c₃ where
  rest := by
    have h1 := h.rest; have g1 := g.rest
    calc { c₃ with ls := c₁.ls, lsBad := c₁.lsBad }
        = { ({ c₃ with ls := c₂.ls, lsBad := c₂.lsBad } : Core) with ls := c₁.ls, lsBad := c₁.lsBad } := rfl
      _ = c₁ := by rw [g1, h1]

theorem OnlyLs.rq {c c' : Core} (h : OnlyLs c c') : c'.rq = c.rq := (congrArg Core.rq h.rest :)
theorem OnlyLs.thr {c c' : Core} (h : OnlyLs c c') : c'.thr = c.thr := (congrArg Core.thr h.rest :)
theorem OnlyLs.tiles {c c' : Core} (h : OnlyLs c c') : c'.tiles = c.tiles := (congrArg Core.tiles h.rest :)

theorem onlyLs_lsWrite {c c' : Core} {a : Nat} {bs : List Byte} {e : Option Nat} (h : lsWrite c a bs = (c', e)) :
    OnlyLs c c' := by
  have hfst : OnlyLs c (lsWrite c a bs).1 := by
    unfold lsWrite
    dsimp only
    split <;> exact ⟨rfl⟩
  rwa [h] at hfst

/-- A readout's rows change local store and its check bits alone. -/
theorem onlyLs_writeRows (tl : Tile) (o : TrdOpt) (dst pitch sdst : Nat) (seed base stride : Word) (rows : List Nat)
    (c : Core) (f : Flg) : OnlyLs c (writeRows tl o dst pitch sdst seed base stride rows c f).1 := by
  induction rows generalizing c f with
  | nil => exact ⟨rfl⟩
  | cons i rows ih =>
    unfold writeRows
    dsimp only
    split
    · next hrow => exact onlyLs_lsWrite hrow
    · next hrow =>
      split
      · next hscale => exact (onlyLs_lsWrite hrow).trans (onlyLs_lsWrite hscale)
      · next hscale => exact ((onlyLs_lsWrite hrow).trans (onlyLs_lsWrite hscale)).trans (ih ..)

/-! ### The engines -/

/-- An engine takes the oldest entry of its queue once nothing earlier is pending on the tile (R57, R58). -/
theorem dispatch_oldest {readout : Bool} (hf : (s.core n).aops.find? (fun x => x.id = o.id) = some o)
    (hq : (if readout then (s.core n).rq else (s.core n).tq).head? = some o.id) (htl : tileOf o.kind = some tl)
    (hp : tilePending (s.core n) tl o.id = false) :
    exec (.tensorQueueDispatch n readout) s = .next (runTensor s n o) := by
  obtain ⟨rest, hrest⟩ := List.head?_eq_some_iff.mp hq
  rw [exec_tensorQueueDispatch, execTensorQueueDispatch]
  simp only [hrest, hf, htl, hp, Bool.false_eq_true, ↓reduceIte]

/-- TMMA: the tile takes its products (R59). -/
theorem runTensor_tmma {tile fa fb a b sa sb : Nat} {as bs : List (List Val)}
    (hk : o.kind = .tmma tile fa fb a b sa sb) (ha : operandTile (s.core n) fa a sa = .ok as)
    (hb : operandTile (s.core n) fb b sb = .ok bs) (hbad : (((s.core n).tile tile).elems.any fun e => e.2.bad) = false) :
    runTensor s n o = tookEffect (s.setCore n ((s.core n).setTile tile (tmmaTile ((s.core n).tile tile) as bs).1)) n o
      (tmmaTile ((s.core n).tile tile) as bs).2 := by
  unfold runTensor
  rw [hk]
  simp only [ha, hb, hbad, Bool.false_eq_true, ↓reduceIte]

/-- The core after a readout's rows are written: CLR clears the tile (R72). -/
def readoutCore (c : Core) (tile : Nat) (clr : Bool) : Core :=
  if clr then c.setTile tile { (c.tile tile) with elems := [] } else c

theorem readoutCore_elems (c : Core) (tile : Nat) (clr : Bool) :
    ((readoutCore c tile clr).tile tile).elems = if clr then [] else (c.tile tile).elems := by
  cases clr with
  | false => rfl
  | true => exact congrArg Tile.elems (Core.tile_setTile_same ..)

theorem readoutCore_ls (c : Core) (tile : Nat) (clr : Bool) : (readoutCore c tile clr).ls = c.ls := by cases clr <;> rfl
theorem readoutCore_rq (c : Core) (tile : Nat) (clr : Bool) : (readoutCore c tile clr).rq = c.rq := by cases clr <;> rfl
theorem readoutCore_thr (c : Core) (tile : Nat) (clr : Bool) : (readoutCore c tile clr).thr = c.thr := by cases clr <;> rfl

/-- A readout: its rows are written (R72, R74). -/
theorem runTensor_trd {tile dst pitch sdst : Nat} {opt : TrdOpt} {seed base stride : Word} {c' : Core}
    (hk : o.kind = .trd tile opt dst pitch sdst seed base stride)
    (hbad : (((s.core n).tile tile).elems.any fun e => e.2.bad) = false)
    (hw : writeRows ((s.core n).tile tile) opt dst pitch sdst seed base stride (List.range 64) (s.core n) 0 =
      (c', f, none)) :
    runTensor s n o = tookEffect (s.setCore n (readoutCore c' tile opt.clr)) n o f := by
  unfold runTensor
  rw [hk]
  simp only [hbad, hw, Bool.false_eq_true, ↓reduceIte]
  rfl

/-- Settles O20: an image reads back field by field; an engine's oldest entry takes effect by `effectOf_setCore`. -/
theorem tensorEngines : Obligations.TensorEngines := by
  refine ⟨fun tl hlo hhi ho hrel hbad hout hfp => ?image, fun n o s hf => ⟨?tmma, ?trd⟩⟩
  case image =>
    obtain ⟨hexact, hanchor, howner⟩ := imageTile_header ho hlo hhi
    exact ⟨imageOk_tileImage ho hfp, hexact, hanchor, howner, fun k => tget_imageTile (hbad k) (hout k)⟩
  case tmma =>
    intro tile fa fb a b sa sb as bs hk hq hp ha hb hbad r
    have htl : tileOf o.kind = some tile := by rw [hk]; rfl
    obtain ⟨honly, heff⟩ := effectOf_setCore s n ((s.core n).setTile tile r.1) o r.2 htl
    refine ⟨_, (dispatch_oldest (readout := false) hf hq htl hp).trans (congrArg _ (runTensor_tmma hk ha hb hbad)), honly,
      ?_, heff.tq, heff.flg, fun k hne => ?_, heff.ls, heff.pc⟩
    · rw [heff.elems, Core.tile_setTile_same]
    · rw [heff.others k hne, Core.tile_setTile_ne _ _ hne]
  case trd =>
    intro tile opt dst pitch sdst seed base stride c' f hk hq hp hbad hw
    have htl : tileOf o.kind = some tile := by rw [hk]; rfl
    have hrows : OnlyLs (s.core n) c' := by
      have h := onlyLs_writeRows ((s.core n).tile tile) opt dst pitch sdst seed base stride (List.range 64) (s.core n) 0
      rwa [hw] at h
    obtain ⟨honly, heff⟩ := effectOf_setCore s n (readoutCore c' tile opt.clr) o f htl
    have helems := (heff.elems tile).trans (readoutCore_elems c' tile opt.clr)
    refine ⟨_, (dispatch_oldest (readout := true) hf hq htl hp).trans (congrArg _ (runTensor_trd hk hbad hw)), honly,
      heff.ls.trans (readoutCore_ls ..), ?_, ?_, fun hclr => ?_, fun hclr => ?_⟩
    · rw [heff.rq, readoutCore_rq, hrows.rq]
    · rw [State.thr, heff.flg, Core.thread, readoutCore_thr, hrows.thr]
      rfl
    · rw [helems, hclr, if_pos rfl]
    · rw [helems, hclr, if_neg Bool.false_ne_true, Core.tile, hrows.tiles]
      rfl

end Sys2Proof.Machine
end

section
/-! EXACT accumulation as a sum of what its products give on their own (R67-R69), for O19. -/

namespace Sys2Proof.Machine

/-- What a product gives on its own: a special bit, or its truncated multiple of the grid; and its flags. -/
def exactShare (anchor : Int) : Val → Elem × Flg
  | .nan => ({ nan := true }, fNV)
  | .inf false => ({ pinf := true }, 0)
  | .inf true => ({ ninf := true }, 0)
  | .fin neg m e =>
    let (t, inexact) := truncAt (anchor - 96) (.fin neg m e)
    ({ g := BitVec.ofInt 160 t }, if inexact then fTR else 0)

/-- Elements and flags gathered: sums modulo 2^160, special bits and flags kept. -/
def gatherExact (x y : Elem × Flg) : Elem × Flg :=
  ({ g := x.1.g + y.1.g, nan := x.1.nan || y.1.nan, pinf := x.1.pinf || y.1.pinf, ninf := x.1.ninf || y.1.ninf
     bad := x.1.bad || y.1.bad }, x.2 ||| y.2)

/-- A step of EXACT accumulation gathers the product's share. -/
theorem stepExact1_eq_gather (anchor : Int) (x : Elem × Flg) (p : Val) :
    stepExact1 anchor x p = gatherExact x (exactShare anchor p) := by
  cases p with
  | nan => simp [stepExact1, gatherExact, exactShare]
  | inf neg => cases neg <;> simp [stepExact1, gatherExact, exactShare]
  | fin neg m e => simp [stepExact1, gatherExact, exactShare]

theorem gatherExact_right_comm (x y z : Elem × Flg) :
    gatherExact (gatherExact x y) z = gatherExact (gatherExact x z) y := by
  simp only [gatherExact, Bool.or_right_comm, BitVec.or_assoc, BitVec.add_assoc, BitVec.or_comm y.2, BitVec.add_comm y.1.g]

/-- Settles O19: each product's share is gathered, and shares gather in any order. -/
theorem exactOrderFree : Obligations.ExactOrderFree := by
  intro anchor e f ps qs hperm
  refine hperm.foldl_eq' (fun p _ q _ x => ?_) (e, f)
  simp only [stepExact1_eq_gather]
  exact gatherExact_right_comm ..

end Sys2Proof.Machine
end

section
/-! An operation is counted (R82, R89), for O21. -/

namespace Sys2Proof.Machine

/-! ### What waking threads and settling releases leave -/

/-- Threads have gone on and releases have taken effect: no tally counter moved, and nothing but threads and tiles
differs. -/
structure Woken (c c' : Core) : Prop where
  rest : { c' with thr := c.thr, tiles := c.tiles } = c
  cnt : ∀ u, (c'.thread u).cnt = (c.thread u).cnt

theorem Woken.refl (c : Core) : Woken c c := ⟨rfl, fun _ => rfl⟩

theorem Woken.trans {c₁ c₂ c₃ : Core} (h : Woken c₁ c₂) (g : Woken c₂ c₃) : Woken c₁ c₃ where
  rest := by
    have h1 := h.rest; have g1 := g.rest
    calc { c₃ with thr := c₁.thr, tiles := c₁.tiles }
        = { ({ c₃ with thr := c₂.thr, tiles := c₂.tiles } : Core) with thr := c₁.thr, tiles := c₁.tiles } := rfl
      _ = c₁ := by rw [g1, h1]
  cnt := fun u => (g.cnt u).trans (h.cnt u)

theorem Woken.aops {c c' : Core} (h : Woken c c') : c'.aops = c.aops := (congrArg Core.aops h.rest :)
theorem Woken.ls {c c' : Core} (h : Woken c c') : c'.ls = c.ls := (congrArg Core.ls h.rest :)
theorem Woken.rc {c c' : Core} (h : Woken c c') (u j : Nat) : (c'.thread u).rc j = (c.thread u).rc j := by
  rw [Thread.rc, h.cnt, Thread.rc]

theorem Woken.foldl {f : Core → Nat → Core} (hf : ∀ c k, Woken c (f c k)) (ks : List Nat) (c : Core) :
    Woken c (ks.foldl f c) := by
  induction ks generalizing c with
  | nil => exact .refl c
  | cons k ks ih => exact (hf c k).trans (ih _)

@[simp] theorem unstallThread_cnt (x : Thread) : (unstallThread x).cnt = x.cnt := by
  unfold unstallThread
  split
  · rfl
  · split <;> rfl

theorem woken_unstall (c : Core) : Woken c (unstall c) where
  rest := by rw [unstall_eq]
  cnt := fun u => by rw [thread_unstall]; split <;> simp

theorem woken_setTile (c : Core) (k : Nat) (x : Tile) : Woken c (c.setTile k x) := ⟨rfl, fun _ => rfl⟩

theorem woken_settle (c : Core) (tl : Nat) : Woken c (settle c tl) := by
  rcases settle_cases c tl with h | h
  · rw [h]; exact .refl c
  · rw [h]; exact (woken_setTile ..).trans (woken_unstall _)

theorem woken_settleAll (c : Core) : Woken c (settleAll c) := .foldl woken_settle _ c

theorem woken_setThread {c : Core} {t : Nat} {x : Thread} (h : x.cnt = (c.thread t).cnt) : Woken c (c.setThread t x) where
  rest := rfl
  cnt := fun u => by
    rw [Core.thread_setThread]
    split
    · next e => rw [e, h]
    · rfl

theorem woken_wakeThread (pend : Nat → Nat → Bool) (c : Core) (t : Nat) : Woken c (wakeThread pend c t) := by
  unfold wakeThread
  dsimp only
  split
  · exact .refl c
  · split
    · split
      · exact woken_setThread rfl
      · exact .refl c
    · split
      · exact .refl c
      · exact woken_setThread rfl
    · split
      · exact .refl c
      · exact woken_setThread rfl
    · exact .refl c

theorem woken_wake (s : State) (n : Nat) : Woken (s.core n) ((wake s n).core n) := by
  rw [wake, State.core_modCore_same]
  exact (woken_unstall _).trans (.foldl (woken_wakeThread _) _ _)

/-! ### The count -/

/-- An operation has been counted: its counter is up by one, the other counters and local store are as before, and the
operation is in flight no longer. -/
structure Counted (c c' : Core) (o : AOp) : Prop where
  count : (c'.thread o.t).rc o.k = (c.thread o.t).rc o.k + 1
  counters : ∀ j, j % 8 ≠ o.k % 8 → (c'.thread o.t).rc j = (c.thread o.t).rc j
  threads : ∀ u j, u ≠ o.t → (c'.thread u).rc j = (c.thread u).rc j
  aops : c'.aops = c.aops.filter fun x => x.id ≠ o.id
  ls : c'.ls = c.ls

/-- An operation's removal. -/
theorem woken_dropOp (c : Core) (id : Nat) :
    Woken { c with
      aops := c.aops.filter fun o => o.id ≠ id, tq := c.tq.filter (· ≠ id), rq := c.rq.filter (· ≠ id) } (dropOp c id) :=
  woken_settleAll _

theorem counted_countOp (s : State) (n : Nat) (o : AOp) (f : Flg) : Counted (s.core n) ((countOp s n o f).core n) o := by
  have hdrop := woken_dropOp (s.core n) o.id
  have hwake := woken_wake (s.modCore n fun c => (dropOp c o.id).setThread o.t
    ((((dropOp c o.id).thread o.t).orFlg f).wc o.k ((((dropOp c o.id).thread o.t).orFlg f).rc o.k + 1))) n
  rw [State.core_modCore_same] at hwake
  refine ⟨?_, fun j hj => ?_, fun u j hu => ?_, hwake.aops.trans hdrop.aops, hwake.ls.trans hdrop.ls⟩
  · refine (hwake.rc ..).trans ?_
    rw [Core.thread_setThread_same, Thread.rc_wc_same]
    exact congrArg (· + 1) (hdrop.rc ..)
  · refine (hwake.rc ..).trans ?_
    rw [Core.thread_setThread_same, Thread.rc_wc, if_neg hj]
    exact hdrop.rc ..
  · refine (hwake.rc ..).trans ?_
    rw [Core.thread_setThread, if_neg hu]
    exact hdrop.rc ..

theorem onlyCore_countOp (s : State) (n : Nat) (o : AOp) (f : Flg) : OnlyCore s (countOp s n o f) n := by
  unfold countOp wake
  exact (onlyCore_modCore ..).trans (onlyCore_modCore ..)

/-- A count after a change of the operation's own core. -/
theorem counted_setCore (s : State) (n : Nat) (c : Core) (o : AOp) (f : Flg) :
    OnlyCore s (countOp (s.setCore n c) n o f) n ∧ Counted c ((countOp (s.setCore n c) n o f).core n) o := by
  refine ⟨(onlyCore_setCore ..).trans (onlyCore_countOp ..), ?_⟩
  have h := counted_countOp (s.setCore n c) n o f
  rwa [State.core_setCore_same] at h

theorem OnlyCore.mem {s s' : State} {n : Nat} (h : OnlyCore s s' n) : s'.mem = s.mem := (congrArg State.mem h.rest :)
theorem OnlyCore.gmem {s s' : State} {n : Nat} (h : OnlyCore s s' n) : s'.gmem = s.gmem := (congrArg State.gmem h.rest :)

/-- A note on an operation in flight changes no thread, and no operation but it. -/
theorem Counted.of_modOp {s : State} {n : Nat} {o : AOp} {f : AOp → AOp} {c' : Core} (hf : ∀ x, (f x).id = x.id)
    (h : Counted ((modOp s n o.id f).core n) c' o) : Counted (s.core n) c' o := by
  rw [modOp, State.core_modCore_same] at h
  refine ⟨h.count, h.counters, h.threads, h.aops.trans ?_, h.ls⟩
  induction (s.core n).aops with
  | nil => rfl
  | cons x xs ih =>
    by_cases hx : x.id = o.id
    · simpa [hx, hf] using ih
    · simpa [hx] using ih

end Sys2Proof.Machine
end

section
/-! A copy out of one line of device memory into local store (R99, R212), and an operation's end, for O21. -/

namespace Sys2Proof.Machine

/-! ### Reads of device memory return as many bytes as they ask for -/

theorem dramRead_length {s s' : State} {a n : Nat} {bs : List Byte} (h : dramRead s a n = (s', .ok bs)) : bs.length = n := by
  unfold dramRead at h
  dsimp only at h
  split at h <;> cases h
  exact Memory.length_readN ..

theorem lineBytes_length (s : State) (c : CLine) (a n : Nat) : (lineBytes s c a n).length = n := by
  unfold lineBytes
  split <;> exact Memory.length_readN ..

/-- Bytes of one line come from scratch, from the resident line or from the array. -/
theorem lineReadIf_length {al : Bool} {s s' : State} {a n : Nat} {bs : List Byte} (h : lineReadIf al s a n = (s', .ok bs)) :
    bs.length = n := by
  unfold lineReadIf at h
  split at h
  · repeat' split at h
    all_goals cases h
    exact Memory.length_readN ..
  · repeat' split at h
    all_goals cases h
    · exact lineBytes_length ..
    · next hread => exact dramRead_length hread
    · next hread => exact dramRead_length hread

theorem rangeRead_length {fuel : Nat} : ∀ {s s' : State} {a n : Nat} {bs : List Byte},
    (n ≠ 0 → a % 256 + n ≤ 256 * fuel) → rangeRead fuel s a n = (s', .ok bs) → bs.length = n := by
  induction fuel with
  | zero =>
    intro s s' a n bs hn h
    obtain rfl : n = 0 := by omega
    cases h
    rfl
  | succ fuel ih =>
    intro s s' a n bs hn h
    unfold rangeRead at h
    split at h
    · next h0 => cases h; exact h0.symm
    · dsimp only at h
      split at h
      · cases h
      · next hline =>
        split at h
        · cases h
        · next hrest =>
          cases h
          have hrestLength := ih (by omega) hrest
          rw [List.length_append, lineReadIf_length hline, hrestLength]
          omega

theorem memRead_length {s s' : State} {a n : Nat} {bs : List Byte} (h : memRead s a n = (s', .ok bs)) : bs.length = n :=
  rangeRead_length (by omega) h

/-! ### An access to one line -/

variable {s s1 s2 : State} {rq : Req} {acc dva len dpa : Nat} {bs : List Byte}

/-- An access within one line that no home holds is translated in one piece. -/
theorem xlateAll_line {t : Tgt} (hheld : ∀ h ∈ s.xlt.atHome, h.agent ≠ rq.agent) (hlen : 0 < len)
    (hline : dva % 256 + len ≤ 256) (hx : xlate s rq acc dva len = (s1, .ok t)) :
    xlateAll s rq acc dva len = (s1, .ok [(t, len)]) := by
  have hfind : s.xlt.atHome.find? (fun h => h.is rq.agent acc dva len) = none := by
    refine List.find?_eq_none.mpr fun h hh => ?_
    simp [XHeld.is, hheld h hh]
  have hpage : min len (2 ^ 26 - dva % 2 ^ 26) = len := by omega
  simp only [xlateAll, hfind, xlateRange, Nat.ne_of_gt hlen, hpage, hx, Nat.sub_self, ↓reduceIte]

/-- Translating an access leaves the host attachment as it was. -/
theorem xlate_host {t : Tgt} (h : xlate s rq acc dva len = (s1, .ok t)) : s1.host = s.host :=
  (congrArg State.host (onlyXltSys_xlate h) :)

/-- A read within one line of device memory, of an agent with no access under way. -/
theorem accessRead_line (hfresh : Fresh s rq.agent) (hlen : 0 < len) (hline : dva % 256 + len ≤ 256)
    (hx : xlate s rq acc dva len = (s1, .ok (.dev dpa))) (hm : memRead s1 dpa len = (s2, .ok bs)) :
    accessRead s rq acc dva len = .done (readsDone s2 rq.agent) bs [] := by
  have hreads : readsOf s1 rq.agent = [] := by
    rw [readsOf, xlate_host hx]
    exact hfresh.reads
  simp only [accessRead, xlateAll_line hfresh.held hlen hline hx, readAt, hreads, hostLinks, answers, readPieces, hm,
    List.filterMap_cons, List.filterMap_nil, List.isEmpty_nil, List.length_nil, List.range_zero, List.flatMap_nil,
    List.all_nil, List.append_nil, Bool.not_true, Bool.and_false, Bool.false_eq_true, ↓reduceIte]

/-- A chunk of one line into local store: its bytes arrive, and no check bit moves. -/
theorem oneIn_line {n l : Nat} (hfresh : Fresh s rq.agent) (hlen : 0 < len) (hline : dva % 256 + len ≤ 256)
    (hx : xlate s rq 0 dva len = (s1, .ok (.dev dpa))) (hm : memRead s1 dpa len = (s2, .ok bs))
    (hgood : badWord (s2.core n).lsBad l len = none) :
    ∃ b, oneIn n rq s l dva len = .moved ((readsDone s2 rq.agent).setCore n
      { s2.core n with ls := Memory.writeN (s2.core n).ls l bs, lsBad := b }) [] := by
  rw [← memRead_length hm] at hgood
  obtain ⟨b, hwrite, -⟩ := lsWrite_good hgood
  have hcore : (readsDone s2 rq.agent).core n = s2.core n := rfl
  exact ⟨b, by simp only [oneIn, accessRead_line hfresh hlen hline hx hm, accStep, hcore, hwrite]⟩

/-! ### A copy of one row within one line -/

theorem chunkAt_line (ls : Nat) (hline : dva % 256 + len ≤ 256) :
    chunkAt ls dva len 1 0 0 0 = some (ls, dva, len) := by
  have hmin : min len (256 - dva % 256) = len := by omega
  simp [chunkAt, hmin]

theorem chunkAt_end (ls : Nat) (hlen : 0 < len) : chunkAt ls dva len 1 0 0 len = none := by
  simp [chunkAt, Nat.div_self hlen]

/-- A copy of one row within one line ends with its only chunk. -/
theorem copyOp_line {n ls : Nat} {o : AOp} {one : State → Nat → Nat → Nat → Step1} {fin : State → List Nat → State}
    {links : List Nat} (hprog : o.prog = 0) (hlen : 0 < len) (hline : dva % 256 + len ≤ 256)
    (hone : one s ls dva len = .moved s1 links) :
    copyOp s n o ls dva len 1 0 0 one fin = fin s1 (addLinks o.links links) := by
  simp only [copyOp, hprog, Nat.one_mul, runCopy, chunkAt_line ls hline, hone, Nat.zero_add, chunkAt_end ls hlen]

/-! ### ASYNC_OPERATION_COMPLETE (R89) -/

variable {n : Nat} {o : AOp}

/-- An operation that its core runs again waits on no fault. -/
def resumed (x : AOp) : AOp := if x.stage = 2 then { x with stage := 0 } else x

@[simp] theorem resumed_id (x : AOp) : (resumed x).id = x.id := by
  unfold resumed
  split <;> rfl

/-- An operation in flight outside the tensor unit's queue runs. -/
theorem complete_runs (hf : (s.core n).aops.find? (fun x => x.id = o.id) = some o)
    (hq : (s.core n).tq.contains o.id = false) (hr : runOp s n o = some s1) :
    exec (.asyncOperationComplete n o.id []) s = .next s1 := by
  rw [exec_asyncOperationComplete, execAsyncOperationComplete]
  simp only [hf, hq, answerReads, List.isEmpty_nil, hr, Bool.false_eq_true, ↓reduceIte]

/-- A tensor operation that has taken effect is counted. -/
theorem runOp_effective (hstage : o.stage = 3) (htl : (tileOf o.kind).isSome = true)
    (himg : ∀ tile dva, o.kind ≠ .tsave tile dva ∧ o.kind ≠ .tload tile dva) :
    runOp s n o = some (countOp (modOp s n o.id resumed) n o 0) := by
  unfold runOp
  cases hk : o.kind with
  | tmma | trd | tlda => exact if_pos hstage
  | tsave tile dva => exact absurd hk (himg tile dva).1
  | tload tile dva => exact absurd hk (himg tile dva).2
  | _ => rw [hk] at htl; cases htl

theorem Fresh.modOp {a : Agent} (h : Fresh s a) (id : Nat) (f : AOp → AOp) : Fresh (modOp s n id f) a := ⟨h.held, h.reads⟩

/-- A copy out of one line of device memory moves its bytes and is counted. -/
theorem runOp_cpin_line {ls : Nat} (hk : o.kind = .cpin ls dva len 1 0 0) (hprog : o.prog = 0)
    (hlen : 0 < len) (hline : dva % 256 + len ≤ 256) (hfresh : Fresh s (.aop n o.id))
    (hx : xlate (modOp s n o.id resumed) (coreReq s n o.t (.aop n o.id)) 0 dva len = (s1, .ok (.dev dpa)))
    (hm : memRead s1 dpa len = (s2, .ok bs)) (hgood : badWord (s2.core n).lsBad ls len = none) :
    ∃ b, runOp s n o = some (countOp ((readsDone s2 (.aop n o.id)).setCore n
      { s2.core n with ls := Memory.writeN (s2.core n).ls ls bs, lsBad := b }) n o 0) := by
  obtain ⟨b, hone⟩ := oneIn_line (rq := coreReq s n o.t (.aop n o.id)) (hfresh.modOp o.id resumed) hlen hline hx hm hgood
  refine ⟨b, ?_⟩
  unfold runOp
  rw [hk]
  exact congrArg some (copyOp_line hprog hlen hline hone)

/-- Settles O21: an operation's count is `counted_countOp`; the copy's only chunk moves first. -/
theorem operationCounts : Obligations.OperationCounts := by
  refine ⟨fun n o s hf hstage htl himg hq _ => ?effective,
    fun n ls dva len dpa o bs s s1 s2 hf hk _ hprog hq _ hlen hline hfresh hx hm hgood => ?copy⟩
  case effective =>
    obtain ⟨hcount, hcounters, hthreads, haops, -⟩ :=
      Counted.of_modOp resumed_id (counted_countOp (modOp s n o.id resumed) n o 0)
    exact ⟨_, complete_runs hf hq (runOp_effective hstage htl himg),
      (onlyCore_modCore ..).trans (onlyCore_countOp ..), hcount, hcounters, hthreads, haops⟩
  case copy =>
    obtain ⟨b, hrun⟩ := runOp_cpin_line hk hprog hlen hline hfresh hx hm hgood
    obtain ⟨honly, hcounted⟩ := counted_setCore (readsDone s2 (.aop n o.id)) n
      { s2.core n with ls := Memory.writeN (s2.core n).ls ls bs, lsBad := b } o 0
    have hbytes := memRead_length hm
    refine ⟨_, complete_runs hf hq hrun, ?_, fun k hk => ?_, hcounted.count, honly.mem, honly.gmem⟩
    · rw [hcounted.ls, ← hbytes]
      exact Memory.readN_writeN ..
    · rw [hcounted.ls]
      exact Memory.read_writeN_out (by omega)

end Sys2Proof.Machine
end

section
/-! Instruction words read back (R92 to R104), for O28: the fields of a word are those it was put together from. -/

namespace Sys2Proof.Machine

/-! ### Fields of a word -/

/-- The number that `word` answers. -/
def wordOf (grp op pr x : Nat) : Nat := grp * 2 ^ 60 + op * 2 ^ 52 + pr * 2 ^ 48 + x

theorem bits_eq (v hi lo : Nat) : bits v hi lo = v / 2 ^ lo % 2 ^ (hi + 1 - lo) := by
  rw [bits, Nat.shiftRight_eq_div_pow]

variable {grp op pr x : Nat}

theorem wordOf_lt (hg : grp < 16) (ho : op < 256) (hp : pr < 8) (hx : x < 2 ^ 48) : wordOf grp op pr x < 2 ^ 64 := by
  unfold wordOf; omega

/-- The decoder of a group. -/
def decodeGroup (n t grp op w : Nat) : Option Instr :=
  match grp with
  | 0 => decodeScalar n t op w
  | 1 => decodeVector n t op w
  | 2 => decodeTensor n t op w
  | 3 => decodeMemory n t op w
  | 4 => decodeSync n t op w
  | 5 => decodeFabric n t op w
  | 7 => decodeMonitor n t op w
  | _ => none

theorem fPr_wordOf (hp : pr < 8) (hx : x < 2 ^ 48) : fPr (wordOf grp op pr x) = pr := by
  simp only [fPr, bits_eq, wordOf]; omega

theorem decodeCore_wordOf (n t : Nat) (hg : grp < 16) (ho : op < 256) (hp : pr < 8) (hx : x < 2 ^ 48) :
    decodeCore n t (wordOf grp op pr x) = decodeGroup n t grp op (wordOf grp op pr x) := by
  have h51 : bit (wordOf grp op pr x) 51 = false := by
    rw [bit, Nat.testBit_eq_decide_div_mod_eq, decide_eq_false_iff_not, wordOf]; omega
  have hgrp : bits (wordOf grp op pr x) 63 60 = grp := by rw [bits_eq, wordOf]; omega
  have hop : bits (wordOf grp op pr x) 59 52 = op := by rw [bits_eq, wordOf]; omega
  rw [decodeCore, h51, hgrp, hop]
  rfl

/-! ### Operands (R93, R96) -/

theorem bit_eq (v i : Nat) : bit v i = decide (v / 2 ^ i % 2 = 1) := Nat.testBit_eq_decide_div_mod_eq

theorem b2n_lt (b : Bool) : b2n b < 2 := by cases b <;> decide

theorem b2n_eq_one (b : Bool) : decide (b2n b = 1) = b := by cases b <;> rfl

theorem sfield_lt (w : Nat) (x : Int) : sfield w x < 2 ^ w := by
  have hw : (0 : Int) < (2 ^ w : Nat) := by positivity
  have hlt := Int.emod_lt_of_pos x hw
  have hnn := Int.emod_nonneg x hw.ne'
  rw [sfield]
  omega

/-- A signed field reads back sign-extended. -/
theorem sext_of_field {k y : Nat} {x : Int} (hk : 0 < k) (hx : fitsS k x = true) (hy : y % 2 ^ k = sfield k x) :
    sext k y = x := by
  obtain ⟨m, rfl⟩ : ∃ m, k = m + 1 := ⟨k - 1, by omega⟩
  simp only [sext, hy]
  simp only [fitsS, Nat.add_sub_cancel, decide_eq_true_eq, sfield, Nat.pow_succ] at hx ⊢
  generalize 2 ^ m = p at hx ⊢
  rcases Int.lt_or_le x 0 with h | h
  · have : x % ((p * 2 : Nat) : Int) = x + (p * 2 : Nat) := by
      rw [← Int.add_emod_right, Int.emod_eq_of_lt (by omega) (by omega)]
    rw [this]
    split <;> omega
  · rw [Int.emod_eq_of_lt h (by omega)]
    split <;> omega

theorem cvtX_lt {o : CvtOpt} (ht : o.tgt < 64) (hs : o.src < 64) (hr : o.rm < 8) (hk : o.k < 64) : cvtX o < 2 ^ 22 := by
  have := b2n_lt o.sat
  unfold cvtX; omega

theorem cvtOf_cvtX {o : CvtOpt} (ht : o.tgt < 64) (hs : o.src < 64) (hr : o.rm < 8) (hk : o.k < 64) :
    cvtOf (cvtX o) = o := by
  obtain ⟨tgt, src, rm, sat, k⟩ := o
  have hsat := b2n_lt sat
  have hbit : cvtX ⟨tgt, src, rm, sat, k⟩ / 2 ^ 15 % 2 = b2n sat := by simp only [cvtX] at *; omega
  simp only [cvtOf, bits_eq, bit_eq, hbit, b2n_eq_one, CvtOpt.mk.injEq, cvtX, true_and] at *
  omega

/-! ### The instructions -/

variable {n t w : Nat} {i : Instr}

/-- A word whose group's decoder gives the instruction back, whatever it reads beyond the operand bits and the predicate. -/
theorem decodes_of (hw : word grp op pr x = some w)
    (hi : ∀ y, fPr y = pr → y % 2 ^ 48 = x → decodeGroup n t grp op y = some i)
    (hx : x < 2 ^ 48 := by omega) (hp : pr < 8 := by omega) (hg : grp < 16 := by omega) (ho : op < 256 := by omega) :
    w < 2 ^ 64 ∧ decodeCore n t w = some i := by
  obtain rfl : wordOf grp op pr x = w := Option.some.inj hw
  refine ⟨wordOf_lt hg ho hp hx, (decodeCore_wordOf n t hg ho hp hx).trans (hi _ (fPr_wordOf hp hx) ?_)⟩
  unfold wordOf; omega

/-- The same of layout R. -/
theorem decodes_of_opR {d a b c : Nat} (hw : word grp op pr (opR d a b c x) = some w)
    (hi : ∀ y, fPr y = pr → fD y = d → fA y = a → fB y = b → fC y = c → fX y = x → decodeGroup n t grp op y = some i)
    (hd : d < 64 := by omega) (ha : a < 64 := by omega) (hb : b < 64 := by omega) (hc : c < 64 := by omega)
    (hx : x < 2 ^ 24 := by omega) (hp : pr < 8 := by omega) (hg : grp < 16 := by omega) (ho : op < 256 := by omega) :
    w < 2 ^ 64 ∧ decodeCore n t w = some i := by
  refine decodes_of hw (fun y hp hy => hi y hp ?_ ?_ ?_ ?_ ?_) (by unfold opR; omega)
  all_goals simp only [fD, fA, fB, fC, fX, bits_eq, opR] at hy ⊢; omega

/-- The same of layout I. -/
theorem decodes_of_opI {d a : Nat} {imm : Int} (hw : word grp op pr (opI d a imm) = some w) (hs : fitsS 36 imm = true)
    (hi : ∀ y, fPr y = pr → fD y = d → fA y = a → fImm y = imm → decodeGroup n t grp op y = some i)
    (hd : d < 64 := by omega) (ha : a < 64 := by omega) (hp : pr < 8 := by omega) (hg : grp < 16 := by omega)
    (ho : op < 256 := by omega) : w < 2 ^ 64 ∧ decodeCore n t w = some i := by
  have hlt := sfield_lt 36 imm
  refine decodes_of hw (fun y hp hy => hi y hp ?_ ?_ ?_) (by unfold opI; omega)
  · simp only [fD, bits_eq, opI] at hy ⊢; omega
  · simp only [fA, bits_eq, opI] at hy ⊢; omega
  · exact sext_of_field (by omega) hs (by simp only [opI] at hy; omega)

/-- Every vector instruction's word decodes to it (R95, R96). -/
theorem decodes_vector (hi : vectorOf i = some (n, t, pr)) (hwf : i.wf = true) (hw : encodeCore i = some w) :
    w < 2 ^ 64 ∧ decodeCore n t w = some i := by
  cases i <;> cases hi
  all_goals
    simp only [Instr.wf, issuer, below, List.all_cons, List.all_nil, Bool.and_eq_true, decide_eq_true_eq, and_true] at hwf
  case vaddf | vsubf | vmulf | vfma | vmaxf | vminf | vaddi | vsubi | vmuli | vand | vor | vxor | vshl | vshr | vsar |
      vsel | vbcast | vperm | vsumf =>
    refine decodes_of_opR hw fun y hp hd ha hb hc hx => ?_
    simp [decodeGroup, decodeVector, ok?, hp, hd, ha, hb, hc, hx, hwf, bit_eq]
  case vcmp cmp fp =>
    have hfp := b2n_lt fp
    refine decodes_of_opR hw fun y hp hd ha hb hc hx => ?_
    have hbit : (cmp + 8 * b2n fp) / 2 ^ 3 % 2 = b2n fp := by omega
    simp only [decodeGroup, decodeVector, ok?, hp, hd, ha, hb, hx, hwf, bit_eq, hbit, b2n_eq_one, decide_true,
      Bool.and_self, if_true, Option.some.injEq, Instr.vcmp.injEq, true_and, and_true]
    omega
  case vcvt o | vqmx o | vq4 o =>
    have ho : cvtX o < 2 ^ 22 := cvtX_lt (by omega) (by omega) (by omega) (by omega)
    refine decodes_of_opR hw fun y hp hd ha hb hc hx => ?_
    simp [decodeGroup, decodeVector, ok?, hp, hd, ha, hx, hwf, cvtOf_cvtX]
    omega

/-! ### The tensor group's own layouts (R97) -/

theorem decodes_tmma {tile fa fb a b sc c : Nat} (hwf : (Instr.tmma n t pr tile fa fb a b sc c).wf = true)
    (hw : encodeCore (.tmma n t pr tile fa fb a b sc c) = some w) :
    w < 2 ^ 64 ∧ decodeCore n t w = some (.tmma n t pr tile fa fb a b sc c) := by
  simp only [Instr.wf, issuer, below, List.all_cons, List.all_nil, Bool.and_eq_true, decide_eq_true_eq, and_true] at hwf
  refine decodes_of hw fun y hp hy => ?_
  simp only [decodeGroup, decodeTensor, ok?, bits_eq, hp, beq_iff_eq, Option.ite_none_right_eq_some, Option.some.injEq,
    Instr.tmma.injEq, true_and]
  omega

theorem decodes_tzero {tile : Nat} {ex : Bool} {anchor : Int} (hwf : (Instr.tzero n t pr tile ex anchor).wf = true)
    (hw : encodeCore (.tzero n t pr tile ex anchor) = some w) :
    w < 2 ^ 64 ∧ decodeCore n t w = some (.tzero n t pr tile ex anchor) := by
  simp only [Instr.wf, issuer, below, List.all_cons, List.all_nil, Bool.and_eq_true, decide_eq_true_eq, and_true] at hwf
  have hlt := sfield_lt 10 anchor
  have hex := b2n_lt ex
  refine decodes_of hw fun y hp hy => ?_
  have hbit : y / 2 ^ 45 % 2 = b2n ex := by omega
  have hsext : sext 10 (y / 2 ^ 35) = anchor := sext_of_field (by omega) hwf.2 (by omega)
  simp only [decodeGroup, decodeTensor, ok?, bits_eq, bit_eq, hp, hbit, hsext, b2n_eq_one, beq_iff_eq,
    Option.ite_none_right_eq_some, Option.some.injEq, Instr.tzero.injEq, true_and, and_true]
  omega

theorem decodes_trd {tile d x c : Nat} {o : TrdOpt} (hwf : (Instr.trd n t pr tile o d x c).wf = true)
    (hw : encodeCore (.trd n t pr tile o d x c) = some w) :
    w < 2 ^ 64 ∧ decodeCore n t w = some (.trd n t pr tile o d x c) := by
  obtain ⟨fmt, rm, sat, clr, rel⟩ := o
  simp only [Instr.wf, issuer, below, List.all_cons, List.all_nil, Bool.and_eq_true, decide_eq_true_eq, and_true] at hwf
  have h1 := b2n_lt sat
  have h2 := b2n_lt clr
  have h3 := b2n_lt rel
  refine decodes_of hw (fun y hp hy => ?_) (by dsimp only; omega)
  dsimp only at hy
  have hsat : y / 2 ^ 36 % 2 = b2n sat := by omega
  have hclr : y / 2 ^ 35 % 2 = b2n clr := by omega
  have hrel : y / 2 ^ 34 % 2 = b2n rel := by omega
  simp only [decodeGroup, decodeTensor, ok?, bits_eq, bit_eq, hp, hsat, hclr, hrel, b2n_eq_one, beq_iff_eq,
    Option.ite_none_right_eq_some, Option.some.injEq, Instr.trd.injEq, TrdOpt.mk.injEq, true_and, and_true]
  omega

/-- Every other instruction's word decodes to it (R93, R97 to R104). -/
theorem decodes_pred (hi : predOf i = some (n, t, pr)) (hwf : i.wf = true) (hw : encodeCore i = some w) :
    w < 2 ^ 64 ∧ decodeCore n t w = some i := by
  cases i <;> cases hi
  case tmma => exact decodes_tmma hwf hw
  case tzero => exact decodes_tzero hwf hw
  case trd => exact decodes_trd hwf hw
  all_goals
    simp only [Instr.wf, issuer, below, List.all_cons, List.all_nil, Bool.and_eq_true, decide_eq_true_eq, and_true] at hwf
  case add | sub | mul | mulhu | mulhs | and | or | xor | shl | shr | sar | cmpeq | cmplt | cmpltu | pand | por | pnot | jr |
      rdflg | rdid | rdmer =>
    refine decodes_of_opR hw fun y hp hd ha hb hc hx => ?_
    simp [decodeGroup, decodeScalar, ok?, hp, hd, ha, hb, hx, hwf]
  case addi | li | br | brl =>
    refine decodes_of_opI hw hwf.2 fun y hp hd ha himm => ?_
    simp [decodeGroup, decodeScalar, ok?, hp, hd, ha, himm]
  case nopInstr | lih | clrflg =>
    refine decodes_of hw fun y hp hy => ?_
    simp [decodeGroup, decodeScalar, ok?, fD, fA, fX, bits_eq, hp]
    omega
  case vext =>
    refine decodes_of_opR hw fun y hp hd ha hb hc hx => ?_
    simp [decodeGroup, decodeVector, ok?, hp, hd, ha, hx, hwf]
  case tlda | trel | tsave | tload =>
    refine decodes_of hw fun y hp hy => ?_
    simp [decodeGroup, decodeTensor, ok?, zeroAt, bits_eq, hp]
    omega
  case ldv | stv | pref =>
    refine decodes_of_opR hw fun y hp hd ha hb hc hx => ?_
    simp [decodeGroup, decodeMemory, ok?, zeroAt, hp, hd, ha, hb, hx, hwf, bits_eq]
  case lds | sts | ldg | stg | cpin | cpout | cpin2 | cpout2 | ldqb | atom =>
    refine decodes_of_opR hw fun y hp hd ha hb hc hx => ?_
    simp [decodeGroup, decodeMemory, ok?, zeroAt, hp, hd, ha, hb, hc, hx, bits_eq]
    omega
  case twait =>
    refine decodes_of_opI hw hwf.2 fun y hp hd ha himm => ?_
    simp [decodeGroup, decodeSync, ok?, hp, hd, ha, himm, hwf]
  case twaitr | tset | tget =>
    refine decodes_of_opR hw fun y hp hd ha hb hc hx => ?_
    simp [decodeGroup, decodeSync, ok?, hp, hd, ha, hwf]
  case bell | waitg =>
    refine decodes_of_opR hw fun y hp hd ha hb hc hx => ?_
    simp [decodeGroup, decodeSync, hp, ha, hb, hx]
    omega
  case bar mask =>
    refine decodes_of hw fun y hp hy => ?_
    have hmask : BitVec.ofNat 16 y = mask := BitVec.eq_of_toNat_eq (by rw [BitVec.toNat_ofNat]; omega)
    simp [decodeGroup, decodeSync, ok?, bits_eq, hp, hmask]
    omega
  case yield | exit => exact decodes_of hw fun y hp hy => by simp [decodeGroup, decodeSync, hp]
  case fence | ecall =>
    refine decodes_of hw fun y hp hy => ?_
    simp [decodeGroup, decodeSync, fX, bits_eq, hp]
    omega
  case rput | rget | ratom | mred | xsend =>
    refine decodes_of_opR hw fun y hp hd ha hb hc hx => ?_
    simp [decodeGroup, decodeFabric, ok?, hp, ha, hb, hc, hx, bits_eq]
    omega
  case xrecv | thctlStart | thctlHold | thctlResume | thctlStop | waitev =>
    refine decodes_of_opR hw fun y hp hd ha hb hc hx => ?_
    simp [decodeGroup, decodeFabric, decodeMonitor, ok?, hp, hd, ha, hb, hc, hx]
  case thrd | thwr | csrr | csrw | ifetch =>
    refine decodes_of_opR hw fun y hp hd ha hb hc hx => ?_
    simp [decodeGroup, decodeMonitor, hp, hd, ha, hb, hc, hx]
    omega

theorem encodeCore_isSome (hi : (predOf i).isSome = true ∨ (vectorOf i).isSome = true) : (encodeCore i).isSome = true := by
  cases i
  all_goals rcases hi with hi | hi <;> cases hi <;> rfl

/-- Settles O28: an instruction's word is put together from its operands by its layout, and each field reads back
(`decodes_of_opR`, `decodes_of_opI`, `decodes_of`). -/
theorem encodeDecode : Obligations.EncodeDecode :=
  ⟨fun _ _ _ _ _ hi hwf hw => hi.elim (decodes_pred · hwf hw) (decodes_vector · hwf hw), fun _ => encodeCore_isSome⟩

/-- Settles O29: the words are closed, so the decoder computes on them whatever the core and the thread. -/
theorem decodedWords : Obligations.DecodedWords := fun _ _ =>
  ⟨rfl, rfl, rfl, rfl, rfl, rfl, rfl, rfl, rfl, rfl, rfl, rfl, rfl⟩

end Sys2Proof.Machine
end

section
/-! The scalar group (R81 to R83, R90, R93, R401), for O4, O5 and O6: an instruction's effect on its own thread is one
register, and the thread goes on. -/

namespace Sys2Proof.Machine

variable {s : State} {n t pr d : Nat} {i : Instr} {v : Word}

/-! ### A register takes a value -/

theorem retire_rp (x : Thread) (j : Nat) : (retire x).rp j = x.rp j := rfl

/-- What a value written to scalar register `d` and the retirement leave. -/
theorem scalarSet_retire (x : Thread) (d : Nat) (v : Word) : ScalarSet x (retire (x.ws d v)) d v where
  dest := Thread.rs_ws_same ..
  s := fun _ hj => (Thread.rs_ws ..).trans (if_neg hj)
  v := fun _ => rfl
  p := fun _ => rfl
  c := fun _ => rfl
  flg := rfl

/-- The same of a predicate register. -/
theorem predSet_retire (x : Thread) (d : Nat) (v : Word) : PredSet x (retire (x.wp d v)) d v where
  dest := (Thread.rp_wp ..).trans (by simp)
  p := fun j hj => by
    rw [retire_rp, Thread.rp_wp, if_neg hj]
    split
    · next h => exact (Thread.rp_zero x j h).symm
    · rfl
  s := fun j => Thread.wp_rs x d j v
  v := fun j => Thread.wp_rv x d j v
  c := fun j => Thread.wp_rc x d j v
  flg := Thread.wp_flg ..

theorem sameRegs_of {x x' : Thread} (hs : x'.s = x.s) (hv : x'.v = x.v) (hp : x'.p = x.p) (hc : x'.cnt = x.cnt)
    (hf : x'.flg = x.flg) : SameRegs x x' where
  s := fun j => by rw [Thread.rs, hs, Thread.rs]
  v := fun j => by rw [Thread.rv, hv, Thread.rv]
  p := fun j => by rw [Thread.rp, hp, Thread.rp]
  c := fun j => by rw [Thread.rc, hc, Thread.rc]
  flg := hf

theorem sameRegs_refl (x : Thread) : SameRegs x x := sameRegs_of rfl rfl rfl rfl rfl

theorem sameRegs_retire (x : Thread) : SameRegs x (retire x) := sameRegs_of rfl rfl rfl rfl rfl

/-- An instruction that writes `v` to scalar register `d` does so and no more. -/
theorem scalarGives {f : Thread → Word} (hi : MayIssue s n t pr)
    (hx : exec i s = coreStep n t pr false (fun _ => []) (pure_ n t fun x => x.ws d (f x)) s)
    (hv : f (s.thr n t) = v) : ThreadGives s n t i fun x x' => ScalarSet x x' d v :=
  threadGives_of_pure hi.runs hi.next hx clear_nil rfl rfl (hv ▸ scalarSet_retire ..)

/-- The same of a predicate register. -/
theorem predGives {f : Thread → Word} (hi : MayIssue s n t pr)
    (hx : exec i s = coreStep n t pr false (fun _ => []) (pure_ n t fun x => x.wp d (f x)) s)
    (hv : f (s.thr n t) = v) : ThreadGives s n t i fun x x' => PredSet x x' d v :=
  threadGives_of_pure hi.runs hi.next hx clear_nil (Thread.wp_pc ..) (Thread.wp_holdReq ..) (hv ▸ predSet_retire ..)

/-! ### Scalar results -/

/-- A read of an FB's Meridian records itself and takes a free value. -/
theorem readMer_frame (s : State) (fb : Nat) :
    { (readMer s fb).1 with mer := s.mer, free := s.free } = s ∧
    { (readMer s fb).1.mer with last := s.mer.last } = s.mer ∧ (readMer s fb).1.free = s.free + 1 ∧
    ∀ f, f ≠ fb → tget 0 (readMer s fb).1.mer.last f = tget 0 s.mer.last f :=
  ⟨rfl, rfl, rfl, fun _ h => tget_tset_ne _ _ _ h⟩

theorem rdmer_gives (hi : MayIssue s n t pr) :
    Gives (.rdmer n t pr d) s fun s' =>
      Retired (s.thr n t) (s'.thr n t) ∧ ScalarSet (s.thr n t) (s'.thr n t) d ((s'.thr n t).rs d) ∧
      tget 0 s.mer.last (coreFb n) ≤ (s'.thr n t).rs d ∧ tget 0 s'.mer.last (coreFb n) = (s'.thr n t).rs d ∧
      (∀ f, f ≠ coreFb n → tget 0 s'.mer.last f = tget 0 s.mer.last f) ∧
      { s' with cores := s.cores, mer := s.mer, free := s.free } = s ∧
      { s'.mer with last := s.mer.last } = s.mer ∧ s'.free = s.free + 1 := by
  have hset := scalarSet_retire (s.thr n t) d (readMer s (coreFb n)).2
  obtain ⟨hge, hlast⟩ := readMer_mono s (coreFb n)
  obtain ⟨-, hmer, hfree, hother⟩ := readMer_frame s (coreFb n)
  rw [← hset.dest] at hge hlast
  refine ⟨((readMer s (coreFb n)).1.modThr n t fun x => x.ws d (readMer s (coreFb n)).2).modThr n t retire,
    (exec_rdmer ..).trans (coreStep_done hi.runs hi.next (firstCheck_clear clear_nil) rfl), ?_⟩
  beta_reduce
  rw [State.modThr_modThr]
  exact ⟨⟨rfl, rfl, rfl⟩, hset.dest.symm ▸ hset, hge, hlast, hother, rfl, hmer, hfree⟩

/-- Settles O4: each form writes the value of its row (`scalarGives`). -/
theorem scalarResults : Obligations.ScalarResults := by
  refine ⟨fun n t pr d a b s hi => ?_, fun n t pr d s hi => rdmer_gives hi⟩
  exact ⟨scalarGives hi (exec_add ..) rfl, scalarGives hi (exec_sub ..) rfl, scalarGives hi (exec_mul ..) rfl,
    scalarGives hi (exec_mulhu ..) rfl, scalarGives hi (exec_mulhs ..) rfl, scalarGives hi (exec_and ..) rfl,
    scalarGives hi (exec_or ..) rfl, scalarGives hi (exec_xor ..) rfl, scalarGives hi (exec_shl ..) rfl, scalarGives hi (exec_shr ..) rfl,
    scalarGives hi (exec_sar ..) rfl, scalarGives hi (exec_rdflg ..) rfl, scalarGives hi (exec_rdid ..) rfl,
    scalarGives hi (exec_tget ..) rfl, fun _ => scalarGives hi (exec_addi ..) rfl, fun _ => scalarGives hi (exec_li ..) rfl,
    fun _ => scalarGives hi (exec_lih ..) rfl, fun _ => scalarGives hi (exec_vext ..) rfl⟩

/-! ### Predicates -/

/-- Every instruction outside the vector group runs in the frame of a core instruction. -/
theorem exec_of_predOf (hi : predOf i = some (n, t, pr)) (s : State) :
    ∃ checks eff, exec i s = coreStep n t pr false checks eff s := by
  cases i <;> cases hi
  all_goals
    dsimp only [exec, execAdd, execSub, execMul, execMulhu, execMulhs, execAnd, execOr, execXor, execShl, execShr, execSar,
      execCmpeq, execCmplt, execCmpltu, execWaitg]
    exact ⟨_, _, rfl⟩

/-- An instruction outside the vector group whose predicate's bit 0 is 0 retires without effect (R81). -/
theorem threadGives_off (hp : predOf i = some (n, t, pr)) (hr : (s.thr n t).st = .ready) (hd : (s.thr n t).dfr = none)
    (hoff : ((s.thr n t).rp pr).getLsbD 0 = false) : ThreadGives s n t i SameRegs := by
  obtain ⟨checks, eff, hx⟩ := exec_of_predOf hp s
  refine ⟨_, hx.trans (coreStep_off hr hd hoff), onlyThread_modThr .., ?_, ?_⟩ <;> rw [State.thr_modThr_same]
  · exact ⟨rfl, rfl, rfl⟩
  · exact sameRegs_retire _

/-- Settles O5: each form writes its predicate (`predGives`); an instruction that is off retires in its frame
(`threadGives_off`). -/
theorem predicateResults : Obligations.PredicateResults := by
  refine ⟨fun n t pr d a b s hi => ?_, fun x v => ⟨rfl, rfl⟩, fun _ _ _ _ _ => threadGives_off⟩
  exact ⟨predGives hi (exec_cmpeq ..) (by simp), predGives hi (exec_cmplt ..) (by simp),
    predGives hi (exec_cmpltu ..) (by simp), predGives hi (exec_pand ..) rfl, predGives hi (exec_por ..) rfl,
    predGives hi (exec_pnot ..) rfl⟩

/-! ### Branches -/

theorem OnlyThread.refl (s : State) (n t : Nat) : OnlyThread s s n t := ⟨rfl, fun _ _ => rfl, rfl, fun _ _ => rfl⟩

/-- An instruction that jumps: its thread alone differs, goes on at `pc` unless the monitor asked to hold it, and is `p`. -/
def GoesTo (s : State) (n t : Nat) (i : Instr) (pc : BitVec 16) (p : Thread → Prop) : Prop :=
  Gives i s fun s' => OnlyThread s s' n t ∧ (s'.thr n t).pc = pc ∧
    (s'.thr n t).st = (if (s.thr n t).holdReq then .held else .ready) ∧ p (s'.thr n t)

/-- A branch that its thread may take goes to its target, whatever it does to its thread before (R83). -/
theorem goesTo_of_jump {checks : State → List Check} {eff : State → Res} {s₁ : State} {target : Int} {p : Thread → Prop}
    (hr : Runs s n t pr false) (hx : exec i s = coreStep n t pr false checks eff s) (hc : Clear (checks s))
    (he : eff s = .jump s₁ target) (ht : pcOk t target = true) (h₁ : OnlyThread s s₁ n t)
    (hhold : (s₁.thr n t).holdReq = (s.thr n t).holdReq)
    (hp : p { retire (s₁.thr n t) with pc := BitVec.ofInt 16 target }) : GoesTo s n t i (BitVec.ofInt 16 target) p := by
  refine ⟨_, hx.trans (coreStep_jump hr ht (firstCheck_clear hc) he), h₁.trans (onlyThread_modThr ..), ?_⟩
  rw [State.thr_modThr_same, ← hhold]
  exact ⟨rfl, rfl, hp⟩

theorem br_goesTo {imm : Int} (hr : Runs s n t pr false) (ht : pcOk t ((s.thr n t).pc.toNat + 8 * imm) = true) :
    GoesTo s n t (.br n t pr imm) (BitVec.ofInt 16 ((s.thr n t).pc.toNat + 8 * imm)) (SameRegs (s.thr n t)) :=
  goesTo_of_jump hr (exec_br ..) clear_nil rfl ht (.refl ..) rfl (sameRegs_of rfl rfl rfl rfl rfl)

theorem brl_goesTo {imm : Int} (hr : Runs s n t pr false) (ht : pcOk t ((s.thr n t).pc.toNat + 8 * imm) = true) :
    GoesTo s n t (.brl n t pr d imm) (BitVec.ofInt 16 ((s.thr n t).pc.toNat + 8 * imm))
      fun x' => ScalarSet (s.thr n t) x' d (BitVec.ofNat 64 ((s.thr n t).pc.toNat + 8)) := by
  refine goesTo_of_jump hr (exec_brl ..) clear_nil rfl ht (onlyThread_modThr ..) ?_ ?_ <;> rw [State.thr_modThr_same]
  · rfl
  · obtain ⟨hdest, hs, hv, hp, hc, hflg⟩ := scalarSet_retire (s.thr n t) d (BitVec.ofNat 64 ((s.thr n t).pc.toNat + 8))
    exact ⟨hdest, hs, hv, hp, hc, hflg⟩

theorem jr_goesTo {a : Nat} (hr : Runs s n t pr false) (ha : ((s.thr n t).rs a).toNat % 8 = 0)
    (ht : pcOk t (((s.thr n t).rs a).toNat % 2 ^ 16 : Nat) = true) :
    GoesTo s n t (.jr n t pr a) (((s.thr n t).rs a).setWidth 16) (SameRegs (s.thr n t)) := by
  have hpc : ((s.thr n t).rs a).setWidth 16 = BitVec.ofInt 16 (((s.thr n t).rs a).toNat % 2 ^ 16 : Nat) := by
    rw [BitVec.ofInt_natCast]
    apply BitVec.eq_of_toNat_eq
    simp
  rw [hpc]
  exact goesTo_of_jump hr (exec_jr ..) (by simp [ha]) rfl ht (.refl ..) rfl (sameRegs_of rfl rfl rfl rfl rfl)

theorem tset_gives {c a : Nat} (hi : MayIssue s n t pr) :
    ThreadGives s n t (.tset n t pr c a) fun x x' =>
      x'.rc c = ((s.thr n t).rs a).setWidth 32 ∧ (∀ j, j % 8 ≠ c % 8 → x'.rc j = x.rc j) ∧ SameSV x x' ∧
      (∀ j, x'.rp j = x.rp j) ∧ x'.flg = x.flg :=
  threadGives_of_pure hi.runs hi.next (exec_tset ..) clear_nil rfl rfl
    ⟨Thread.rc_wc_same .., fun _ hj => (Thread.rc_wc ..).trans (if_neg hj), ⟨fun _ => rfl, fun _ => rfl⟩, fun _ => rfl, rfl⟩

/-- Settles O6: a branch goes to its target (`goesTo_of_jump`); the plain instructions change their thread alone. -/
theorem branchesAndPlain : Obligations.BranchesAndPlain := by
  refine ⟨fun n t pr d a imm s hst hd hp => ?_, fun n t pr c a s hi => ⟨?nop, ?yield, fun f => ?clrflg, tset_gives hi⟩⟩
  · have hr : Runs s n t pr false := ⟨hst, hd, .inr hp⟩
    exact ⟨br_goesTo hr, brl_goesTo hr, jr_goesTo hr⟩
  case nop => exact threadGives_of_pure hi.runs hi.next (exec_nopInstr ..) clear_nil rfl rfl (sameRegs_retire _)
  case yield =>
    exact threadGives_of_pure hi.runs hi.next (exec_yield ..) clear_nil rfl rfl
      ⟨sameRegs_of rfl rfl rfl rfl rfl, rfl⟩
  case clrflg =>
    exact threadGives_of_pure hi.runs hi.next (exec_clrflg ..) clear_nil rfl rfl
      ⟨rfl, ⟨fun _ => rfl, fun _ => rfl⟩, fun _ => rfl, fun _ => rfl⟩

end Sys2Proof.Machine
end

section
/-! Faults of threads (R104 to R107), for O7 and O8: what the entry into FAULTED leaves, and which check of an instruction
is reported first. -/

namespace Sys2Proof.Machine

variable {s : State} {n t pr cause status : Nat} {i : Instr}

/-! ### What a fault leaves -/

/-- Only the host attachment may differ. -/
theorem noteLaunch_frame (s : State) (n : Nat) (f : LFault) : { noteLaunch s n f with host := s.host } = s := by
  unfold noteLaunch
  split <;> rfl

theorem noteLaunch_core (s : State) (n : Nat) (f : LFault) (m : Nat) : (noteLaunch s n f).core m = s.core m :=
  (congrArg (State.core · m) (noteLaunch_frame s n f) :)

/-- An event for the monitor changes its core alone, and of its threads thread 0 at most. -/
theorem pushEvent_frame (s : State) (n e : Nat) :
    OnlyCore s (pushEvent s n e) n ∧ ∀ u, u ≠ 0 → (pushEvent s n e).thr n u = s.thr n u := by
  unfold pushEvent
  dsimp only
  split
  · exact ⟨onlyCore_setCore .., fun u hu => by rw [State.thr_setThr, if_neg fun h => hu h.2]⟩
  · refine ⟨onlyCore_modCore .., fun u _ => ?_⟩
    unfold State.thr
    rw [State.core_modCore_same]
    rfl

/-- The thread with its fault record. -/
def faultedThread (x : Thread) (cause status issue stop : Nat) (deferred : Bool) (addr : Word) : Thread :=
  { x with
    st := .faulted, wait := .nothing, blk := none, fStatus := status, fCause := cause, fDeferred := deferred,
    fIssue := issue, fStop := stop, faddr := addr }

/-- A kernel thread's fault, its context going on. -/
structure FaultLeaves (s s' : State) (n t : Nat) (x' : Thread) : Prop where
  thread : s'.thr n t = x'
  rest : { s' with cores := s.cores, host := s.host } = s
  cores : ∀ m, m ≠ n → s'.core m = s.core m
  threads : ∀ u, 0 < u → u ≠ t → s'.thr n u = s.thr n u

theorem enterFault_leaves (issue stop : Nat) (deferred : Bool) (addr : Word) (ht : 0 < t) (hs : status ≠ 0x0401) :
    FaultLeaves s (enterFault s n t cause status issue stop deferred addr) n t
      (faultedThread (s.thr n t) cause status issue stop deferred addr) := by
  have ht0 : t ≠ 0 := by omega
  have he : enterFault s n t cause status issue stop deferred addr =
      pushEvent (noteLaunch (s.setThr n t (faultedThread (s.thr n t) cause status issue stop deferred addr)) n
        ⟨n, t, cause, status, issue, addr.toNat, t = 0⟩) n t := by
    simp only [enterFault, hs, false_and, if_false, if_neg ht0]
    rfl
  generalize hf : (⟨n, t, cause, status, issue, addr.toNat, t = 0⟩ : LFault) = f at he
  generalize hy : faultedThread (s.thr n t) cause status issue stop deferred addr = y at he ⊢
  obtain ⟨⟨hrest, hcores⟩, hthr⟩ := pushEvent_frame (noteLaunch (s.setThr n t y) n f) n t
  have hnote := noteLaunch_core (s.setThr n t y) n f
  rw [← he] at hrest hcores hthr
  refine ⟨?_, ?_, fun m hm => ?_, fun u hu hut => ?_⟩
  · rw [hthr t ht0, State.thr, hnote]; exact State.thr_setThr_same ..
  · have hhost := noteLaunch_frame (s.setThr n t y) n f
    generalize noteLaunch (s.setThr n t y) n f = s₂ at hrest hhost
    generalize enterFault s n t cause status issue stop deferred addr = s₃ at hrest
    calc { s₃ with cores := s.cores, host := s.host }
        = { ({ ({ s₃ with cores := s₂.cores } : State) with host := (s.setThr n t y).host } : State) with
            cores := s.cores } := rfl
      _ = s := by rw [hrest, hhost]; rfl
  · rw [hcores m hm, hnote, State.core_setThr, if_neg hm]
  · rw [hthr u (by omega), State.thr, hnote]
    exact (State.thr_setThr ..).trans (if_neg fun h => hut h.2)

theorem sameMemory_of {s' : State} (hm : s'.mem = s.mem) (hg : s'.gmem = s.gmem) (hh : s'.hostMem = s.hostMem) :
    SameMemory s s' := ⟨fun _ => by rw [hm], fun _ => by rw [hg], fun _ => by rw [hh]⟩

theorem FaultLeaves.memory {s' : State} {x' : Thread} (h : FaultLeaves s s' n t x') : SameMemory s s' :=
  sameMemory_of (congrArg State.mem h.rest :) (congrArg State.gmem h.rest :) (congrArg State.hostMem h.rest :)

/-- The thread whose deferred fault is being taken. -/
def undeferred (x : Thread) : Thread := { x with dfr := none }

theorem takeDeferred_eq {id pc addr : Nat} (h : (s.thr n t).dfr = some (id, cause, status, pc, addr)) :
    takeDeferred s n t = enterFault (s.modThr n t undeferred) n t cause status pc (s.thr n t).pc.toNat true
      (BitVec.ofNat 64 addr) := by
  unfold takeDeferred
  rw [h]
  dsimp only
  rw [State.thr_modThr_same]
  rfl

/-- Settles O7: a fault enters its thread's record (`enterFault_leaves`), whether precise or deferred. -/
theorem coreFaults : Obligations.CoreFaults := by
  constructor
  · intro n t cause status addr s ht _ hs
    have h := enterFault_leaves (s := s) (n := n) (cause := cause) (s.thr n t).pc.toNat (s.thr n t).pc.toNat false addr ht hs
    have hx := h.thread
    refine ⟨congrArg Thread.st hx, (congrArg Thread.pc hx :), ?_, congrArg Thread.fCause hx, congrArg Thread.fStatus hx,
      congrArg Thread.fDeferred hx, congrArg Thread.fIssue hx, congrArg Thread.fStop hx, congrArg Thread.faddr hx,
      h.threads, h.cores, h.memory, (congrArg State.xlt h.rest :), (congrArg State.evt h.rest :)⟩
    exact hx ▸ sameRegs_of rfl rfl rfl rfl rfl
  · intro i n t pr id cause status pc addr s hp ht _ hs hr hd
    obtain ⟨checks, eff, hx⟩ := exec_of_predOf hp s
    have hnone : (s.thr n t).dfr ≠ none := by rw [hd]; exact Option.some_ne_none _
    refine ⟨_, hx.trans (coreStep_deferred hr hnone), ?_⟩
    rw [takeDeferred_eq hd]
    have h := (enterFault_leaves (s := s.modThr n t undeferred) (n := n) (cause := cause) pc (s.thr n t).pc.toNat true
      (BitVec.ofNat 64 addr) ht hs).thread
    rw [State.thr_modThr_same] at h
    beta_reduce
    rw [h]
    exact ⟨rfl, rfl, rfl, rfl, rfl, rfl, rfl, rfl, rfl, sameRegs_of rfl rfl rfl rfl rfl⟩

/-! ### Which check is reported (R435) -/

theorem firstCheck_cons_of_clear {c : Check} {cs : List Check} (h : c.1 = false) : firstCheck (c :: cs) = firstCheck cs := by
  simp only [firstCheck, List.filter_cons, h, Bool.false_eq_true, if_false]

/-- A broken check that none after it precedes in R435 is reported. -/
theorem firstCheck_cons_of_broken {c : Check} {cs : List Check} (h : c.1 = true)
    (hmin : ∀ d ∈ cs, d.1 = true → causeRank c.2.1 ≤ causeRank d.2.1) : firstCheck (c :: cs) = some c.2 := by
  have keep : ∀ l : List Check, (∀ d ∈ l, causeRank c.2.1 ≤ causeRank d.2.1) →
      l.foldl (fun (b : Option (Nat × Nat)) d => match b with
        | none => some d.2
        | some x => if causeRank d.2.1 < causeRank x.1 then some d.2 else b) (some c.2) = some c.2 := by
    intro l hl
    induction l with
    | nil => rfl
    | cons d l ih =>
      rw [List.foldl_cons]
      dsimp only
      rw [if_neg (Nat.not_lt.mpr (hl d List.mem_cons_self))]
      exact ih fun e he => hl e (List.mem_cons_of_mem _ he)
  rw [firstCheck, List.filter_cons, if_pos h]
  exact keep _ fun d hd => hmin d (List.mem_filter.mp hd).1 (List.mem_filter.mp hd).2

/-! ### Traps -/

/-- A broken check is a precise fault, where the instruction does not jump. -/
theorem traps_of_check {checks : State → List Check} {eff : State → Res} {c a : Nat} (hi : MayIssue s n t pr)
    (hx : exec i s = coreStep n t pr false checks eff s) (hj : ∀ s' x, eff s ≠ .jump s' x)
    (hc : firstCheck (checks s) = some (c, a)) : exec i s = .next (takeFault s n t c 0 (BitVec.ofNat 64 a)) :=
  hx.trans (coreStep_check hi.runs hi.next (fun s' x h => absurd h (hj s' x)) hc)

theorem Res.done_ne_jump (s₁ s₂ : State) (x : Int) : Res.done s₁ ≠ .jump s₂ x := Res.noConfusion

theorem queueOp_ne_jump {k : Nat} {readout : Bool} {kind : AKind} (s' : State) (x : Int) :
    queueOp n t k readout kind s ≠ .jump s' x := by
  unfold queueOp
  dsimp only
  split_ifs <;> intro h <;> cases h

theorem pcCause_kernel (ht : 0 < t) : pcCause t = cPRIV := if_neg (by omega)

/-- Which branches trap, and as what (R83). -/
theorem jr_traps {a : Nat} (hi : MayIssue s n t pr) (ht : 0 < t) :
    let dest := ((s.thr n t).rs a).toNat % 2 ^ 16
    (((s.thr n t).rs a).toNat % 8 ≠ 0 → pcOk t (dest : Nat) = true →
      exec (.jr n t pr a) s = .next (takeFault s n t cALIGN 0 (BitVec.ofNat 64 dest))) ∧
    (pcOk t (dest : Nat) = false → exec (.jr n t pr a) s = .next (takeFault s n t cPRIV 0 (BitVec.ofNat 64 dest))) := by
  intro dest
  have broken (ha : ((s.thr n t).rs a).toNat % 8 ≠ 0) :
      firstCheck [(((s.thr n t).rs a).toNat % 8 != 0, cALIGN, dest)] = some (cALIGN, dest) :=
    firstCheck_cons_of_broken (by simpa using ha) (by simp)
  constructor
  · intro ha hok
    refine (exec_jr ..).trans (coreStep_check hi.runs hi.next (fun s' x h => ?_) (broken ha))
    cases h
    exact hok
  · intro hbad
    rw [← pcCause_kernel ht, ← BitVec.ofInt_natCast]
    by_cases ha : ((s.thr n t).rs a).toNat % 8 = 0
    · exact (exec_jr ..).trans (coreStep_jump_bad hi.runs hbad (firstCheck_clear (by simp [ha])) rfl)
    · exact (exec_jr ..).trans (coreStep_check_jump hi.runs hbad rfl (by rw [pcCause_kernel ht]; decide) (broken ha))

/-- A monitor instruction's first check is that its thread is thread 0 (R104). -/
theorem traps_monOnly {checks : State → List Check} {eff : State → Res} {cs : List Check} (hi : MayIssue s n t pr)
    (ht : 0 < t) (hx : exec i s = coreStep n t pr false checks eff s) (hj : ∀ s' x, eff s ≠ .jump s' x)
    (hcs : checks s = monOnly t :: cs) (hmin : ∀ d ∈ cs, d.1 = true → causeRank cPRIV ≤ causeRank d.2.1) :
    exec i s = .next (takeFault s n t cPRIV 0 0) :=
  traps_of_check hi hx hj (by
    rw [hcs]
    exact firstCheck_cons_of_broken (by simp only [monOnly]; simp; omega) hmin)

theorem bar_traps {mask : BitVec 16} (hi : MayIssue s n t pr) (hm : mask.getLsbD 0 = true ∨ mask.getLsbD t = false) :
    exec (.bar n t pr mask) s = .next (takeFault s n t cILLEGAL 0 0) := by
  refine traps_of_check hi (exec_bar ..) (fun s' x h => ?_) (firstCheck_cons_of_broken ?_ (by simp))
  · dsimp only at h
    split_ifs at h
  · rcases hm with h | h <;> simp only [h, Bool.true_or, Bool.not_false, Bool.or_true]

theorem ecall_traps {code : Nat} (hi : MayIssue s n t pr) (ht : 0 < t) :
    exec (.ecall n t pr code) s = .next (takeFault s n t cILLEGAL 0 0) :=
  (exec_ecall ..).trans (coreStep_fault hi.runs hi.next (firstCheck_clear clear_nil) (if_neg (by omega)))

/-- The checks of LDS and STS at `v` (R98). -/
def storeChecks (t size v : Nat) : List Check :=
  [(decide (3 < size), cILLEGAL, 0), (inMon t v (2 ^ size), cPRIV, v),
    (v % 2 ^ size != 0 || decide (lsTop < v + 2 ^ size), cALIGN, v)]

/-- An instruction with these checks traps in the monitor's region, and off its size or beyond the store. -/
theorem store_traps {size v : Nat} {checks : State → List Check} {eff : State → Res} (hi : MayIssue s n t pr)
    (hx : exec i s = coreStep n t pr false checks eff s) (hj : ∀ s' x, eff s ≠ .jump s' x)
    (hcs : checks s = storeChecks t size v) (hs : size ≤ 3) :
    (inMon t v (2 ^ size) = true → exec i s = .next (takeFault s n t cPRIV 0 (BitVec.ofNat 64 v))) ∧
    (inMon t v (2 ^ size) = false → (v % 2 ^ size ≠ 0 ∨ lsTop < v + 2 ^ size) →
      exec i s = .next (takeFault s n t cALIGN 0 (BitVec.ofNat 64 v))) := by
  have hsize : decide (3 < size) = false := by simpa using hs
  refine ⟨fun hm => traps_of_check hi hx hj ?_, fun hm ha => traps_of_check hi hx hj ?_⟩ <;>
    rw [hcs, storeChecks, firstCheck_cons_of_clear hsize]
  · exact firstCheck_cons_of_broken hm (by simp [causeRank, cPRIV, cILLEGAL, cALIGN, cTILE, cFORMAT])
  · rw [firstCheck_cons_of_clear hm]
    exact firstCheck_cons_of_broken (by simpa using ha) (by simp)

theorem lds_traps {d a size : Nat} (hi : MayIssue s n t pr) (hs : size ≤ 3) :
    let v := ((s.thr n t).rs a).toNat
    (inMon t v (2 ^ size) = true →
      exec (.lds n t pr d a size) s = .next (takeFault s n t cPRIV 0 (BitVec.ofNat 64 v))) ∧
    (inMon t v (2 ^ size) = false → (v % 2 ^ size ≠ 0 ∨ lsTop < v + 2 ^ size) →
      exec (.lds n t pr d a size) s = .next (takeFault s n t cALIGN 0 (BitVec.ofNat 64 v))) := by
  refine store_traps hi (exec_lds ..) (fun s' x h => ?_) rfl hs
  dsimp only at h
  split at h <;> cases h

theorem sts_traps {a b size : Nat} (hi : MayIssue s n t pr) (hs : size ≤ 3) :
    let v := ((s.thr n t).rs a).toNat
    (inMon t v (2 ^ size) = true →
      exec (.sts n t pr a b size) s = .next (takeFault s n t cPRIV 0 (BitVec.ofNat 64 v))) ∧
    (inMon t v (2 ^ size) = false → (v % 2 ^ size ≠ 0 ∨ lsTop < v + 2 ^ size) →
      exec (.sts n t pr a b size) s = .next (takeFault s n t cALIGN 0 (BitVec.ofNat 64 v))) := by
  refine store_traps hi (exec_sts ..) (fun s' x h => ?_) rfl hs
  dsimp only at h
  split at h <;> cases h

theorem clear_storeChecks {size v : Nat} (hs : size ≤ 3) (hm : inMon t v (2 ^ size) = false) (ha : v % 2 ^ size = 0)
    (hin : v + 2 ^ size ≤ lsTop) : Clear (storeChecks t size v) := by
  simp [storeChecks, hs, hm, ha, hin]

/-- A load that meets an uncorrectable word is a LOCAL fault with its event (R434). -/
theorem lds_local {d a size w : Nat} (hi : MayIssue s n t pr) (hs : size ≤ 3)
    (hm : inMon t ((s.thr n t).rs a).toNat (2 ^ size) = false) (ha : ((s.thr n t).rs a).toNat % 2 ^ size = 0)
    (hin : ((s.thr n t).rs a).toNat + 2 ^ size ≤ lsTop)
    (hw : badWord (s.core n).lsBad ((s.thr n t).rs a).toNat (2 ^ size) = some w) :
    exec (.lds n t pr d a size) s =
      .next (takeFault (logLocal s n (8 * w)) n t cLOCAL 0 (BitVec.ofNat 64 (8 * w))) := by
  refine (exec_lds ..).trans (coreStep_fault hi.runs hi.next (firstCheck_clear (clear_storeChecks hs hm ha hin)) ?_)
  dsimp only [sizeBytes]
  rw [lsRead, hw]

/-- Settles O8: a broken check is reported where none before it in R435 is (`traps_of_check`); a monitor instruction's
first check is its thread (`traps_monOnly`). The answer to ECALL is the model's choice (log entry 33). -/
theorem coreTraps : Obligations.CoreTraps := by
  refine ⟨fun n t pr d a k s hi ht => ?control, fun n t pr d a b size s hi hsize => ?local_, ?stall⟩
  case control =>
    obtain ⟨hjr, hjrBad⟩ := jr_traps (a := a) hi ht
    refine ⟨hjr, hjrBad, fun imm hbad => ?br, fun _ => bar_traps hi, fun _ => ecall_traps hi ht, ?hold, ?waitev,
      fun csr hk => ⟨?csrr, ?csrw⟩, fun tile v _ _ => ⟨?tsave, ?tload⟩⟩
    case br => exact (exec_br ..).trans (pcCause_kernel ht ▸ coreStep_jump_bad hi.runs hbad (firstCheck_clear clear_nil) rfl)
    case hold => exact traps_monOnly hi ht (exec_thctlHold ..) (Res.done_ne_jump _) rfl (by simp)
    case waitev =>
      refine traps_monOnly hi ht (exec_waitev ..) (fun s' x h => ?_) rfl (by simp)
      split at h <;> cases h
    case csrr => exact traps_monOnly hi ht (exec_csrr ..) (Res.done_ne_jump _) rfl (by simp [hk])
    case csrw =>
      refine traps_monOnly hi ht (exec_csrw ..) (fun s' x h => ?_) rfl (by simp [hk])
      dsimp only at h
      split_ifs at h
    case tsave => exact traps_monOnly hi ht (exec_tsave ..) queueOp_ne_jump rfl (by simp [causeRank, cPRIV, cILLEGAL, cALIGN, cTILE, cFORMAT, cADDR])
    case tload => exact traps_monOnly hi ht (exec_tload ..) queueOp_ne_jump rfl (by simp [causeRank, cPRIV, cILLEGAL, cALIGN, cTILE, cFORMAT, cADDR])
  case local_ =>
    obtain ⟨hldsPriv, hldsAlign⟩ := lds_traps (d := d) (a := a) hi hsize
    obtain ⟨hstsPriv, hstsAlign⟩ := sts_traps (a := a) (b := b) hi hsize
    exact ⟨fun h => ⟨hldsPriv h, hstsPriv h⟩, fun h h' => ⟨hldsAlign h h', hstsAlign h h'⟩,
      fun w hm ha hin hw => lds_local hi hsize hm ha hin hw⟩
  case stall =>
    intro n t pr a b c k s hi hfull hc
    exact (exec_cpin ..).trans (coreStep_stay hi.runs hi.next (firstCheck_clear hc) (startOp_full hfull))

end Sys2Proof.Machine
end

section
/-! Lanes of vectors (R80, R92, R95), for O9, O10 and O12: lanes written under a mask read back, and so do the flags that
the enabled lanes raise. -/

namespace Sys2Proof.Machine

variable {s : State} {n t pr d : Nat} {i : Instr}

/-! ### Packed elements -/

theorem packBits_elem (w : Nat) (l : List Nat) (i : Nat) : packBits w l / 2 ^ (w * i) % 2 ^ w = l.getD i 0 % 2 ^ w := by
  induction l generalizing i with
  | nil => simp [packBits]
  | cons x l ih =>
    rw [packBits]
    cases i with
    | zero => rw [Nat.mul_zero, Nat.pow_zero, Nat.div_one, Nat.add_mul_mod_self_left, Nat.mod_mod]; rfl
    | succ i =>
      have hlt : x % 2 ^ w < 2 ^ w := Nat.mod_lt _ (by positivity)
      have hpow : 2 ^ (w * (i + 1)) = 2 ^ w * 2 ^ (w * i) := by rw [Nat.mul_succ, Nat.pow_add, Nat.mul_comm]
      rw [hpow, ← Nat.div_div_eq_div_mul, Nat.add_mul_div_left _ _ (by positivity), Nat.div_eq_of_lt hlt, Nat.zero_add, ih]
      rfl

/-- A field that lies below a number's width survives the cut to that width. -/
theorem mod_pow_elem {w N i : Nat} (v : Nat) (h : w * i + w ≤ N) :
    v % 2 ^ N / 2 ^ (w * i) % 2 ^ w = v / 2 ^ (w * i) % 2 ^ w := by
  obtain ⟨k, rfl⟩ := Nat.le.dest h
  rw [Nat.pow_add, Nat.pow_add, Nat.mul_assoc, Nat.mod_mul_right_div_self, Nat.mod_mul_right_mod]

theorem lane_eq (v : VReg) (i : Nat) : lane v i = v.toNat / 2 ^ (32 * i) % 2 ^ 32 := by
  rw [lane, Nat.shiftRight_eq_div_pow]

theorem lane_lt (v : VReg) (i : Nat) : lane v i < 2 ^ 32 := Nat.mod_lt _ (by decide)

theorem lane_ofNat {i : Nat} (v : Nat) (hi : i < 64) : lane (BitVec.ofNat 2048 v) i = v / 2 ^ (32 * i) % 2 ^ 32 := by
  rw [lane_eq, BitVec.toNat_ofNat, mod_pow_elem (N := 2048) v (by omega)]

theorem lane_ofLanes {i : Nat} (l : List Nat) (hi : i < 64) : lane (ofLanes l) i = l.getD i 0 % 2 ^ 32 := by
  rw [ofLanes, lane_ofNat _ hi, packBits_elem]

theorem getD_map_range {α : Type} {N i : Nat} (f : Nat → α) (x : α) (hi : i < N) : ((List.range N).map f).getD i x = f i := by
  simp [List.getD, hi]

/-- A lane written under a mask (R92). -/
theorem lane_maskLanes {i : Nat} (m : Word) (old new : VReg) (hi : i < 64) :
    lane (maskLanes m old new) i = if laneOn m i then lane new i else lane old i := by
  rw [maskLanes, lane_ofLanes _ hi, getD_map_range _ _ hi]
  split <;> exact Nat.mod_eq_of_lt (lane_lt ..)

/-! ### Flags of the enabled lanes -/

theorem getLsbD_foldl_or (on : Nat → Bool) (g : Nat → Flg) (ls : List Nat) (f : Flg) (k : Nat) :
    (ls.foldl (fun f j => if on j then f ||| g j else f) f).getLsbD k = true ↔
      f.getLsbD k = true ∨ ∃ j, j ∈ ls ∧ on j = true ∧ (g j).getLsbD k = true := by
  induction ls generalizing f with
  | nil => simp
  | cons j ls ih =>
    rw [List.foldl_cons, ih]
    by_cases hj : on j = true <;> simp [hj, or_assoc]

theorem lanesFlags_getLsbD (m : Word) (f : Nat → Nat × Flg) (k : Nat) :
    (lanesFlags m ((List.range 64).map f)).getLsbD k = true ↔
      ∃ j, j < 64 ∧ laneOn m j = true ∧ (f j).2.getLsbD k = true := by
  have hzip : (List.range 64).zip ((List.range 64).map f) = (List.range 64).map fun j => (j, f j) := by
    simpa using List.zip_map' (f := id) (g := f) (l := List.range 64)
  rw [lanesFlags, hzip, List.foldl_map, getLsbD_foldl_or (laneOn m) fun j => (f j).2]
  simp

/-! ### Lane-wise instructions -/

/-- A thread after an instruction that computes each lane on its own (R92). -/
def lanesWritten (pr d : Nat) (g : Thread → Nat → Nat × Flg) (x : Thread) : Thread :=
  (x.wv d (maskLanes (x.rp pr) (x.rv d) (ofLanes (((List.range 64).map (g x)).map (·.1))))).orFlg
    (lanesFlags (x.rp pr) ((List.range 64).map (g x)))

theorem vecF_eq (n t pr d : Nat) (g : Thread → Nat → Nat × Flg) (s : State) :
    vecF n t pr d g s = coreStep n t pr true (fun _ => []) (pure_ n t (lanesWritten pr d g)) s := by
  unfold vecF lanesWritten; rfl

theorem Thread.orFlg_pc (x : Thread) (f : Flg) : (x.orFlg f).pc = x.pc := rfl
theorem Thread.orFlg_holdReq (x : Thread) (f : Flg) : (x.orFlg f).holdReq = x.holdReq := rfl

theorem lanesWritten_pc (pr d : Nat) (g : Thread → Nat → Nat × Flg) (x : Thread) : (lanesWritten pr d g x).pc = x.pc := by
  rw [lanesWritten, Thread.orFlg_pc, Thread.wv_pc]

theorem lanesWritten_holdReq (pr d : Nat) (g : Thread → Nat → Nat × Flg) (x : Thread) :
    (lanesWritten pr d g x).holdReq = x.holdReq := by
  rw [lanesWritten, Thread.orFlg_holdReq, Thread.wv_holdReq]

/-- What a masked write of a vector register, flags and the retirement leave of the registers. -/
theorem vectorSet_retire (x : Thread) (d : Nat) (v : VReg) (f : Flg) : VectorSet x (retire ((x.wv d v).orFlg f)) d v f where
  dest := Thread.rv_wv_same ..
  v _ hj := (Thread.rv_wv ..).trans (if_neg hj)
  s _ := rfl
  p _ := rfl
  c _ := rfl
  flg := rfl

theorem vectorLanes_written (pr d : Nat) {g : Thread → Nat → Nat × Flg} {f : Nat → Nat × Flg} (x : Thread)
    (hf : ∀ j, j < 64 → (g x j).1 % 2 ^ 32 = (f j).1 % 2 ^ 32 ∧ (g x j).2 = (f j).2) :
    VectorLanes x (retire (lanesWritten pr d g x)) d (x.rp pr) f := by
  unfold lanesWritten
  obtain ⟨hdest, hv, hs, hp, hc, hflg⟩ := vectorSet_retire x d
    (maskLanes (x.rp pr) (x.rv d) (ofLanes (((List.range 64).map (g x)).map (·.1))))
    (lanesFlags (x.rp pr) ((List.range 64).map (g x)))
  refine ⟨fun j hj => ?_, hv, hs, hp, hc, fun k => ?_⟩
  · rw [hdest, lane_maskLanes _ _ _ hj, lane_ofLanes _ hj, List.map_map, getD_map_range _ _ hj, Function.comp_apply,
      (hf j hj).1]
  · rw [hflg, BitVec.getLsbD_or, Bool.or_eq_true, lanesFlags_getLsbD]
    refine or_congr_right (exists_congr fun j => and_congr_right fun hj => ?_)
    rw [(hf j hj).2]

/-- An instruction that computes each lane on its own writes the enabled lanes and raises their flags. -/
theorem vectorLanes_of_vecF {g : Thread → Nat → Nat × Flg} {f : Nat → Nat × Flg} (hi : MayIssueV s n t)
    (hx : exec i s = vecF n t pr d g s)
    (hf : ∀ j, j < 64 → (g (s.thr n t) j).1 % 2 ^ 32 = (f j).1 % 2 ^ 32 ∧ (g (s.thr n t) j).2 = (f j).2) :
    ThreadGives s n t i fun x x' => VectorLanes x x' d (x.rp pr) f :=
  threadGives_of_pure hi.runs hi.next (hx.trans (vecF_eq ..)) clear_nil (lanesWritten_pc ..) (lanesWritten_holdReq ..)
    (vectorLanes_written pr d _ hf)

/-- An FP32 instruction (R92). -/
theorem floatLanes {f : Nat → Nat × Flg} (hi : MayIssueV s n t) {g : Thread → Nat → Nat × Flg}
    (hx : exec i s = vecF n t pr d g s) (hf : g (s.thr n t) = f) :
    ThreadGives s n t i fun x x' => VectorLanes x x' d (x.rp pr) f :=
  vectorLanes_of_vecF hi hx fun j _ => by rw [hf]; exact ⟨rfl, rfl⟩

/-- Settles O10: each form computes its lanes on their own (`floatLanes`). -/
theorem vectorFloatLanes : Obligations.VectorFloatLanes := fun _ _ _ _ _ _ _ _ hi =>
  ⟨floatLanes hi (exec_vaddf ..) rfl, floatLanes hi (exec_vsubf ..) rfl, floatLanes hi (exec_vmulf ..) rfl,
    floatLanes hi (exec_vfma ..) rfl, floatLanes hi (exec_vmaxf ..) rfl, floatLanes hi (exec_vminf ..) rfl⟩

/-! ### Integer lanes -/

/-- An instruction without flags. -/
theorem intLanes {f : Nat → Nat} {g : Thread → Nat → Nat} (hi : MayIssueV s n t) (hx : exec i s = vecI n t pr d g s)
    (hf : ∀ j, g (s.thr n t) j % 2 ^ 32 = f j % 2 ^ 32) :
    ThreadGives s n t i fun x x' => VectorLanes x x' d (x.rp pr) fun j => (f j, 0) :=
  vectorLanes_of_vecF hi (g := fun x j => (g x j, 0)) hx fun j _ => ⟨hf j, rfl⟩

theorem sext_eq_toInt (x : Nat) : sext 32 x = (BitVec.ofNat 32 x).toInt := by
  rw [BitVec.toInt_eq_toNat_cond, BitVec.toNat_ofNat, sext]
  split <;> split <;> omega

/-! ### Comparisons -/

theorem maskBits_getLsbD {j : Nat} (m old : Word) (f : Nat → Bool) (hj : j < 64) :
    (maskBits m old f).getLsbD j = if laneOn m j then f j else old.getLsbD j := by
  have helem := packBits_elem 1 ((List.range 64).map fun i => b2n (if laneOn m i then f i else old.getLsbD i)) j
  rw [getD_map_range _ _ hj, Nat.one_mul, Nat.pow_one] at helem
  rw [maskBits, BitVec.getLsbD_ofNat, Nat.testBit_eq_decide_div_mod_eq, helem]
  generalize (if laneOn m j then f j else old.getLsbD j) = b
  cases b <;> simp [b2n, hj]

/-- A comparison writes the enabled lanes' bits of its predicate and raises no flag (R92). -/
theorem vcmp_gives {a b cmp : Nat} {fp : Bool} (hi : MayIssueV s n t) (hcmp : cmp < 4) (hd : d % 8 ≠ 0) :
    ThreadGives s n t (.vcmp n t pr d a b cmp fp) fun x x' =>
      (∀ j, j < 64 → (x'.rp d).getLsbD j =
        if laneOn (x.rp pr) j then vcmpLane cmp fp (lane (x.rv a) j) (lane (x.rv b) j) else (x.rp d).getLsbD j) ∧
      (∀ j, j % 8 ≠ d % 8 → x'.rp j = x.rp j) ∧ SameSV x x' ∧ (∀ j, x'.rc j = x.rc j) ∧ x'.flg = x.flg := by
  refine threadGives_of_pure hi.runs hi.next (exec_vcmp ..) (by simp; omega) (Thread.wp_pc ..) (Thread.wp_holdReq ..) ?_
  obtain ⟨hdest, hp, hs, hv, hc, hflg⟩ := predSet_retire (s.thr n t) d (maskBits ((s.thr n t).rp pr) ((s.thr n t).rp d)
    fun i => vcmpLane cmp fp (lane ((s.thr n t).rv a) i) (lane ((s.thr n t).rv b) i))
  rw [if_neg hd] at hdest
  exact ⟨fun j hj => by rw [hdest, maskBits_getLsbD _ _ _ hj], hp, ⟨hs, hv⟩, hc, hflg⟩

/-- Settles O9: each form computes its lanes on their own (`intLanes`); a comparison writes its bits under the mask. -/
theorem vectorIntegerLanes : Obligations.VectorIntegerLanes := by
  refine ⟨fun n t pr d a b c s hi => ?lanes, fun n t pr d a b cmp fp s hi hcmp hd => ?cmp⟩
  case lanes =>
    refine ⟨intLanes hi (exec_vaddi ..) fun j => ?vadd, intLanes hi (exec_vsubi ..) fun j => ?vsub,
      intLanes hi (exec_vmuli ..) fun j => ?vmul, intLanes hi (exec_vand ..) fun j => ?vand,
      intLanes hi (exec_vor ..) fun j => ?vor, intLanes hi (exec_vxor ..) fun j => ?vxor,
      intLanes hi (exec_vshl ..) fun j => ?vshl, intLanes hi (exec_vshr ..) fun j => ?vshr,
      intLanes hi (exec_vsar ..) fun j => ?vsar, intLanes hi (exec_vsel ..) fun _ => rfl,
      intLanes hi (exec_vbcast ..) fun j => ?vbcast, intLanes hi (exec_vperm ..) fun _ => rfl⟩
    all_goals
      have ha := lane_lt ((s.thr n t).rv a) j
      have hb := lane_lt ((s.thr n t).rv b) j
    case vadd | vsub =>
      simp only [int2, BitVec.toNat_add, BitVec.toNat_sub, BitVec.toNat_ofNat]
      omega
    case vmul => simp [int2, BitVec.toNat_mul, BitVec.toNat_ofNat]
    case vand | vor | vxor =>
      simp only [int2, BitVec.toNat_and, BitVec.toNat_or, BitVec.toNat_xor, BitVec.toNat_ofNat, Nat.mod_eq_of_lt ha, Nat.mod_eq_of_lt hb]
    case vshl => simp only [int2, BitVec.toNat_shiftLeft, BitVec.toNat_ofNat, Nat.mod_eq_of_lt ha, Nat.mod_eq_of_lt hb, Nat.shiftLeft_eq, Nat.mod_mod]
    case vshr => simp only [int2, BitVec.toNat_ushiftRight, BitVec.toNat_ofNat, Nat.mod_eq_of_lt ha, Nat.mod_eq_of_lt hb, Nat.shiftRight_eq_div_pow]
    case vsar =>
      simp only [int2, sext_eq_toInt, BitVec.toNat_ofNat, Nat.mod_eq_of_lt hb]
      rw [← Int.shiftRight_eq_div_pow, ← BitVec.toInt_sshiftRight, ← BitVec.toNat_ofInt, BitVec.ofInt_toInt]
    case vbcast => exact Nat.mod_mod ..
  case cmp => exact vcmp_gives hi hcmp hd

/-! ### The lane sum (R95) -/

/-- A level of the tree over lanes given by a function. -/
def pairs (g : Nat → Nat × Flg) (i : Nat) : Nat × Flg :=
  ((fAdd (g (2 * i)).1 (g (2 * i + 1)).1).1,
    (fAdd (g (2 * i)).1 (g (2 * i + 1)).1).2 ||| (g (2 * i)).2 ||| (g (2 * i + 1)).2)

theorem pairSums_range (g : Nat → Nat × Flg) (m : Nat) :
    pairSums ((List.range (2 * m)).map g) = (List.range m).map (pairs g) := by
  induction m generalizing g with
  | zero => rfl
  | succ m ih =>
    have hl : (List.range (2 * (m + 1))).map g = g 0 :: g 1 :: (List.range (2 * m)).map fun i => g (i + 2) := by
      rw [Nat.mul_succ, List.range_succ_eq_map, List.range_succ_eq_map]
      simp [Function.comp_def]
    rw [hl, pairSums, ih, List.range_succ_eq_map, List.map_cons, List.map_map]
    rfl

/-- The values and flags at a level of the tree. -/
def treeLevel (g : Nat → Nat × Flg) : Nat → Nat → Nat × Flg
  | 0 => g
  | l + 1 => pairs (treeLevel g l)

theorem treeRoot (g : Nat → Nat × Flg) :
    (pairSums (pairSums (pairSums (pairSums (pairSums (pairSums ((List.range 64).map g))))))).headD (0, 0) =
      treeLevel g 6 0 := by
  rw [show 64 = 2 * 32 from rfl, pairSums_range, show 32 = 2 * 16 from rfl, pairSums_range, show 16 = 2 * 8 from rfl,
    pairSums_range, show 8 = 2 * 4 from rfl, pairSums_range, show 4 = 2 * 2 from rfl, pairSums_range,
    show 2 = 2 * 1 from rfl, pairSums_range]
  rfl

/-- The lanes of a register whose lanes after the first are 0. -/
theorem lane_ofNat_low {j v : Nat} (hj : j < 64) : lane (BitVec.ofNat 2048 (v % 2 ^ 32)) j = if j = 0 then v % 2 ^ 32 else 0 := by
  rw [lane_ofNat _ hj]
  split
  · next h => rw [h, Nat.mul_zero, Nat.pow_zero, Nat.div_one, Nat.mod_mod]
  · next h =>
    have hle : 2 ^ 32 ≤ 2 ^ (32 * j) := Nat.pow_le_pow_right (by decide) (by omega)
    rw [Nat.div_eq_of_lt (Nat.lt_of_lt_of_le (Nat.mod_lt _ (by decide)) hle), Nat.zero_mod]

/-- A lane as it enters the sum: 0 where the mask is off. -/
def enters (x : Thread) (pr a i : Nat) : Nat × Flg := (if laneOn (x.rp pr) i then lane (x.rv a) i else 0, 0)

theorem vsumf_root {a : Nat} (hi : MayIssueV s n t) :
    ThreadGives s n t (.vsumf n t pr d a) fun x x' => VectorSet x x' d
      (maskLanes ((s.thr n t).rp pr) (x.rv d) (BitVec.ofNat 2048 ((treeLevel (enters (s.thr n t) pr a) 6 0).1 % 2 ^ 32)))
      (treeLevel (enters (s.thr n t) pr a) 6 0).2 := by
  rw [← treeRoot]
  exact (vectorConversions n t pr d a ⟨0, 0, 0, false, 0⟩ s hi).1

/-- Settles O12: VSUMF's value is the tree's root (`vsumf_root`), written under the mask. -/
theorem laneSumTree : Obligations.LaneSumTree := by
  intro n t pr d a s hi
  refine ⟨fun l i => (treeLevel (enters (s.thr n t) pr a) l i).1, (treeLevel (enters (s.thr n t) pr a) 6 0).2,
    fun _ _ => rfl, fun _ _ _ _ => rfl, ?_⟩
  obtain ⟨s', hx, honly, hret, hdest, hv, hs, hp, hc, hflg⟩ := vsumf_root (pr := pr) (d := d) (a := a) hi
  refine ⟨s', hx, honly, hret, fun j hj => ?_, hv, hs, hp, hc, hflg⟩
  rw [hdest, lane_maskLanes _ _ _ hj, lane_ofNat_low hj]

end Sys2Proof.Machine
end

section
/-! Loads and stores of local store (R84, R98, R434), for O13: a load reads the bytes of its range, a store changes them and
no other, lane by lane where a vector is stored. -/

namespace Sys2Proof.Machine

variable {s : State} {n t pr : Nat} {i : Instr}

/-! ### Words that are good -/

/-- Part of a good range is good, by whatever table says the same of its words. -/
theorem badWord_part {tb tb' : Tbl Bool} {a len a' len' : Nat} (h : badWord tb a len = none)
    (hs : ∀ w, tget false tb' w = tget false tb w) (ha : a ≤ a') (hb : a' + len' ≤ a + len) : badWord tb' a' len' = none := by
  unfold badWord
  split
  · rfl
  · next h0 =>
    refine List.find?_eq_none.mpr fun w hw => ?_
    obtain ⟨k, hk, rfl⟩ := List.mem_map.mp hw
    have hk := List.mem_range.mp hk
    rw [hs, badWord_none h (by omega) (by omega) (by omega)]
    exact Bool.false_ne_true

/-! ### Loads -/

theorem lsRead_range {len v : Nat} (h : GoodRange s n t v len) :
    lsRead (s.core n) v len = .ok (Memory.readN (s.core n).ls v len) := lsRead_good h.good

/-- An instruction whose checks pass and whose effect is a change of its thread. -/
theorem threadGives_of_modThr {vec : Bool} {checks : State → List Check} {eff : State → Res} {f : Thread → Thread}
    {p : Thread → Thread → Prop} (hi : Runs s n t pr vec) (hn : pcOk t ((s.thr n t).pc.toNat + 8) = true)
    (hx : exec i s = coreStep n t pr vec checks eff s) (hc : Clear (checks s)) (he : eff s = .done (s.modThr n t f))
    (hpc : (f (s.thr n t)).pc = (s.thr n t).pc) (hhold : (f (s.thr n t)).holdReq = (s.thr n t).holdReq)
    (hp : p (s.thr n t) (retire (f (s.thr n t)))) : ThreadGives s n t i p := by
  refine ⟨_, hx.trans (coreStep_done hi hn (firstCheck_clear hc) he),
    (onlyThread_modThr ..).trans (onlyThread_modThr ..), ?_, ?_⟩
  · rw [State.modThr_modThr]
    exact ⟨congrArg (· + 8) hpc, by rw [← hhold]; rfl, rfl⟩
  · rwa [State.modThr_modThr]

theorem lds_gives {d a size : Nat} (hi : MayIssue s n t pr) (hs : size ≤ 3) (ha : ((s.thr n t).rs a).toNat % 2 ^ size = 0)
    (hr : GoodRange s n t ((s.thr n t).rs a).toNat (2 ^ size)) :
    ThreadGives s n t (.lds n t pr d a size) fun x x' =>
      ScalarSet x x' d (BitVec.ofNat 64 (Memory.readLe (s.core n).ls ((s.thr n t).rs a).toNat (2 ^ size))) := by
  refine threadGives_of_modThr hi.runs hi.next (exec_lds ..) (clear_storeChecks hs hr.allowed ha hr.inside)
    (f := fun x => x.ws d (BitVec.ofNat 64 (Memory.readLe (s.core n).ls ((s.thr n t).rs a).toNat (2 ^ size)))) ?_
    (Thread.ws_pc ..) (Thread.ws_holdReq ..) (scalarSet_retire ..)
  dsimp only [sizeBytes]
  rw [lsRead_range hr]
  rfl

theorem clear_vectorChecks {v : Nat} (hm : inMon t v 256 = false) (ha : v % 32 = 0) (hin : v + 256 ≤ lsTop) :
    Clear [(inMon t v 256, cPRIV, v), (v % 32 != 0 || decide (lsTop < v + 256), cALIGN, v)] := by
  simp [hm, ha, hin]

theorem vectorSet_retire_wv (x : Thread) (d : Nat) (v : VReg) : VectorSet x (retire (x.wv d v)) d v 0 where
  dest := Thread.rv_wv_same ..
  v _ hj := (Thread.rv_wv ..).trans (if_neg hj)
  s _ := rfl
  p _ := rfl
  c _ := rfl
  flg := (BitVec.or_zero ..).symm

theorem ldv_gives {d a : Nat} (hi : MayIssue s n t pr) (ha : ((s.thr n t).rs a).toNat % 32 = 0)
    (hr : GoodRange s n t ((s.thr n t).rs a).toNat 256) :
    ThreadGives s n t (.ldv n t pr d a) fun x x' =>
      VectorSet x x' d (BitVec.ofNat 2048 (Memory.readLe (s.core n).ls ((s.thr n t).rs a).toNat 256)) 0 := by
  refine threadGives_of_modThr hi.runs hi.next (exec_ldv ..) (clear_vectorChecks hr.allowed ha hr.inside)
    (f := fun x => x.wv d (BitVec.ofNat 2048 (Memory.readLe (s.core n).ls ((s.thr n t).rs a).toNat 256))) ?_
    (Thread.wv_pc ..) (Thread.wv_holdReq ..) (vectorSet_retire_wv ..)
  dsimp only
  rw [lsRead_range hr, Memory.readLe]

/-! ### Stores -/

/-- Of a core only local store and its marks may differ, and no mark does. -/
structure StoredIn (c c' : Core) : Prop where
  core : c' = { c with ls := c'.ls, lsBad := c'.lsBad }
  bad : ∀ w, tget false c'.lsBad w = tget false c.lsBad w

theorem StoredIn.refl (c : Core) : StoredIn c c := ⟨rfl, fun _ => rfl⟩

theorem StoredIn.trans {c₁ c₂ c₃ : Core} (h : StoredIn c₁ c₂) (g : StoredIn c₂ c₃) : StoredIn c₁ c₃ where
  core := by rw [g.core, h.core]
  bad w := (g.bad w).trans (h.bad w)

/-- A write that meets no uncorrectable word. -/
theorem lsWrite_stored {c : Core} {a : Nat} {bs : List Byte} (h : badWord c.lsBad a bs.length = none) :
    ∃ c', lsWrite c a bs = (c', none) ∧ StoredIn c c' ∧ c'.ls = Memory.writeN c.ls a bs := by
  obtain ⟨b, hw, hb⟩ := lsWrite_good h
  exact ⟨_, hw, ⟨rfl, hb⟩, rfl⟩

theorem readN_written {m : Memory} {a len : Nat} {bs : List Byte} (h : bs.length = len) :
    Memory.readN (Memory.writeN m a bs) a len = bs := by
  rw [← h, Memory.readN_writeN]

/-- What a store into a core and the retirement of its thread leave. -/
theorem onlyStore_retire {c : Core} (h : StoredIn (s.core n) c) :
    OnlyStore s ((s.setCore n c).modThr n t retire) n t ∧
    Retired (s.thr n t) (((s.setCore n c).modThr n t retire).thr n t) ∧
    SameRegs (s.thr n t) (((s.setCore n c).modThr n t retire).thr n t) ∧
    (((s.setCore n c).modThr n t retire).core n).ls = c.ls := by
  have hthr : (s.setCore n c).thr n t = s.thr n t := by
    rw [State.thr, State.core_setCore_same, h.core]; rfl
  have hcore : ((s.setCore n c).modThr n t retire).core n = c.setThread t (retire (s.thr n t)) := by
    rw [State.core_modThr_same, State.core_setCore_same, hthr]
  refine ⟨⟨rfl, fun m hm => ?_, ?_, fun u hu => ?_, fun w => ?_⟩, ?_, ?_, ?_⟩
  · rw [State.core_modThr, if_neg hm, State.core_setCore, if_neg hm]
  · rw [hcore, h.core]; rfl
  · rw [State.thr_modThr, if_neg fun e => hu e.2, State.thr, State.core_setCore_same, h.core]; rfl
  · rw [hcore]; exact h.bad w
  · rw [State.thr_modThr_same, hthr]; exact ⟨rfl, rfl, rfl⟩
  · rw [State.thr_modThr_same, hthr]; exact sameRegs_retire _
  · rw [hcore]; rfl

theorem sts_gives {a b size : Nat} (hi : MayIssue s n t pr) (hs : size ≤ 3) (ha : ((s.thr n t).rs a).toNat % 2 ^ size = 0)
    (hr : GoodRange s n t ((s.thr n t).rs a).toNat (2 ^ size)) :
    Gives (.sts n t pr a b size) s fun s' =>
      OnlyStore s s' n t ∧ Retired (s.thr n t) (s'.thr n t) ∧ SameRegs (s.thr n t) (s'.thr n t) ∧
      Memory.readLe (s'.core n).ls ((s.thr n t).rs a).toNat (2 ^ size) =
        ((s.thr n t).rs b).toNat % 2 ^ (8 * 2 ^ size) ∧
      ∀ k, k < ((s.thr n t).rs a).toNat ∨ ((s.thr n t).rs a).toNat + 2 ^ size ≤ k →
        Memory.read (s'.core n).ls k = Memory.read (s.core n).ls k := by
  have hlen := length_leBytes (2 ^ size) ((s.thr n t).rs b).toNat
  obtain ⟨c, hw, hc, hls⟩ := lsWrite_stored (bs := leBytes (2 ^ size) ((s.thr n t).rs b).toNat)
    (hlen.symm ▸ hr.good)
  obtain ⟨hstore, hret, hregs, hls'⟩ := onlyStore_retire (t := t) hc
  refine ⟨_, (exec_sts ..).trans (coreStep_done hi.runs hi.next
    (firstCheck_clear (clear_storeChecks hs hr.allowed ha hr.inside)) ?_), hstore, hret, hregs, ?_, fun k hk => ?_⟩
  · dsimp only [sizeBytes]
    rw [hw]
  · calc Memory.readLe (((s.setCore n c).modThr n t retire).core n).ls ((s.thr n t).rs a).toNat (2 ^ size)
        = leNat (leBytes (2 ^ size) ((s.thr n t).rs b).toNat) := by
          rw [hls', hls, Memory.readLe, readN_written hlen]
      _ = ((s.thr n t).rs b).toNat % 2 ^ (8 * 2 ^ size) := by rw [leNat_leBytes, Nat.pow_mul]
  · rw [hls', hls, Memory.read_writeN_out (hlen.symm ▸ hk)]

/-! ### Stores of the enabled lanes of a vector -/

/-- Byte `o` of a vector, the lanes little-endian and lane 0 first. -/
def vecByte (v : VReg) (o : Nat) : Byte := BitVec.ofNat 8 (v.toNat / 256 ^ o)

/-- Lane `j` stands in local store once the lanes below `k` have had their turn: it is enabled and below `k`, or its
even neighbour took it along in one 8-byte word. -/
def laneStored (p : Word) (k j : Nat) : Prop :=
  laneOn p j = true ∧ (j < k ∨ j = k ∧ k % 2 = 1 ∧ laneOn p (k - 1) = true)

/-- What the lanes below `k` leave of a core's local store. -/
structure LanesStored (p : Word) (v : VReg) (a k : Nat) (c c' : Core) : Prop where
  stored : StoredIn c c'
  inside : ∀ q, a ≤ q → laneStored p k ((q - a) / 4) → Memory.read c'.ls q = vecByte v (q - a)
  outside : ∀ q, (a ≤ q → ¬ laneStored p k ((q - a) / 4)) → Memory.read c'.ls q = Memory.read c.ls q

theorem leBytes_get (m x i : Nat) (h : i < m) : (leBytes m x)[i]? = some (BitVec.ofNat 8 (x / 256 ^ i)) := by
  induction m generalizing x i with
  | zero => omega
  | succ m ih =>
    cases i with
    | zero => simp [leBytes]
    | succ i => rw [leBytes, List.getElem?_cons_succ, ih _ _ (by omega), Nat.div_div_eq_div_mul, ← Nat.pow_succ']

/-- Byte `i` of a field that takes `m` bytes from byte `o` of a vector on. -/
theorem vecByte_of_field (v : VReg) {m o i : Nat} (hi : i < m) :
    BitVec.ofNat 8 (v.toNat / 256 ^ o % 256 ^ m / 256 ^ i) = vecByte v (o + i) := by
  have hsplit : (256 : Nat) ^ m = 256 ^ i * (256 * 256 ^ (m - i - 1)) := by
    rw [← Nat.pow_succ', ← Nat.pow_add]; congr 1; omega
  refine BitVec.eq_of_toNat_eq ?_
  rw [vecByte, BitVec.toNat_ofNat, BitVec.toNat_ofNat, hsplit, Nat.mod_mul_right_div_self, Nat.div_div_eq_div_mul,
    ← Nat.pow_add]
  exact Nat.mod_mul_right_mod ..

/-- A lane is 4 bytes of its vector. -/
theorem lane_bytes (v : VReg) (j : Nat) : lane v j = v.toNat / 256 ^ (4 * j) % 256 ^ 4 := by
  rw [lane_eq, show 32 * j = 8 * (4 * j) by omega, Nat.pow_mul]
  rfl

/-- Two neighbours are 8 bytes of their vector. -/
theorem lane_pair_bytes (v : VReg) (j : Nat) :
    lane v j + 2 ^ 32 * lane v (j + 1) = v.toNat / 256 ^ (4 * j) % 256 ^ 8 := by
  rw [lane_bytes, lane_bytes, show 4 * (j + 1) = 4 * j + 4 by omega, Nat.pow_add, ← Nat.div_div_eq_div_mul,
    show (256 : Nat) ^ 8 = 256 ^ 4 * 256 ^ 4 from rfl, Nat.mod_mul]
  rfl

section
variable {p : Word} {v : VReg} {a k : Nat} {c c' : Core}

theorem lanesStored_zero (p : Word) (v : VReg) (a : Nat) (c : Core) : LanesStored p v a 0 c c where
  stored := .refl c
  inside q _ h := by obtain ⟨_, h | ⟨_, h, _⟩⟩ := h <;> omega
  outside _ _ := rfl

/-- A lane's turn that stores nothing. -/
theorem LanesStored.skip (h : LanesStored p v a k c c') (hk : ∀ j, laneStored p (k + 1) j ↔ laneStored p k j) :
    LanesStored p v a (k + 1) c c' where
  stored := h.stored
  inside q hq hs := h.inside q hq ((hk _).mp hs)
  outside q hn := h.outside q fun hq hs => hn hq ((hk _).mpr hs)

/-- A lane's turn that stores the `m` bytes of a vector from lane `k` on. -/
theorem LanesStored.write (h : LanesStored p v a k c c') {m x : Nat} (hgood : badWord c.lsBad a 256 = none)
    (hm : 4 * k + m ≤ 256) (hx : x = v.toNat / 256 ^ (4 * k) % 256 ^ m)
    (hk : ∀ j, laneStored p (k + 1) j ↔ laneStored p k j ∨ k ≤ j ∧ 4 * j < 4 * k + m) (h4 : m % 4 = 0) :
    ∃ c₁, lsWrite c' (a + 4 * k) (leBytes m x) = (c₁, none) ∧ LanesStored p v a (k + 1) c c₁ := by
  obtain ⟨c₁, hw, hs, hls⟩ := lsWrite_stored (c := c') (a := a + 4 * k) (bs := leBytes m x)
    (badWord_part hgood h.stored.bad (by omega) (by rw [length_leBytes]; omega))
  refine ⟨c₁, hw, h.stored.trans hs, fun q hq hl => ?_, fun q hn => ?_⟩
  · rw [hls, Memory.read_writeN, length_leBytes]
    split
    · next hin =>
      rw [leBytes_get _ _ _ (by omega), Option.getD_some, hx, vecByte_of_field v (by omega)]
      congr 1; omega
    · next hout =>
      refine h.inside q hq (((hk _).mp hl).resolve_right ?_)
      omega
  · have hout : ¬ (a + 4 * k ≤ q ∧ q < a + 4 * k + m) := fun hin =>
      hn (by omega) ((hk _).mpr (.inr (by omega)))
    rw [hls, Memory.read_writeN, length_leBytes, if_neg hout]
    exact h.outside q fun hq hs => hn hq ((hk _).mpr (.inl hs))

/-- The turn of lane `k`. -/
theorem storeLanes_turn (h : LanesStored p v a k c c') (hgood : badWord c.lsBad a 256 = none) (ha : a % 8 = 0)
    (hk : k < 64) (ks : List Nat) :
    ∃ c₁, storeLanes p v a (k :: ks) c' = storeLanes p v a ks c₁ ∧ LanesStored p v a (k + 1) c c₁ := by
  rw [storeLanes]
  by_cases hon : laneOn p k = true
  case neg =>
    refine ⟨c', if_neg hon, h.skip fun j => ?_⟩
    grind [laneStored]
  rw [if_pos hon]
  by_cases hpair : (k % 2 = 0 && laneOn p (k + 1) && a % 8 = 0) = true
  case pos =>
    obtain ⟨c₁, hw, hc⟩ := h.write (m := 8) hgood (by grind) (lane_pair_bytes v k) (fun j => by grind [laneStored]) rfl
    exact ⟨c₁, by rw [if_pos hpair, hw], hc⟩
  rw [if_neg hpair]
  by_cases htook : (k % 2 = 1 && laneOn p (k - 1) && a % 8 = 0) = true
  case pos => exact ⟨c', if_pos htook, h.skip fun j => by grind [laneStored]⟩
  obtain ⟨c₁, hw, hc⟩ := h.write (m := 4) hgood (by omega) (lane_bytes v k) (fun j => by grind [laneStored]) rfl
  exact ⟨c₁, by rw [if_neg htook, hw], hc⟩

/-- The lanes from `k` on in order. -/
theorem storeLanes_range (hgood : badWord c.lsBad a 256 = none) (ha : a % 8 = 0) (m : Nat) :
    ∀ (k : Nat) (c' : Core), k + m = 64 → LanesStored p v a k c c' →
      ∃ c₁, storeLanes p v a (List.range' k m) c' = (c₁, none) ∧ LanesStored p v a 64 c c₁ := by
  induction m with
  | zero => intro k c' hk h; exact ⟨c', rfl, hk ▸ h⟩
  | succ m ih =>
    intro k c' hk h
    obtain ⟨c₁, hturn, h₁⟩ := storeLanes_turn h hgood ha (by omega) (List.range' (k + 1) m)
    rw [List.range'_succ, hturn]
    exact ih (k + 1) c₁ (by omega) h₁

theorem laneStored_all {j : Nat} (hj : j < 64) : laneStored p 64 j ↔ laneOn p j = true :=
  ⟨And.left, fun h => ⟨h, .inl hj⟩⟩

theorem laneOn_lt {j : Nat} (h : laneOn p j = true) : j < 64 := BitVec.lt_of_getLsbD h

/-- A lane's word after all lanes have had their turn. -/
theorem LanesStored.word (h : LanesStored p v a 64 c c') {j : Nat} (hj : j < 64) :
    Memory.readLe c'.ls (a + 4 * j) 4 = if laneOn p j then lane v j else Memory.readLe c.ls (a + 4 * j) 4 := by
  have hq (i : Nat) (hi : i < 4) : (a + 4 * j + i - a) / 4 = j := by omega
  split
  · next hon =>
    have hbytes : Memory.readN c'.ls (a + 4 * j) 4 = leBytes 4 (lane v j) := by
      refine List.ext_getElem? fun i => ?_
      by_cases hi : i < 4
      · rw [Memory.readN_get _ _ _ _ hi, leBytes_get _ _ _ hi, lane_bytes, vecByte_of_field v hi,
          h.inside _ (by omega) ((hq i hi).symm ▸ (laneStored_all hj).mpr hon)]
        congr 2; omega
      · rw [List.getElem?_eq_none (by simp; omega), List.getElem?_eq_none (by simp; omega)]
    rw [Memory.readLe, hbytes, leNat_leBytes]
    exact Nat.mod_eq_of_lt (lane_lt v j)
  · next hoff =>
    have hbytes : Memory.readN c'.ls (a + 4 * j) 4 = Memory.readN c.ls (a + 4 * j) 4 := by
      refine List.ext_getElem? fun i => ?_
      by_cases hi : i < 4
      · rw [Memory.readN_get _ _ _ _ hi, Memory.readN_get _ _ _ _ hi,
          h.outside _ fun _ hs => hoff ((laneStored_all hj).mp (hq i hi ▸ hs))]
      · rw [List.getElem?_eq_none (by simp; omega), List.getElem?_eq_none (by simp; omega)]
    rw [Memory.readLe, Memory.readLe, hbytes]

theorem LanesStored.unchanged (h : LanesStored p v a 64 c c') {q : Nat} (hq : q < a ∨ a + 256 ≤ q) :
    Memory.read c'.ls q = Memory.read c.ls q :=
  h.outside q fun hle hs => by have := laneOn_lt hs.1; omega

end

theorem stv_gives {a b : Nat} (hi : MayIssue s n t pr) (ha : ((s.thr n t).rs a).toNat % 32 = 0)
    (hr : GoodRange s n t ((s.thr n t).rs a).toNat 256) :
    Gives (.stv n t pr a b) s fun s' =>
      OnlyStore s s' n t ∧ Retired (s.thr n t) (s'.thr n t) ∧ SameRegs (s.thr n t) (s'.thr n t) ∧
      (∀ j, j < 64 → Memory.readLe (s'.core n).ls (((s.thr n t).rs a).toNat + 4 * j) 4 =
        if laneOn ((s.thr n t).rp pr) j then lane ((s.thr n t).rv b) j
        else Memory.readLe (s.core n).ls (((s.thr n t).rs a).toNat + 4 * j) 4) ∧
      ∀ k, k < ((s.thr n t).rs a).toNat ∨ ((s.thr n t).rs a).toNat + 256 ≤ k →
        Memory.read (s'.core n).ls k = Memory.read (s.core n).ls k := by
  obtain ⟨c, hw, hc⟩ := storeLanes_range (p := (s.thr n t).rp pr) (v := (s.thr n t).rv b) hr.good (by omega) 64 0 _ rfl
    (lanesStored_zero ..)
  obtain ⟨hstore, hret, hregs, hls⟩ := onlyStore_retire (t := t) hc.stored
  refine ⟨_, (exec_stv ..).trans (coreStep_done hi.runs hi.next
    (firstCheck_clear (clear_vectorChecks hr.allowed ha hr.inside)) ?_), hstore, hret, hregs, fun j hj => ?_, fun k hk => ?_⟩
  · dsimp only
    rw [List.range_eq_range', hw]
  · rw [hls, hc.word hj]
  · rw [hls, hc.unchanged hk]

/-- Settles O13: a load reads its range; a store of one word is one write, one of a vector is one turn for each lane
(`storeLanes_turn`). -/
theorem localStoreAccess : Obligations.LocalStoreAccess := fun _ _ _ _ _ _ _ _ hi =>
  ⟨fun hs ha hr => ⟨lds_gives hi hs ha hr, sts_gives hi hs ha hr⟩,
    fun ha hr => ⟨ldv_gives hi ha hr, stv_gives hi ha hr⟩⟩

end Sys2Proof.Machine
end

section
/-! Waits and their ends, for O23 to O27: what `wake` does to each thread, what a thread leaves that waits. -/

namespace Sys2Proof.Machine

variable {s : State} {n t pr : Nat} {i : Instr}

/-! ### A thread that waits -/

/-- Thread `t` waits for `w` with its instruction not retired, and nothing else has changed. -/
structure Waits (s s' : State) (n t : Nat) (w : TWaitFor) : Prop where
  only : OnlyThread s s' n t
  st : (s'.thr n t).st = .waiting
  wait : (s'.thr n t).wait = w
  pc : (s'.thr n t).pc = (s.thr n t).pc
  regs : SameRegs (s.thr n t) (s'.thr n t)

theorem waits_block {w : TWaitFor} {b : Option Blk} (h : (s.thr n t).st = .ready) : Waits s (block s n t w b) n t w := by
  have hthr : (block s n t w b).thr n t = { s.thr n t with st := .waiting, wait := w, blk := b } := by
    rw [block, State.thr_modThr_same, h, if_neg (by decide)]
  refine ⟨onlyThread_modThr .., ?_, ?_, ?_, ?_⟩
  all_goals rw [hthr]
  exact sameRegs_of rfl rfl rfl rfl rfl

/-- An instruction whose checks are clear and that waits. -/
theorem gives_wait {checks : State → List Check} {eff : State → Res} {w : TWaitFor} {b : Option Blk} (hi : MayIssue s n t pr)
    (hx : exec i s = coreStep n t pr false checks eff s) (hc : Clear (checks s)) (he : eff s = .stay (block s n t w b)) :
    Gives i s fun s' => Waits s s' n t w :=
  ⟨_, hx.trans (coreStep_stay hi.runs hi.next (firstCheck_clear hc) he), waits_block hi.ready⟩

/-- An instruction that retires without effect. -/
theorem gives_nothing {checks : State → List Check} {eff : State → Res} (hi : MayIssue s n t pr)
    (hx : exec i s = coreStep n t pr false checks eff s) (hc : Clear (checks s)) (he : eff s = .done s) :
    ThreadGives s n t i SameRegs := by
  refine ⟨_, hx.trans (coreStep_done hi.runs hi.next (firstCheck_clear hc) he), onlyThread_modThr .., ?_, ?_⟩
  · rw [State.thr_modThr_same]; exact ⟨rfl, rfl, rfl⟩
  · rw [State.thr_modThr_same]; exact sameRegs_retire _

/-! ### Waking, thread by thread -/

/-- Operations of a thread that EXIT waits for: all but prefetches (R85). -/
def opsLeft (ops : List AOp) (t : Nat) : Bool :=
  ops.any fun o => o.t = t && !(match o.kind with | .pref _ => true | _ => false)

/-- A thread once its core has looked at what it waits for (R85, R90, R283). -/
def wokenThread (pend : Nat → Nat → Bool) (ops : List AOp) (t : Nat) (x : Thread) : Thread :=
  if x.st ≠ .waiting then x
  else match x.wait with
    | .twait k v => if reached (x.rc k) v then retire x else x
    | .fence vis => if pend t vis then x else retire x
    | .exiting =>
      if x.dfr.isSome || opsLeft ops t then x else { x with st := .off, wait := .nothing }
    | _ => x

theorem wokenThread_of_not_waiting {pend : Nat → Nat → Bool} {ops : List AOp} {x : Thread} (h : x.st ≠ .waiting) :
    wokenThread pend ops t x = x := if_pos h

theorem wakeThread_aops (pend : Nat → Nat → Bool) (c : Core) (t : Nat) : (wakeThread pend c t).aops = c.aops :=
  (woken_wakeThread ..).aops

theorem thread_wakeThread (pend : Nat → Nat → Bool) (c : Core) (t u : Nat) :
    (wakeThread pend c t).thread u = if u = t then wokenThread pend c.aops t (c.thread t) else c.thread u := by
  have hsame : c.thread u = if u = t then c.thread t else c.thread u := by
    split
    · next e => rw [e]
    · rfl
  unfold wakeThread wokenThread
  dsimp only
  split
  · exact hsame
  · cases (c.thread t).wait
    case twait k v =>
      dsimp only
      split
      · exact Core.thread_setThread ..
      · exact hsame
    case fence vis =>
      dsimp only
      split
      · exact hsame
      · exact Core.thread_setThread ..
    case exiting =>
      change (if (c.thread t).dfr.isSome || opsLeft c.aops t then c else c.setThread t _).thread u = _
      dsimp only
      split
      · exact hsame
      · exact Core.thread_setThread ..
    all_goals exact hsame

/-- The pass over the first `N` threads of a core. -/
theorem wakeThreads_get (pend : Nat → Nat → Bool) (c : Core) (N u : Nat) :
    ((List.range N).foldl (wakeThread pend) c).aops = c.aops ∧
    ((List.range N).foldl (wakeThread pend) c).thread u =
      if u < N then wokenThread pend c.aops u (c.thread u) else c.thread u := by
  induction N with
  | zero => exact ⟨rfl, rfl⟩
  | succ N ih =>
    obtain ⟨hops, hthr⟩ := ih
    rw [List.range_succ, List.foldl_append, List.foldl_cons, List.foldl_nil]
    refine ⟨(wakeThread_aops ..).trans hops, ?_⟩
    rw [thread_wakeThread, hops]
    by_cases hu : u = N
    · subst hu
      rw [if_neg (Nat.lt_irrefl u)] at hthr
      rw [if_pos rfl, if_pos (Nat.lt_succ_self u), hthr]
    · rw [if_neg hu, hthr]
      exact if_congr (by omega) rfl rfl

/-- A thread of a core after its pass. -/
theorem thr_wake (s : State) (n u : Nat) :
    (wake s n).thr n u =
      if u < 16 then wokenThread (writesPending s n) (s.core n).aops u (unstallThread (s.thr n u)) else s.thr n u := by
  rw [State.thr, wake, State.core_modCore_same, (wakeThreads_get ..).2, (woken_unstall _).aops, thread_unstall]
  split <;> rfl

theorem unstallThread_of_waiting {x : Thread} (h : x.st = .waiting) : unstallThread x = x := by simp [unstallThread, h]

theorem sameRegs_unstallThread (x : Thread) : SameRegs x (unstallThread x) := by
  unfold unstallThread
  split
  · exact sameRegs_of rfl rfl rfl rfl rfl
  · split
    · exact sameRegs_of rfl rfl rfl rfl rfl
    · exact sameRegs_refl x

theorem sameRegs_wokenThread (pend : Nat → Nat → Bool) (ops : List AOp) (t : Nat) (x : Thread) :
    SameRegs x (wokenThread pend ops t x) := by
  unfold wokenThread
  split
  · exact sameRegs_refl x
  · cases x.wait
    case twait k v =>
      dsimp only
      split
      · exact sameRegs_retire x
      · exact sameRegs_refl x
    case fence vis =>
      dsimp only
      split
      · exact sameRegs_refl x
      · exact sameRegs_retire x
    case exiting =>
      dsimp only
      split
      · exact sameRegs_refl x
      · exact sameRegs_of rfl rfl rfl rfl rfl
    all_goals exact sameRegs_refl x

theorem SameRegs.trans {x y z : Thread} (h : SameRegs x y) (g : SameRegs y z) : SameRegs x z where
  s j := (g.s j).trans (h.s j)
  v j := (g.v j).trans (h.v j)
  p j := (g.p j).trans (h.p j)
  c j := (g.c j).trans (h.c j)
  flg := g.flg.trans h.flg

theorem sameRegs_wake (s : State) (n u : Nat) : SameRegs (s.thr n u) ((wake s n).thr n u) := by
  rw [thr_wake]
  split
  · exact (sameRegs_unstallThread _).trans (sameRegs_wokenThread ..)
  · exact sameRegs_refl _

/-! ### TWAIT, TWAITR and the counts (R90) -/

theorem waitCounter_waits {c : Nat} {v : W32} {eff : State → Res} (hi : MayIssue s n t pr)
    (hx : exec i s = coreStep n t pr false (fun _ => []) eff s) (he : eff s = waitCounter n t c v s) :
    (0 ≤ ((s.thr n t).rc c - v).toInt → ThreadGives s n t i SameRegs) ∧
    (((s.thr n t).rc c - v).toInt < 0 → Gives i s fun s' =>
      OnlyThread s s' n t ∧ (s'.thr n t).st = .waiting ∧ (s'.thr n t).wait = .twait c v ∧
      (s'.thr n t).pc = (s.thr n t).pc ∧ SameRegs (s.thr n t) (s'.thr n t)) := by
  refine ⟨fun h => gives_nothing hi hx clear_nil (he.trans (if_pos (decide_eq_true h))), fun h => ?_⟩
  have hno : ¬ reached ((s.thr n t).rc c) v = true := by simpa [reached] using h
  obtain ⟨s', hs', hw⟩ := gives_wait hi hx clear_nil (he.trans (if_neg hno))
  exact ⟨s', hs', hw.only, hw.st, hw.wait, hw.pc, hw.regs⟩

/-- Removing an operation leaves a thread that waits as it is. -/
theorem thread_dropOp_of_waiting {c : Core} {u : Nat} (h : (c.thread u).st = .waiting) (id : Nat) :
    (dropOp c id).thread u = c.thread u := by
  have hfold : ∀ (ks : List Nat) (c : Core), (c.thread u).st = .waiting → (ks.foldl settle c).thread u = c.thread u := by
    intro ks
    induction ks with
    | nil => intro c _; rfl
    | cons k ks ih =>
      intro c h
      have hstep : (settle c k).thread u = c.thread u := by
        rcases settle_cases c k with e | e
        · rw [e]
        · rw [e, thread_unstall]
          split
          · exact unstallThread_of_waiting h
          · rfl
      rw [List.foldl_cons, ih _ (hstep ▸ h), hstep]
  exact hfold _ _ h

/-- A thread that waits when an operation of its own is counted. -/
theorem thr_countOp_of_waiting {o : AOp} {f : Flg} (ht : o.t < 16) (h : (s.thr n o.t).st = .waiting) :
    ∃ pend ops, (countOp s n o f).thr n o.t = wokenThread pend ops o.t
      (((s.thr n o.t).orFlg f).wc o.k ((s.thr n o.t).rc o.k + 1)) := by
  unfold countOp
  refine ⟨_, _, (thr_wake ..).trans ((if_pos ht).trans (congrArg (wokenThread _ _ _) ?_))⟩
  have hcounted : (s.modCore n fun c => (dropOp c o.id).setThread o.t
      ((((dropOp c o.id).thread o.t).orFlg f).wc o.k ((((dropOp c o.id).thread o.t).orFlg f).rc o.k + 1))).thr n o.t =
      ((s.thr n o.t).orFlg f).wc o.k ((s.thr n o.t).rc o.k + 1) := by
    rw [State.thr, State.core_modCore_same, Core.thread_setThread_same, thread_dropOp_of_waiting h]
    rfl
  rw [hcounted]
  exact unstallThread_of_waiting h

/-- The end of a wait for a counter, as the count that brings it about finds it. -/
theorem countOp_wakes {o : AOp} {f : Flg} {v : W32} (ht : o.t < 16) (h : (s.thr n o.t).st = .waiting)
    (hw : (s.thr n o.t).wait = .twait o.k v) :
    if 0 ≤ ((s.thr n o.t).rc o.k + 1 - v).toInt then Retired (s.thr n o.t) ((countOp s n o f).thr n o.t)
    else ((countOp s n o f).thr n o.t).st = .waiting ∧ ((countOp s n o f).thr n o.t).wait = .twait o.k v ∧
      ((countOp s n o f).thr n o.t).pc = (s.thr n o.t).pc := by
  obtain ⟨pend, ops, hthr⟩ := thr_countOp_of_waiting (f := f) ht h
  have hwoken : wokenThread pend ops o.t (((s.thr n o.t).orFlg f).wc o.k ((s.thr n o.t).rc o.k + 1)) =
      if reached ((s.thr n o.t).rc o.k + 1) v then
        retire (((s.thr n o.t).orFlg f).wc o.k ((s.thr n o.t).rc o.k + 1))
      else ((s.thr n o.t).orFlg f).wc o.k ((s.thr n o.t).rc o.k + 1) := by
    have hst : (((s.thr n o.t).orFlg f).wc o.k ((s.thr n o.t).rc o.k + 1)).st = .waiting := h
    have hwait : (((s.thr n o.t).orFlg f).wc o.k ((s.thr n o.t).rc o.k + 1)).wait = .twait o.k v := hw
    rw [wokenThread, hst, hwait, if_neg (by decide)]
    dsimp only
    rw [Thread.rc_wc_same]
  rw [hthr, hwoken]
  by_cases hr : 0 ≤ ((s.thr n o.t).rc o.k + 1 - v).toInt
  · have hreached : reached ((s.thr n o.t).rc o.k + 1) v = true := decide_eq_true hr
    rw [if_pos hr, if_pos hreached]
    exact ⟨rfl, rfl, rfl⟩
  · rw [if_neg hr, if_neg (by simpa [reached] using hr)]
    exact ⟨h, hw, rfl⟩

/-- Settles O23: a wait looks at its counter (`waitCounter_waits`), and a count at the waits for it (`countOp_wakes`). -/
theorem tallyCounters : Obligations.TallyCounters := by
  refine ⟨fun n t pr c a d imm s hi => ?wait, fun n o f s ht => ?count⟩
  case wait =>
    exact ⟨waitCounter_waits hi (exec_twait ..) rfl, waitCounter_waits hi (exec_twaitr ..) rfl, tset_gives hi,
      scalarGives hi (exec_tget ..) rfl⟩
  case count =>
    obtain ⟨hcount, hcounters, -⟩ := counted_countOp s n o f
    exact ⟨hcount, hcounters, fun v hst hw => countOp_wakes ht hst hw⟩

/-! ### EXIT and ECALL (R85, R109) -/

/-- The state in which EXIT looks at its thread's operations. -/
def exiting (s : State) (n t : Nat) : State := s.modThr n t fun x => { x with st := .waiting, wait := .exiting }

theorem exit_step (hi : MayIssue s n t pr) : exec (.exit n t pr) s = .next (wake (exiting s n t) n) :=
  (exec_exit ..).trans (coreStep_leave hi.runs hi.next (firstCheck_clear clear_nil) rfl)

theorem wokenThread_exiting {pend : Nat → Nat → Bool} {ops : List AOp} {x : Thread} (hs : x.st = .waiting)
    (hw : x.wait = .exiting) (hd : x.dfr = none) :
    wokenThread pend ops t x = if opsLeft ops t then x else { x with st := .off, wait := .nothing } := by
  rw [wokenThread, if_neg (not_not_intro hs), hw]
  dsimp only
  rw [hd, Option.isSome_none, Bool.false_or]

/-- The thread of an EXIT, in terms of its operations. -/
theorem thr_exit (hi : MayIssue s n t pr) (ht : t < 16) :
    (wake (exiting s n t) n).thr n t =
      if opsLeft (s.core n).aops t then
        { s.thr n t with st := .waiting, wait := .exiting }
      else { s.thr n t with st := .off, wait := .nothing } := by
  have hthr : (exiting s n t).thr n t = { s.thr n t with st := .waiting, wait := .exiting } := by
    rw [exiting, State.thr_modThr_same]
  have haops : ((exiting s n t).core n).aops = (s.core n).aops := by rw [exiting, State.core_modThr_same]; rfl
  rw [thr_wake, if_pos ht, hthr, unstallThread_of_waiting rfl,
    wokenThread_exiting (x := { s.thr n t with st := .waiting, wait := .exiting }) rfl rfl hi.noDeferred, haops]

theorem sameRegs_exit (s : State) (n t u : Nat) : SameRegs (s.thr n u) ((wake (exiting s n t) n).thr n u) := by
  refine SameRegs.trans ?_ (sameRegs_wake ..)
  rw [exiting, State.thr_modThr]
  split
  · next e => rw [e.2]; exact sameRegs_of rfl rfl rfl rfl rfl
  · exact sameRegs_refl _

theorem exit_off (hi : MayIssue s n t pr) (ht : t < 16) (h : ((s.core n).aops.all fun o => o.t != t) = true) :
    Gives (.exit n t pr) s fun s' =>
      OnlyCore s s' n ∧ (s'.thr n t).st = .off ∧ (s'.thr n t).pc = (s.thr n t).pc ∧
      (∀ u, SameRegs (s.thr n u) (s'.thr n u)) ∧ (s'.core n).aops = (s.core n).aops := by
  have hnone : opsLeft (s.core n).aops t = false := by
    rw [opsLeft, List.any_eq_false]
    intro o ho
    have := List.all_eq_true.mp h o ho
    simp_all
  refine ⟨_, exit_step hi, ?_, ?_, ?_, fun u => sameRegs_exit .., ?_⟩
  · exact (onlyCore_modThr ..).trans (onlyCore_modCore ..)
  · rw [thr_exit hi ht, hnone]; rfl
  · rw [thr_exit hi ht, hnone]; rfl
  · rw [(woken_wake ..).aops, exiting, State.core_modThr_same]; rfl

theorem exit_waits (hi : MayIssue s n t pr) (ht : t < 16)
    (h : ((s.core n).aops.any fun o => o.t = t && inSlot (s.core n) o) = true) :
    Gives (.exit n t pr) s fun s' => (s'.thr n t).st = .waiting ∧ (s'.thr n t).wait = .exiting := by
  have hsome : opsLeft (s.core n).aops t = true := by
    obtain ⟨o, ho, hslot⟩ := List.any_eq_true.mp h
    refine List.any_eq_true.mpr ⟨o, ho, ?_⟩
    rw [Bool.and_eq_true] at hslot ⊢
    refine ⟨hslot.1, ?_⟩
    have hin := hslot.2
    unfold inSlot at hin
    cases hk : o.kind <;> simp [hk] at hin ⊢
  refine ⟨_, exit_step hi, ?_⟩
  beta_reduce
  rw [thr_exit hi ht, if_pos hsome]
  exact ⟨rfl, rfl⟩

/-- Settles O25: EXIT wakes its own thread (`thr_exit`); ECALL ends or faults at its thread. The answer to a kernel
thread's is the model's choice (log entry 33). -/
theorem threadEnds : Obligations.ThreadEnds := by
  refine ⟨fun n t pr s hi ht => ⟨exit_off hi ht, exit_waits hi ht⟩, fun n t pr code s hi => ⟨fun ht => ?_, fun ht => ?_⟩⟩
  · refine ⟨_, (exec_ecall ..).trans (coreStep_leave hi.runs hi.next (firstCheck_clear clear_nil) (if_pos ht)),
      onlyThread_modThr .., ?_⟩
    rw [State.thr_modThr_same]
    exact ⟨rfl, rfl, sameRegs_of rfl rfl rfl rfl rfl⟩
  · exact (exec_ecall ..).trans (coreStep_fault hi.runs hi.next (firstCheck_clear clear_nil) (if_neg (by omega)))

end Sys2Proof.Machine
end

section
/-! The issue of a thread and of a cycle (R86, R92, R94), for O22. -/

namespace Sys2Proof.Machine

variable {s : State} {n t : Nat} {i : Instr}

/-! ### What a decoded word does -/

/-- An instruction of a core. -/
def isCore (i : Instr) : Bool := (predOf i).isSome || (vectorOf i).isSome

theorem runCore_eq_exec (h : isCore i = true) (s : State) : runCore i s = exec i s := by
  cases i <;> cases h <;> rfl

theorem forall_mem_ok {p : Instr → Prop} {c : Bool} {j : Instr} : (∀ i ∈ ok? c j, p i) ↔ (c = true → p j) := by
  cases c <;> simp [ok?]

theorem forall_mem_some {p : Instr → Prop} {j : Instr} : (∀ i ∈ some j, p i) ↔ p j := by simp

theorem forall_mem_none {p : Instr → Prop} : (∀ i ∈ (none : Option Instr), p i) ↔ True := by simp

theorem isCore_of_decodeScalar (n t op w : Nat) : ∀ i ∈ decodeScalar n t op w, isCore i = true := by
  unfold decodeScalar
  dsimp only
  repeat' split
  all_goals simp only [forall_mem_ok, forall_mem_some, forall_mem_none]
  all_goals (intros; rfl)

theorem isCore_of_decodeVector (n t op w : Nat) : ∀ i ∈ decodeVector n t op w, isCore i = true := by
  unfold decodeVector
  dsimp only
  repeat' split
  all_goals simp only [forall_mem_ok, forall_mem_none]
  all_goals (intros; rfl)

theorem isCore_of_decodeTensor (n t op w : Nat) : ∀ i ∈ decodeTensor n t op w, isCore i = true := by
  unfold decodeTensor
  dsimp only
  split
  all_goals simp only [forall_mem_ok, forall_mem_none]
  all_goals (intros; rfl)

theorem isCore_of_decodeMemory (n t op w : Nat) : ∀ i ∈ decodeMemory n t op w, isCore i = true := by
  unfold decodeMemory
  dsimp only
  split
  all_goals simp only [forall_mem_ok, forall_mem_none]
  all_goals (intros; rfl)

theorem isCore_of_decodeSync (n t op w : Nat) : ∀ i ∈ decodeSync n t op w, isCore i = true := by
  unfold decodeSync
  dsimp only
  split
  all_goals simp only [forall_mem_ok, forall_mem_some, forall_mem_none]
  all_goals (intros; rfl)

theorem isCore_of_decodeFabric (n t op w : Nat) : ∀ i ∈ decodeFabric n t op w, isCore i = true := by
  unfold decodeFabric
  dsimp only
  split
  all_goals simp only [forall_mem_ok, forall_mem_some, forall_mem_none]
  all_goals (intros; rfl)

theorem isCore_of_decodeMonitor (n t op w : Nat) : ∀ i ∈ decodeMonitor n t op w, isCore i = true := by
  unfold decodeMonitor
  dsimp only
  repeat' split
  all_goals simp only [forall_mem_some, forall_mem_none]
  all_goals rfl

theorem isCore_of_decodeCore {n t w : Nat} (h : decodeCore n t w = some i) : isCore i = true := by
  unfold decodeCore at h
  dsimp only at h
  split at h
  · cases h
  · split at h
    · exact isCore_of_decodeScalar n t _ w i h
    · exact isCore_of_decodeVector n t _ w i h
    · exact isCore_of_decodeTensor n t _ w i h
    · exact isCore_of_decodeMemory n t _ w i h
    · exact isCore_of_decodeSync n t _ w i h
    · exact isCore_of_decodeFabric n t _ w i h
    · exact isCore_of_decodeMonitor n t _ w i h
    · cases h

theorem issueThread_of_decode {s' : State} (hd : (s.thr n t).dfr = none) (hpc : pcOk t ((s.thr n t).pc.toNat) = true)
    (hgood : tget false (s.core n).isBad ((s.thr n t).pc.toNat / 8) = false)
    (hi : decodeCore n t (fetchWord s n t) = some i) (hx : exec i s = .next s') : issueThread s n t = s' := by
  unfold issueThread
  dsimp only
  rw [hd, hpc, hgood, hi]
  dsimp only
  rw [runCore_eq_exec (isCore_of_decodeCore hi), hx]
  rfl

/-! ### A cycle in which one thread is READY -/

/-- The pass that takes a yield back, of a core none of whose threads yielded. -/
theorem unskip_nothing {tb : Tbl Thread} (h : ∀ u, (tget {} tb u : Thread).skip = false) (ts : List Nat) :
    ts.foldl (fun tb t =>
      if (tget ({} : Thread) tb t).skip then tmod {} tb t fun x => { x with skip := false } else tb) tb = tb := by
  induction ts with
  | nil => rfl
  | cons u us ih => rw [List.foldl_cons, h, if_neg Bool.false_ne_true, ih]

/-- The kernel threads in the order of R86, each once. -/
theorem nodup_kernelOrder (last : Nat) : ((List.range 15).map fun i => (last + i) % 15 + 1).Nodup := by
  refine List.Nodup.map_on (fun i hi j hj h => ?_) List.nodup_range
  have := List.mem_range.mp hi
  have := List.mem_range.mp hj
  omega

theorem mem_kernelOrder (last : Nat) (h0 : 0 < t) (h16 : t < 16) :
    t ∈ (List.range 15).map fun i => (last + i) % 15 + 1 :=
  List.mem_map.mpr ⟨(t + 14 - last % 15) % 15, List.mem_range.mpr (by omega), by omega⟩

theorem issueOrder_single {c : Core} (h0 : 0 < t) (h16 : t < 16) (hr : (c.thread t).st = .ready)
    (hother : ∀ u, u ≠ t → (c.thread u).st ≠ .ready) : issueOrder c = [t] := by
  have hnodup : (0 :: (List.range 15).map fun i => (c.last + i) % 15 + 1).Nodup :=
    List.nodup_cons.mpr ⟨by simp, nodup_kernelOrder c.last⟩
  have hpred : (fun u => decide ((c.thread u).st = .ready)) = (· == t) := by
    funext u
    by_cases hu : u = t
    · simp [hu, hr]
    · simp [hu, hother u hu]
  unfold issueOrder
  dsimp only
  rw [hpred, List.filter_beq, List.count_eq_one_of_mem hnodup (List.mem_cons_of_mem _ (mem_kernelOrder c.last h0 h16))]
  rfl

theorem chooseIssue_single (hskip : ∀ u, (s.thr n u).skip = false) (hother : ∀ u, u ≠ t → (s.thr n u).st ≠ .ready)
    (h0 : 0 < t) (h16 : t < 16) (hr : (s.thr n t).st = .ready) : chooseIssue s n = [t] := by
  have hfilter : ([t].filter fun u => !((s.core n).thread u).skip) = [t] :=
    List.filter_cons_of_pos (congrArg (!·) (hskip t))
  unfold chooseIssue
  dsimp only
  rw [issueOrder_single h0 h16 hr hother, hfilter]
  rfl

theorem issueCycle_single (hrun : issueStopped s n = false) (hskip : ∀ u, (s.thr n u).skip = false)
    (hother : ∀ u, u ≠ t → (s.thr n u).st ≠ .ready) (h0 : 0 < t) (h16 : t < 16) (hr : (s.thr n t).st = .ready) :
    Gives (.issueCycle n) s fun s' => ∃ s0, { s0 with cores := s.cores } = s ∧ (∀ m, s0.core m = s.core m) ∧
      s' = noteIssued (issueThread s0 n t) n t := by
  have hcore (m : Nat) : (s.setCore n (s.core n)).core m = s.core m := by
    rw [State.core_setCore]
    split
    · next e => rw [e]
    · rfl
  refine ⟨noteIssued (issueThread (s.setCore n (s.core n)) n t) n t, ?_, s.setCore n (s.core n), rfl, hcore, rfl⟩
  have hready : ((s.setCore n (s.core n)).thr n t).st = .ready := by rw [State.thr, hcore]; exact hr
  rw [exec_issueCycle, execIssueCycle, hrun, if_neg Bool.false_ne_true]
  dsimp only [State.modCore]
  rw [chooseIssue_single hskip hother h0 h16 hr, unskip_nothing hskip, List.foldl_cons, List.foldl_nil, if_pos hready]

/-- Settles O22: what a word decodes to is an instruction of a core (`isCore_of_decodeCore`), and a lone READY thread is
the one chosen (`issueOrder_single`). -/
theorem issueCycle : Obligations.IssueCycle :=
  ⟨fun _ _ _ _ _ => issueThread_of_decode, fun _ _ => ⟨fun h => (exec_issueCycle ..).trans (if_pos h),
    fun _ hrun hskip hother h0 h16 hr => issueCycle_single hrun hskip hother h0 h16 hr⟩⟩

end Sys2Proof.Machine
end

section
/-! Barriers, fences and accesses of a thread that its home serves (R101, R102, R283, R285), for O24 and O15. -/

namespace Sys2Proof.Machine

variable {s s1 s2 : State} {n t pr : Nat} {i : Instr}

/-! ### BAR (R101) -/

/-- A thread that a barrier frees: it goes on, or its hold does (R101, R104). -/
def freedThread (x : Thread) : Thread :=
  if x.st = .waiting then retire x
  else if x.st = .held then { x with prev := .ready, prevWait := .nothing, pc := x.pc + 8 } else x

/-- Of a core, threads and who may pass a barrier may differ, and who may pass has only grown. -/
structure Freed (c c' : Core) : Prop where
  rest : { c' with thr := c.thr, passed := c.passed } = c
  passed : ∀ e ∈ c.passed, e ∈ c'.passed

theorem Freed.refl (c : Core) : Freed c c := ⟨rfl, fun _ => id⟩

theorem Freed.trans {c₁ c₂ c₃ : Core} (h : Freed c₁ c₂) (g : Freed c₂ c₃) : Freed c₁ c₃ where
  rest := by
    have h1 := h.rest; have g1 := g.rest
    calc { c₃ with thr := c₁.thr, passed := c₁.passed }
        = { ({ c₃ with thr := c₂.thr, passed := c₂.passed } : Core) with thr := c₁.thr, passed := c₁.passed } := rfl
      _ = c₁ := by rw [g1, h1]
  passed e he := g.passed e (h.passed e he)

theorem freed_freeBar (mask : BitVec 16) (c : Core) (t : Nat) : Freed c (freeBar mask c t) := by
  unfold freeBar
  dsimp only
  split
  · exact ⟨rfl, fun _ => id⟩
  · split
    · exact ⟨rfl, fun _ => id⟩
    · exact ⟨rfl, fun e he => List.mem_append_left _ he⟩

theorem thread_freeBar (mask : BitVec 16) (c : Core) (t u : Nat) :
    (freeBar mask c t).thread u = if u = t then freedThread (c.thread t) else c.thread u := by
  unfold freeBar freedThread
  dsimp only
  split
  · exact Core.thread_setThread ..
  · split
    · exact Core.thread_setThread ..
    · split
      · next e => rw [e]; rfl
      · rfl

/-- A thread that is neither waiting nor held at a barrier passes it when it issues its BAR again. -/
theorem passed_freeBar {mask : BitVec 16} {c : Core} {t : Nat} (hw : (c.thread t).st ≠ .waiting)
    (hh : (c.thread t).st ≠ .held) : (t, mask) ∈ (freeBar mask c t).passed := by
  simp [freeBar, hw, hh]

theorem freeBars_frame (mask : BitVec 16) (ts : List Nat) (c : Core) : Freed c (ts.foldl (freeBar mask) c) := by
  induction ts generalizing c with
  | nil => exact .refl c
  | cons u us ih => exact (freed_freeBar ..).trans (ih _)

theorem freeBars_thread (mask : BitVec 16) {ts : List Nat} (hn : ts.Nodup) (c : Core) (u : Nat) :
    (ts.foldl (freeBar mask) c).thread u = if u ∈ ts then freedThread (c.thread u) else c.thread u := by
  induction ts generalizing c with
  | nil => rfl
  | cons v vs ih =>
    obtain ⟨hv, hvs⟩ := List.nodup_cons.mp hn
    rw [List.foldl_cons, ih hvs, thread_freeBar]
    by_cases hu : u = v
    · subst hu; simp [hv]
    · simp [hu]

theorem freeBars_passed (mask : BitVec 16) {ts : List Nat} (hn : ts.Nodup) {c : Core} {u : Nat} (hu : u ∈ ts)
    (hr : (c.thread u).st = .ready) : (u, mask) ∈ (ts.foldl (freeBar mask) c).passed := by
  induction ts generalizing c with
  | nil => cases hu
  | cons v vs ih =>
    obtain ⟨hv, hvs⟩ := List.nodup_cons.mp hn
    rw [List.foldl_cons]
    by_cases huv : u = v
    · subst huv
      exact (freeBars_frame ..).passed _ (passed_freeBar (by simp [hr]) (by simp [hr]))
    · refine ih hvs ((List.mem_cons.mp hu).resolve_left huv) ?_
      rw [thread_freeBar, if_neg huv, hr]

/-- The threads that a mask names besides the issuing one. -/
def barOthers (mask : BitVec 16) (t : Nat) : List Nat := (List.range 16).filter fun i => mask.getLsbD i && i != t

theorem nodup_barOthers (mask : BitVec 16) (t : Nat) : (barOthers mask t).Nodup := List.nodup_range.filter _

theorem mem_barOthers {mask : BitVec 16} {u : Nat} :
    u ∈ barOthers mask t ↔ u < 16 ∧ mask.getLsbD u = true ∧ u ≠ t := by simp [barOthers]

/-- The threads that have arrived once `t` has. -/
theorem barFull_arrived {l : List (Nat × BitVec 16)} {mask : BitVec 16} :
    barFull (l ++ [(t, mask)]) mask = true ↔ ∀ u, u < 16 → mask.getLsbD u = true → u = t ∨ l.contains (u, mask) = true := by
  simp only [barFull, List.all_eq_true, List.mem_range, Bool.or_eq_true, Bool.not_eq_true', List.contains_iff_mem,
    List.mem_append, List.mem_singleton, Prod.mk.injEq, and_true]
  refine forall_congr' fun u => imp_congr_right fun _ => ?_
  cases mask.getLsbD u
  · simp
  · simp [or_comm]

/-- A core after a barrier whose last thread is `t`, but for `t` itself. -/
def barFreed (c : Core) (t : Nat) (mask : BitVec 16) : Core :=
  (barOthers mask t).foldl (freeBar mask) { c with arrived := (c.arrived ++ [(t, mask)]).filter fun e => e.2 ≠ mask }

theorem clear_barChecks {mask : BitVec 16} (h0 : mask.getLsbD 0 = false) (ht : mask.getLsbD t = true) :
    Clear [(mask.getLsbD 0 || !mask.getLsbD t, cILLEGAL, 0)] := by
  refine clear_cons.mpr ⟨?_, clear_nil⟩
  rw [h0, ht]
  rfl

section
variable {mask : BitVec 16} (hi : MayIssue s n t pr) (h0 : mask.getLsbD 0 = false) (ht : mask.getLsbD t = true)
  (harr : (s.core n).arrived.contains (t, mask) = false)
include hi h0 ht

theorem bar_passes (hp : (s.core n).passed.contains (t, mask) = true) :
    Gives (.bar n t pr mask) s fun s' =>
      OnlyCore s s' n ∧ Retired (s.thr n t) (s'.thr n t) ∧ SameRegs (s.thr n t) (s'.thr n t) ∧
      (∀ u, u ≠ t → s'.thr n u = s.thr n u) ∧ (s'.core n).arrived = (s.core n).arrived ∧
      (s'.core n).passed = removeOne (t, mask) (s.core n).passed := by
  refine gives_of_coreEffect hi (exec_bar ..) (clear_barChecks h0 ht) (if_pos hp) rfl ⟨fun u hu => ?_, ?_, ?_⟩
  · rw [State.thr_modThr, if_neg fun e => hu e.2, State.thr, State.core_setCore_same]; rfl
  · rw [State.core_modThr_same, State.core_setCore_same]; rfl
  · rw [State.core_modThr_same, State.core_setCore_same]; rfl

include harr

theorem bar_frees (hfull : ∀ u, u < 16 → mask.getLsbD u = true → u = t ∨ (s.core n).arrived.contains (u, mask) = true)
    (hp : (s.core n).passed.contains (t, mask) = false) :
    Gives (.bar n t pr mask) s fun s' =>
      OnlyCore s s' n ∧ Retired (s.thr n t) (s'.thr n t) ∧ SameRegs (s.thr n t) (s'.thr n t) ∧
      (∀ u, u < 16 → u ≠ t → mask.getLsbD u = true → (s.thr n u).st = .waiting →
        Retired (s.thr n u) (s'.thr n u) ∧ SameRegs (s.thr n u) (s'.thr n u)) ∧
      (∀ u, u < 16 → u ≠ t → mask.getLsbD u = true → (s.thr n u).st = .held →
        (s'.thr n u).st = .held ∧ (s'.thr n u).prev = .ready ∧ (s'.thr n u).pc = (s.thr n u).pc + 8 ∧
        SameRegs (s.thr n u) (s'.thr n u)) ∧
      (∀ u, u < 16 → u ≠ t → mask.getLsbD u = true → (s.thr n u).st = .ready →
        s'.thr n u = s.thr n u ∧ (u, mask) ∈ (s'.core n).passed) ∧
      (∀ u, mask.getLsbD u = false → u ≠ t → s'.thr n u = s.thr n u) ∧
      ∀ e ∈ (s'.core n).arrived, e.2 ≠ mask := by
  have hframe : Freed _ (barFreed (s.core n) t mask) := freeBars_frame ..
  have hthread (u : Nat) : (barFreed (s.core n) t mask).thread u =
      if u ∈ barOthers mask t then freedThread (s.thr n u) else s.thr n u := freeBars_thread mask (nodup_barOthers ..) ..
  have hself : (barFreed (s.core n) t mask).thread t = s.thr n t := by
    rw [hthread, if_neg fun h => (mem_barOthers.mp h).2.2 rfl]
  have hthr (u : Nat) (hu : u ≠ t) : ((s.setCore n (barFreed (s.core n) t mask)).modThr n t retire).thr n u =
      if u ∈ barOthers mask t then freedThread (s.thr n u) else s.thr n u := by
    rw [State.thr_modThr, if_neg fun e => hu e.2, State.thr, State.core_setCore_same, hthread]
  have hcore : ((s.setCore n (barFreed (s.core n) t mask)).modThr n t retire).core n =
      (barFreed (s.core n) t mask).setThread t (retire (s.thr n t)) := by
    rw [State.core_modThr_same, State.thr, State.core_setCore_same, hself]
  refine gives_of_coreEffect (c := barFreed (s.core n) t mask) hi (exec_bar ..) (clear_barChecks h0 ht) ?_ hself
    ⟨fun u hu hut hm hs => ?_, fun u hu hut hm hs => ?_, fun u hu hut hm hs => ?_, fun u hm hut => ?_, ?_⟩
  · dsimp only
    rw [hp, harr, if_neg Bool.false_ne_true, if_neg Bool.false_ne_true, if_pos (barFull_arrived.mpr hfull)]
    rfl
  · rw [hthr u hut, if_pos (mem_barOthers.mpr ⟨hu, hm, hut⟩), freedThread, if_pos hs]
    exact ⟨⟨rfl, rfl, rfl⟩, sameRegs_retire _⟩
  · rw [hthr u hut, if_pos (mem_barOthers.mpr ⟨hu, hm, hut⟩), freedThread, if_neg (by simp [hs]), if_pos hs]
    exact ⟨hs, rfl, rfl, sameRegs_of rfl rfl rfl rfl rfl⟩
  · have hmem := mem_barOthers.mpr ⟨hu, hm, hut⟩
    rw [hthr u hut, if_pos hmem, freedThread, if_neg (by simp [hs]), if_neg (by simp [hs]), hcore]
    exact ⟨rfl, freeBars_passed mask (nodup_barOthers ..) hmem hs⟩
  · rw [hthr u hut, if_neg fun h => Bool.false_ne_true (hm.symm.trans (mem_barOthers.mp h).2.1)]
  · rw [hcore]
    have harrived : (barFreed (s.core n) t mask).arrived =
        ((s.core n).arrived ++ [(t, mask)]).filter fun e => e.2 ≠ mask := (congrArg Core.arrived hframe.rest :)
    intro e he
    have hmem : e ∈ (barFreed (s.core n) t mask).arrived := he
    rw [harrived] at hmem
    simpa using (List.mem_filter.mp hmem).2

theorem bar_waits (hnot : ¬ ∀ u, u < 16 → mask.getLsbD u = true → u = t ∨ (s.core n).arrived.contains (u, mask) = true)
    (hp : (s.core n).passed.contains (t, mask) = false) :
    Gives (.bar n t pr mask) s fun s' =>
      OnlyCore s s' n ∧ (s'.thr n t).st = .waiting ∧ (s'.thr n t).wait = .bar mask ∧
      (s'.thr n t).pc = (s.thr n t).pc ∧ SameRegs (s.thr n t) (s'.thr n t) ∧
      (∀ u, u ≠ t → s'.thr n u = s.thr n u) ∧ (s'.core n).arrived = (s.core n).arrived ++ [(t, mask)] := by
  have hthr (u : Nat) : (s.setCore n { s.core n with arrived := (s.core n).arrived ++ [(t, mask)] }).thr n u = s.thr n u := by
    rw [State.thr, State.core_setCore_same]; rfl
  obtain ⟨honly, hst, hwait, hpc, hregs⟩ := waits_block (w := .bar mask) (b := none)
    (s := s.setCore n { s.core n with arrived := (s.core n).arrived ++ [(t, mask)] }) (n := n) (t := t)
    (by rw [hthr]; exact hi.ready)
  refine ⟨_, (exec_bar ..).trans (coreStep_stay hi.runs hi.next (firstCheck_clear (clear_barChecks h0 ht)) ?_),
    (onlyCore_setCore ..).trans ⟨honly.rest, honly.cores⟩, hst, hwait, ?_, ?_, fun u hu => ?_, ?_⟩
  · dsimp only
    rw [hp, harr, if_neg Bool.false_ne_true, if_neg Bool.false_ne_true, if_neg fun h => hnot (barFull_arrived.mp h)]
  · rw [hpc, hthr]
  · rw [hthr] at hregs; exact hregs
  · rw [honly.threads u hu, hthr]
  · rw [block, State.core_modThr_same, State.core_setCore_same]; rfl

end

/-! ### FENCE (R283) -/

theorem clear_fenceChecks {vis : Nat} (h : vis ≤ 2) : Clear [(decide (2 < vis), cILLEGAL, 0)] := by simp [h]

/-- One link of `askZlr`. -/
def askZlrLink (n t : Nat) (s : State) (l : Nat) : State :=
  if (s.link l).zlr.contains (.thread n t) then s
  else s.setLink l { s.link l with zlr := (s.link l).zlr ++ [.thread n t] }

theorem askZlr_eq (s : State) (n t : Nat) : askZlr s n t = (s.thr n t).hostLinks.foldl (askZlrLink n t) s := rfl

theorem askZlrLink_cores (n t : Nat) (s : State) (l : Nat) : (askZlrLink n t s l).cores = s.cores := by
  unfold askZlrLink
  split <;> rfl

theorem askZlrLink_asks (n t : Nat) (s : State) (l : Nat) : ZWho.thread n t ∈ ((askZlrLink n t s l).link l).zlr := by
  unfold askZlrLink
  split
  · next h => simpa using h
  · rw [State.link_setLink_same]; simp

theorem askZlrLink_keeps {w : ZWho} {k : Nat} (n t : Nat) (l : Nat) (h : w ∈ (s.link k).zlr) :
    w ∈ ((askZlrLink n t s l).link k).zlr := by
  unfold askZlrLink
  split
  · exact h
  · rw [State.link_setLink]
    split
    · next e => exact List.mem_append_left _ (e ▸ h)
    · exact h

theorem askZlrLinks_keeps {w : ZWho} {k : Nat} (n t : Nat) (ls : List Nat) :
    ∀ {s : State}, w ∈ (s.link k).zlr → w ∈ ((ls.foldl (askZlrLink n t) s).link k).zlr := by
  induction ls with
  | nil => exact fun h => h
  | cons l ls ih => exact fun h => ih (askZlrLink_keeps n t l h)

theorem askZlrLinks_asks (n t : Nat) {ls : List Nat} : ∀ {s : State} {l : Nat}, l ∈ ls →
    ZWho.thread n t ∈ ((ls.foldl (askZlrLink n t) s).link l).zlr := by
  induction ls with
  | nil => intro s l h; cases h
  | cons k ks ih =>
    intro s l h
    rcases List.mem_cons.mp h with rfl | h
    · exact askZlrLinks_keeps n t ks (askZlrLink_asks n t s l)
    · exact ih h

theorem askZlr_cores (s : State) (n t : Nat) : (askZlr s n t).cores = s.cores := by
  rw [askZlr_eq]
  generalize (s.thr n t).hostLinks = ls
  induction ls generalizing s with
  | nil => rfl
  | cons l ls ih => rw [List.foldl_cons, ih, askZlrLink_cores]

theorem thr_of_cores {s s' : State} (h : s'.cores = s.cores) (n t : Nat) : s'.thr n t = s.thr n t := by
  unfold State.thr State.core; rw [h]

section
variable {vis : Nat} (hi : MayIssue s n t pr)
include hi

theorem fence_retires (hv : vis ≤ 2) (h : writesPending s n t vis = false) : ThreadGives s n t (.fence n t pr vis) SameRegs :=
  gives_nothing hi (exec_fence ..) (clear_fenceChecks hv) (if_neg (by simp [h]))

theorem fence_waits (hv : vis < 2) (h : writesPending s n t vis = true) :
    Gives (.fence n t pr vis) s fun s' => Waits s s' n t (.fence vis) :=
  gives_wait (b := none) hi (exec_fence ..) (clear_fenceChecks (by omega)) ((if_pos h).trans (by rw [if_neg (by omega)]))

theorem fence_asks (h : writesPending s n t 2 = true) :
    Gives (.fence n t pr 2) s fun s' =>
      (s'.thr n t).st = .waiting ∧ (s'.thr n t).wait = .fence 2 ∧
      ∀ l ∈ (s.thr n t).hostLinks, ZWho.thread n t ∈ (s'.link l).zlr := by
  have hready : ((askZlr s n t).thr n t).st = .ready := by rw [thr_of_cores (askZlr_cores ..)]; exact hi.ready
  obtain ⟨-, hst, hwait, -, -⟩ := waits_block (w := .fence 2) (b := none) hready
  refine ⟨block (askZlr s n t) n t (.fence 2) none,
    (exec_fence ..).trans (coreStep_stay hi.runs hi.next (firstCheck_clear (clear_fenceChecks le_rfl)) (if_pos h)),
    hst, hwait, fun l hl => ?_⟩
  rw [askZlr_eq]
  exact askZlrLinks_asks n t hl

end

/-! ### Accesses that translate and that their home serves -/

theorem Fresh.notHeld {a : Agent} (h : Fresh s a) (acc v k : Nat) :
    (s.xlt.atHome.find? fun e => e.is a acc v k) = none := by
  refine List.find?_eq_none.mpr fun e he his => h.held e he ?_
  simp only [XHeld.is, Bool.and_eq_true, decide_eq_true_eq] at his
  exact his.1.1.1

/-- An access within one page. -/
theorem xlateAll_fresh {rq : Req} {acc v k : Nat} {g : Tgt} (hf : Fresh s rq.agent) (hk : 0 < k)
    (hpage : v % 2 ^ 26 + k ≤ 2 ^ 26) (hx : xlate s rq acc v k = (s1, .ok g)) :
    xlateAll s rq acc v k = (s1, .ok [(g, k)]) := by
  have hmin : min k (2 ^ 26 - v % 2 ^ 26) = k := by omega
  have hrest : xlateRange (k / 2 ^ 26 + 1) s1 rq acc (v + k) (k - k) = (s1, .ok []) := by
    rw [Nat.sub_self, xlateRange, if_pos rfl]
  rw [xlateAll, hf.notHeld]
  dsimp only
  rw [xlateRange, if_neg (by omega), hmin]
  dsimp only
  rw [hx]
  dsimp only
  rw [hrest]

theorem OnlyXltSys.host {s s' : State} (h : OnlyXltSys s s') : s'.host = s.host := (congrArg State.host h :)
theorem OnlyXltSys.cores {s s' : State} (h : OnlyXltSys s s') : s'.cores = s.cores := (congrArg State.cores h :)
theorem OnlyPath.cores {s s' : State} (h : OnlyPath s s') : s'.cores = s.cores := (congrArg State.cores h :)
theorem OnlyPath.host {s s' : State} (h : OnlyPath s s') : s'.host = s.host := (congrArg State.host h :)

theorem readsOf_of_host {s s' : State} (h : s'.host = s.host) (a : Agent) : readsOf s' a = readsOf s a := by
  unfold readsOf; rw [h]

section
variable {rq : Req} {acc v k dpa : Nat} {bs : List Byte}

theorem hostLinks_dev (a k : Nat) : hostLinks [(.dev a, k)] = [] := rfl
theorem hostLinks_host (l a k : Nat) : hostLinks [(.host l a, k)] = [l] := rfl
theorem answers_nil : answers [] = some [] := rfl

theorem readPieces_dev (hm : memRead s dpa k = (s2, .ok bs)) : readPieces s [(.dev dpa, k)] [] = (s2, .ok bs) := by
  have hnil : readPieces s2 [] [] = (s2, .ok []) := by rw [readPieces]
  rw [readPieces, hm]
  dsimp only
  rw [hnil]
  dsimp only
  rw [List.append_nil]

theorem readPieces_dev_error {f : Fail} (hm : memRead s dpa k = (s2, .error f)) :
    readPieces s [(.dev dpa, k)] [] = (s2, .error f) := by
  rw [readPieces, hm]

/-- A read of device memory that its home serves. -/
theorem readAt_dev (hr : readsOf s rq.agent = []) (hm : memRead s dpa k = (s2, .ok bs)) :
    readAt s rq acc v k [(.dev dpa, k)] = .done (readsDone s2 rq.agent) bs [] := by
  unfold readAt
  dsimp only
  rw [hr, hostLinks_dev, if_neg (by simp), answers_nil]
  dsimp only
  rw [readPieces_dev hm]

/-- A read of device memory that its home holds. -/
theorem readAt_dev_held {h : Nat} (hr : readsOf s rq.agent = []) (hm : memRead s dpa k = (s2, .error (.held h))) :
    readAt s rq acc v k [(.dev dpa, k)] = .waits (holdAt s2 rq acc v k [(.dev dpa, k)]) := by
  unfold readAt
  dsimp only
  rw [hr, hostLinks_dev, if_neg (by simp), answers_nil]
  dsimp only
  rw [readPieces_dev_error hm]

end

/-! ### WAITG and its poll (R102, R285) -/

section
variable {rq : Req} {v dpa : Nat} {bs : List Byte}

theorem pollRead_dev (hf : Fresh s rq.agent) (ha : v % 8 = 0) (hx : xlate s rq 0 v 8 = (s1, .ok (.dev dpa)))
    (hm : memRead s1 dpa 8 = (s2, .ok bs)) (h : HostVal) : pollRead s rq v h = .done (readsDone s2 rq.agent) bs [] := by
  have hreads : readsOf s1 rq.agent = [] := (readsOf_of_host (onlyXltSys_xlate hx).host _).trans hf.reads
  unfold pollRead
  rw [xlateAll_fresh hf (by omega) (by omega) hx]
  dsimp only
  rw [hostLinks_dev]
  exact readAt_dev hreads hm

theorem pollRead_host {l : Nat} {w : Word} (hf : Fresh s rq.agent) (ha : v % 8 = 0)
    (hx : xlate s rq 0 v 8 = (s1, .ok (.host l dpa))) (hr : (s1.link l).retraining = false) :
    pollRead s rq v (.word w) = .done s1 (leBytes 8 w.toNat) [] := by
  unfold pollRead
  rw [xlateAll_fresh hf (by omega) (by omega) hx]
  dsimp only
  rw [hostLinks_host]
  dsimp only [List.head?_cons]
  rw [hr, if_neg Bool.false_ne_true]

end

/-- A word is its eight bytes. -/
theorem word_leBytes (w : Word) : BitVec.ofNat 64 (leNat (leBytes 8 w.toNat)) = w := by
  rw [leNat_leBytes, show (256 : Nat) ^ 8 = 2 ^ 64 from rfl, Nat.mod_eq_of_lt w.isLt, BitVec.ofNat_toNat,
    BitVec.setWidth_eq]

theorem clear_dvaChecks {v size : Nat} (ha : v % size = 0) (hv : v < 2 ^ 56) : Clear (dvaChecks v size) := by
  refine clear_cons.mpr ⟨by simp [ha], clear_cons.mpr ⟨decide_eq_false (by omega), clear_nil⟩⟩

section
variable {a b cmp : Nat} {bs : List Byte}

/-- WAITG once its word is read. -/
theorem waitgStep_done {h : HostVal} {ls : List Nat} (hi : MayIssue s n t pr) (ha : ((s.thr n t).rs a).toNat % 8 = 0)
    (hv : ((s.thr n t).rs a).toNat < 2 ^ 56)
    (hp : pollRead s (coreReq s n t (.thread n t)) ((s.thr n t).rs a).toNat h = .done s2 bs ls) :
    waitgStep n t pr a b cmp h s =
      .next (if pollHolds cmp (BitVec.ofNat 64 (leNat bs)) ((s.thr n t).rs b) = true then s2.modThr n t retire
        else block s2 n t .waitg (some (.waitg pr a b cmp))) := by
  have hclear := firstCheck_clear (clear_dvaChecks ha hv)
  have hpoll : pollWaitg n t pr a b cmp h s =
      if pollHolds cmp (BitVec.ofNat 64 (leNat bs)) ((s.thr n t).rs b) = true then .done s2
      else waitgStay s2 n t (.waitg pr a b cmp) := by
    unfold pollWaitg
    dsimp only
    rw [hp]
  unfold waitgStep
  by_cases hh : pollHolds cmp (BitVec.ofNat 64 (leNat bs)) ((s.thr n t).rs b) = true
  · rw [if_pos hh] at hpoll ⊢
    exact coreStep_done hi.runs hi.next hclear hpoll
  · rw [if_neg hh] at hpoll ⊢
    exact coreStep_stay hi.runs hi.next hclear hpoll

theorem waitg_step {dpa : Nat} (hf : Fresh s (.thread n t)) (hi : MayIssue s n t pr)
    (ha : ((s.thr n t).rs a).toNat % 8 = 0) (hv : ((s.thr n t).rs a).toNat < 2 ^ 56)
    (hx : xlate s (coreReq s n t (.thread n t)) 0 ((s.thr n t).rs a).toNat 8 = (s1, .ok (.dev dpa)))
    (hm : memRead s1 dpa 8 = (s2, .ok bs)) :
    exec (.waitg n t pr a b cmp) s =
      .next (if pollHolds cmp (BitVec.ofNat 64 (leNat bs)) ((s.thr n t).rs b) = true then
          (readsDone s2 (.thread n t)).modThr n t retire
        else block (readsDone s2 (.thread n t)) n t .waitg (some (.waitg pr a b cmp))) :=
  (exec_waitg ..).trans (waitgStep_done hi ha hv (pollRead_dev hf ha hx hm .none))

/-- A thread that polls, as its next poll finds it. -/
def pollAgain (s : State) (n t : Nat) : State := s.setThr n t { s.thr n t with st := .ready, dfr := none }

/-- A thread that waits in WAITG. -/
structure Polling (s : State) (n t pr a b cmp : Nat) : Prop where
  st : (s.thr n t).st = .waiting
  wait : (s.thr n t).wait = .waitg
  blk : (s.thr n t).blk = some (.waitg pr a b cmp)
  predicate : ((s.thr n t).rp pr).getLsbD 0 = true
  next : pcOk t ((s.thr n t).pc.toNat + 8) = true

theorem fresh_pollAgain (h : Fresh s (.thread n t)) :
    Fresh (pollAgain s n t) (coreReq (pollAgain s n t) n t (.thread n t)).agent := ⟨h.held, h.reads⟩

theorem thr_pollAgain (s : State) (n t : Nat) :
    (pollAgain s n t).thr n t = { s.thr n t with st := .ready, dfr := none } := State.thr_setThr_same ..

theorem Polling.mayIssue (h : Polling s n t pr a b cmp) : MayIssue (pollAgain s n t) n t pr where
  ready := by rw [thr_pollAgain]
  noDeferred := by rw [thr_pollAgain]
  next := by rw [thr_pollAgain]; exact h.next
  predicate := by rw [thr_pollAgain]; exact h.predicate

/-- A poll that reads word `w` in state `u`: the thread goes on once the comparison holds, and waits otherwise. -/
theorem poll_goesOn {host : Option Word} {ls : List Nat} {u : State} {w : Word} (hq : Polling s n t pr a b cmp)
    (ha : ((s.thr n t).rs a).toNat % 8 = 0) (hv : ((s.thr n t).rs a).toNat < 2 ^ 56)
    (hp : pollRead (pollAgain s n t) (coreReq (pollAgain s n t) n t (.thread n t)) ((s.thr n t).rs a).toNat
      (HostVal.of host) = .done s2 bs ls)
    (hthr : s2.cores = (pollAgain s n t).cores) (hmem : s2.mem = u.mem) (hgmem : s2.gmem = u.gmem)
    (hw : BitVec.ofNat 64 (leNat bs) = w) :
    Gives (.waitgPollRead n t host) s fun s' =>
      SameRegs (s.thr n t) (s'.thr n t) ∧ s'.mem = u.mem ∧ s'.gmem = u.gmem ∧
      if pollHolds cmp w ((s.thr n t).rs b) = true then Retired (s.thr n t) (s'.thr n t)
      else (s'.thr n t).st = .waiting ∧ (s'.thr n t).wait = .waitg ∧ (s'.thr n t).pc = (s.thr n t).pc ∧
        (s'.thr n t).blk = (s.thr n t).blk := by
  have hrs (j : Nat) : ((pollAgain s n t).thr n t).rs j = (s.thr n t).rs j := by rw [thr_pollAgain]; rfl
  have hthr2 : s2.thr n t = { s.thr n t with st := .ready, dfr := none } :=
    (thr_of_cores hthr n t).trans (thr_pollAgain ..)
  have hstep := waitgStep_done (b := b) (cmp := cmp) hq.mayIssue (by rwa [hrs]) (by rwa [hrs]) (by rw [hrs]; exact hp)
  rw [hw, hrs] at hstep
  have hexec (u' : State) (hu : waitgStep n t pr a b cmp (HostVal.of host) (pollAgain s n t) = .next u') :
      exec (.waitgPollRead n t host) s =
        .next (u'.modThr n t fun x => { x with dfr := if x.dfr.isSome then x.dfr else (s.thr n t).dfr }) := by
    rw [exec_waitgPollRead, execWaitgPollRead]
    dsimp only
    split
    · next hst hblk =>
      obtain ⟨rfl, rfl, rfl, rfl⟩ := Blk.waitg.inj (Option.some.inj (hq.blk.symm.trans hblk))
      split
      · next h =>
        obtain rfl := Host.Outcome.next.inj (h.symm.trans hu)
        rfl
      · next h => exact absurd hu (h u')
    · next h => exact absurd hq.blk (h _ _ _ _ hq.st)
  by_cases hh : pollHolds cmp w ((s.thr n t).rs b) = true
  · rw [if_pos hh] at hstep
    refine ⟨_, hexec _ hstep, ?_, hmem, hgmem, ?_⟩
    · rw [State.modThr_modThr, hthr2]
      exact sameRegs_of rfl rfl rfl rfl rfl
    · rw [if_pos hh, State.modThr_modThr, hthr2]
      exact ⟨rfl, rfl, rfl⟩
  · rw [if_neg hh] at hstep
    refine ⟨_, hexec _ hstep, ?_, hmem, hgmem, ?_⟩
    · rw [block, State.modThr_modThr, hthr2]
      exact sameRegs_of rfl rfl rfl rfl rfl
    · rw [if_neg hh, block, State.modThr_modThr, hthr2]
      exact ⟨rfl, rfl, rfl, hq.blk.symm⟩

end

/-- Settles O24: a barrier frees each thread once (`freeBars_thread`), a fence looks at the writes that are out, and a
poll reads its word at its home (`pollRead_dev`) or takes what its read returned (`pollRead_host`). -/
theorem threadWaits : Obligations.ThreadWaits := by
  refine ⟨fun n t pr mask s hi _ _ h0 ht harr => ⟨bar_passes hi h0 ht, bar_frees hi h0 ht harr, bar_waits hi h0 ht harr⟩,
    fun n t pr vis s hi hv => ⟨fence_retires hi hv, fun h hv2 => ?fence, fence_asks hi⟩,
    fun n t pr a b cmp dpa bs host s s1 s2 hf ha hv => ⟨fun hi hx hm => waitg_step hf hi ha hv hx hm,
      fun hpoll hx hm => ?dev, fun l w hpoll hx hr => ?host⟩⟩
  case fence =>
    obtain ⟨s', hs', hw⟩ := fence_waits hi hv2 h
    exact ⟨s', hs', hw.only, hw.st, hw.wait, hw.pc, hw.regs⟩
  case dev =>
    obtain ⟨hst, hwait, hblk, hp, hn⟩ := hpoll
    have honly := onlyPath_memRead s1 dpa 8
    rw [hm] at honly
    exact poll_goesOn ⟨hst, hwait, hblk, hp, hn⟩ ha hv (pollRead_dev (fresh_pollAgain hf) ha hx hm _)
      (honly.cores.trans (onlyXltSys_xlate hx).cores) rfl rfl rfl
  case host =>
    obtain ⟨hst, hwait, hblk, hp, hn⟩ := hpoll
    have honly := onlyXltSys_xlate hx
    exact poll_goesOn ⟨hst, hwait, hblk, hp, hn⟩ ha hv (pollRead_host (fresh_pollAgain hf) ha hx hr) honly.cores
      (congrArg State.mem honly :) (congrArg State.gmem honly :) (word_leBytes w)

end Sys2Proof.Machine
end

section
/-! The monitor's THCTL stop, for O27. -/

namespace Sys2Proof.Machine

/-- A read of host memory for thread 1 of core 0 that is not answered, in a second entry of link 0. -/
def strayReads : Tbl Link :=
  [(0, { up := true }), (0, { reads := [⟨none, .thread 0 1, 0, 0, 0, 8, 0, 0, none⟩] })]

/-- The monitor of core 0 with register 1 naming thread 1, which is OFF. -/
def strayState : State :=
  { cores := [(0, { thr := [(0, { st := .ready, s := [(1, 1)] })] })]
    host := { links := strayReads } }

theorem strayState_mayIssue : MayIssue strayState 0 0 0 :=
  ⟨⟨by decide, by decide, by decide⟩, by decide⟩

/-- Whether a thread waits once an instruction has completed. -/
def waitsAfter (r : Out) (a : Agent) : Bool :=
  match r with
  | .next s => agentWaits s a
  | _ => false

theorem stop_leaves_stray : waitsAfter (exec (.thctlStop 0 0 0 1) strayState) (.thread 0 1) = true := by decide +kernel

/-- Refutes O27: the tables of a state need not be in canonical form. Where the links' table lists link 0 twice, THCTL
stop gives up the thread's reads of the entry that link 0 reads as; the read in the other entry stays, and the stopped
thread waits for it. -/
theorem not_monitorInstructions : ¬ Obligations.MonitorInstructions := by
  intro h
  obtain ⟨-, -, -, -, -, -, -, hstop⟩ := h.1 0 0 1 0 0 strayState strayState_mayIssue (by decide)
  obtain ⟨s', hs', -, -, -, -, -, -, -, -, hno⟩ := hstop (.inr (.inl (by decide)))
  have hstray := stop_leaves_stray
  rw [hs'] at hstray
  exact Bool.false_ne_true (hno.symm.trans hstray)

end Sys2Proof.Machine
end

section
/-! XRECV and the issue of MRED and BELL (R102, R188, R317), for O26. -/

namespace Sys2Proof.Machine

variable {s : State} {n t pr a b c k : Nat} {i : Instr}

theorem SameMemory.trans {s₁ s₂ s₃ : State} (h : SameMemory s₁ s₂) (g : SameMemory s₂ s₃) : SameMemory s₁ s₃ where
  mem x := (g.mem x).trans (h.mem x)
  gmem x := (g.gmem x).trans (h.gmem x)
  hostMem x := (g.hostMem x).trans (h.hostMem x)

theorem sameMemory_modThr (s : State) (n t : Nat) (f : Thread → Thread) : SameMemory s (s.modThr n t f) :=
  sameMemory_of (State.modThr_mem ..) (State.modThr_gmem ..) (State.modThr_hostMem ..)

theorem core_of_cores {s s' : State} (h : s'.cores = s.cores) (n : Nat) : s'.core n = s.core n := by
  unfold State.core; rw [h]

theorem modThr_cores {s s' : State} (h : s'.cores = s.cores) (n t : Nat) (f : Thread → Thread) :
    (s'.modThr n t f).cores = (s.modThr n t f).cores := by
  have hcore (c : Core) : (s'.setCore n c).cores = (s.setCore n c).cores := by
    unfold State.setCore
    rw [h]
  unfold State.modThr State.setThr
  rw [thr_of_cores h, core_of_cores h, hcore]

/-! ### XRECV (R317) -/

theorem State.flink_setFlink (s : State) (l k : Nat) (x : FLink) :
    (s.setFlink l x).flink k = if k = l then x else s.flink k := tget_tset ..

theorem State.flink_setFlink_same (s : State) (l : Nat) (x : FLink) : (s.setFlink l x).flink l = x := tget_tset_same ..

theorem group_modThr (s : State) (n t g : Nat) (f : Thread → Thread) : (s.modThr n t f).group g = s.group g := rfl

theorem flink_modThr (s : State) (n t l : Nat) (f : Thread → Thread) : (s.modThr n t f).flink l = s.flink l := rfl

/-- A state once the oldest raw packet `p` of link `l` has gone to local store, core `n` being `cr`. -/
def received (s : State) (n l : Nat) (cr : Core) (p : FPkt) (ps : List FPkt) : State :=
  rxOwe ((s.setCore n cr).setFlink l { s.flink l with raw := ps }) l p

theorem received_cores (s : State) (n l : Nat) (cr : Core) (p : FPkt) (ps : List FPkt) :
    (received s n l cr p ps).cores = (s.setCore n cr).cores := rfl

theorem received_flink (s : State) (n l : Nat) (cr : Core) (p : FPkt) (ps : List FPkt) :
    (received s n l cr p ps).flink l = { s.flink l with raw := ps, owed := addCredits (s.flink l).owed p } := by
  rw [received, rxOwe, State.flink_setFlink_same, State.flink_setFlink_same]

theorem sameMemory_received (s : State) (n l : Nat) (cr : Core) (p : FPkt) (ps : List FPkt) :
    SameMemory s (received s n l cr p ps) := by
  refine sameMemory_of ?_ ?_ ?_
  all_goals simp [received, rxOwe, State.setFlink]

theorem received_flink_ne {l j : Nat} {cr : Core} {p : FPkt} {ps : List FPkt} (h : j ≠ l) :
    (received s n l cr p ps).flink j = s.flink j := by
  rw [received, rxOwe, State.flink_setFlink, if_neg h, State.flink_setFlink, if_neg h]
  rfl

/-- The issue-time checks of XRECV. -/
def recvChecks (s : State) (n t la l len : Nat) : List Check :=
  [(!rawOk s n t l, cPRIV, 0), (inMon t la len, cPRIV, la),
   (la % 32 != 0 || decide ((if t = 0 then lsTop else monLs) < la + len), cALIGN, la),
   (len % 32 != 0 || decide (len < 32) || decide (253952 < len), cALIGN, 0)]

/-- Operands that XRECV takes. -/
structure RecvOk (s : State) (n t la l len : Nat) : Prop where
  raw : rawOk s n t l = true
  align : la % 32 = 0
  whole : len % 32 = 0
  least : 32 ≤ len
  most : len ≤ 253952
  top : la + len ≤ if t = 0 then lsTop else monLs
  allowed : inMon t la len = false

theorem RecvOk.clear {la l len : Nat} (h : RecvOk s n t la l len) : Clear (recvChecks s n t la l len) := by
  obtain ⟨h1, h2, h3, h4, h5, h6, h7⟩ := h
  simp [recvChecks, h1, h2, h3, h4, h5, h6, h7]

section
variable {la l len : Nat} (hi : MayIssue s n t pr) (hla : ((s.thr n t).rs a).toNat = la)
  (hl : bits ((s.thr n t).rs b).toNat 6 0 = l) (hlen : ((s.thr n t).rs c).toNat = len) (hok : RecvOk s n t la l len)
include hi hla hl hlen hok

theorem xrecv_takes {p : FPkt} {ps : List FPkt} (hraw : (s.flink l).raw = p :: ps)
    (hgood : badWord (s.core n).lsBad la (rawImage p len).length = none) :
    Gives (.xrecv n t pr a b c) s fun s' =>
      (s'.flink l).raw = ps ∧ (s'.flink l).owed = addCredits (s.flink l).owed p ∧
      Memory.readN (s'.core n).ls la (rawImage p len).length = rawImage p len ∧
      Retired (s.thr n t) (s'.thr n t) ∧ SameRegs (s.thr n t) (s'.thr n t) ∧ (∀ u, u ≠ t → s'.thr n u = s.thr n u) ∧
      (∀ k, k ≠ l → s'.flink k = s.flink k) ∧ SameMemory s s' := by
  subst hla hl hlen
  obtain ⟨cr, hw, hc, hls⟩ := lsWrite_stored hgood
  obtain ⟨⟨-, -, -, hthreads, -⟩, hret, hregs, hls'⟩ := onlyStore_retire (t := t) hc
  have hcores := modThr_cores (received_cores s n (bits ((s.thr n t).rs b).toNat 6 0) cr p ps) n t retire
  have hthr := thr_of_cores hcores n
  refine ⟨(received s n (bits ((s.thr n t).rs b).toNat 6 0) cr p ps).modThr n t retire,
    (exec_xrecv ..).trans (coreStep_done hi.runs hi.next (firstCheck_clear hok.clear) ?_), ?_, ?_, ?_, ?_, ?_,
    fun u hu => ?_, fun k hk => ?_, ?_⟩
  · dsimp only
    rw [hraw]
    dsimp only
    rw [hw]
    rfl
  · rw [flink_modThr, received_flink]
  · rw [flink_modThr, received_flink]
  · rw [core_of_cores hcores, hls', hls, Memory.readN_writeN]
  · rw [hthr]; exact hret
  · rw [hthr]; exact hregs
  · rw [hthr]; exact hthreads u hu
  · rw [flink_modThr, received_flink_ne hk]
  · exact (sameMemory_received ..).trans (sameMemory_modThr ..)

theorem xrecv_waits (hraw : (s.flink l).raw = []) (hst : (s.flink l).st = 3) :
    Gives (.xrecv n t pr a b c) s fun s' =>
      OnlyThread s s' n t ∧ (s'.thr n t).st = .waiting ∧ (s'.thr n t).wait = .xrecv l ∧
      (s'.thr n t).pc = (s.thr n t).pc := by
  subst hla hl hlen
  obtain ⟨s', hs', hw⟩ := gives_wait (w := .xrecv _) (b := some (.xrecv pr a b c)) hi (exec_xrecv ..) hok.clear (by
    dsimp only
    rw [hraw]
    dsimp only
    rw [if_neg (not_not_intro hst)])
  exact ⟨s', hs', hw.only, hw.st, hw.wait, hw.pc⟩

theorem xrecv_faults (hraw : (s.flink l).raw = []) (hst : (s.flink l).st ≠ 3) :
    exec (.xrecv n t pr a b c) s = .next (takeFault s n t cREMOTE 0x0402 0) := by
  subst hla hl hlen
  refine (exec_xrecv ..).trans (coreStep_fault hi.runs hi.next (firstCheck_clear hok.clear) ?_)
  dsimp only
  rw [hraw]
  dsimp only
  rw [if_pos hst]

end

/-! ### An operation that leaves its core (R188, R198) -/

/-- An operation is the next of its member's to leave. -/
def leavesNow (gi : Nat) (next : W32) (bell : Bool) (o : AOp) : Bool :=
  match o.kind with
  | .mred _ _ h q => !bell && h = gi && q = next && o.stage = 1
  | .bell h q => bell && h = gi && q = next && o.stage = 1
  | _ => false

/-- The sequence number of a member's next contribution or Bell. -/
def nextSeq (s : State) (gi n : Nat) (bell : Bool) : W32 :=
  tget 0 (if bell then (s.group gi).bseq else (s.group gi).mseq) n

/-- An operation takes a stage. -/
def staged (id stage : Nat) (x : AOp) : AOp := if x.id = id then { x with stage := stage } else x

/-- A state once operation `id` has left core `n`. -/
def hasLeft (s : State) (gi n : Nat) (bell : Bool) (id : Nat) : State :=
  let s' := s.modCore n fun c => { c with aops := c.aops.map (staged id (if bell then 2 else 0)) }
  let next := nextSeq s gi n bell
  if bell then
    fly (s'.setGroup gi { s.group gi with bseq := tset 0 (s.group gi).bseq n (next + 1) }) (.bell (leafOf n) (slotOf n))
      ⟨gi, next, 0, 0, [], 1⟩
  else s'.setGroup gi { s.group gi with mseq := tset 0 (s.group gi).mseq n (next + 1) }

theorem leaveCore_succ (fuel : Nat) (s : State) (gi n : Nat) (bell : Bool) :
    leaveCore (fuel + 1) s gi n bell =
      match (s.core n).aops.find? (leavesNow gi (nextSeq s gi n bell) bell) with
      | none => s
      | some o => leaveCore fuel (hasLeft s gi n bell o.id) gi n bell := by
  cases bell <;> rfl

theorem leaveCore_none {fuel gi : Nat} {bell : Bool}
    (h : ∀ o ∈ (s.core n).aops, leavesNow gi (nextSeq s gi n bell) bell o = false) : leaveCore fuel s gi n bell = s := by
  cases fuel with
  | zero => rfl
  | succ fuel =>
    rw [leaveCore_succ, List.find?_eq_none.mpr fun o ho => by rw [h o ho]; exact Bool.false_ne_true]

theorem map_staged {old : List AOp} {o : AOp} (h : ∀ x ∈ old, x.id ≠ o.id) (stage : Nat) :
    (old ++ [o]).map (staged o.id stage) = old ++ [{ o with stage := stage }] := by
  have hold : old.map (staged o.id stage) = old :=
    (List.map_congr_left fun x hx => if_neg (h x hx)).trans (List.map_id old)
  rw [List.map_append, hold, List.map_singleton, staged, if_pos rfl]

theorem hasLeft_cores (s : State) (gi n : Nat) (bell : Bool) (id : Nat) :
    (hasLeft s gi n bell id).cores =
      (s.modCore n fun c => { c with aops := c.aops.map (staged id (if bell then 2 else 0)) }).cores := by
  cases bell <;> rfl

theorem nextSeq_hasLeft (s : State) (gi n : Nat) (bell : Bool) (id : Nat) :
    nextSeq (hasLeft s gi n bell id) gi n bell = nextSeq s gi n bell + 1 := by
  have hgroup (s' : State) (x : Group) (k : MKind) (m : MillChunk) : (fly (s'.setGroup gi x) k m).group gi = x :=
    State.group_setGroup_same ..
  cases bell
  case false => rw [nextSeq, hasLeft, if_neg Bool.false_ne_true, if_neg Bool.false_ne_true, State.group_setGroup_same,
    tget_tset_same]
  case true => rw [nextSeq, hasLeft, if_pos rfl, if_pos rfl, hgroup, tget_tset_same]

/-- The flit of a Bell that has left its core. -/
theorem flight_hasLeft (s : State) (gi n id : Nat) :
    ⟨.bell (leafOf n) (slotOf n), ⟨gi, nextSeq s gi n true, 0, 0, [], 1⟩⟩ ∈ (hasLeft s gi n true id).mil.flight := by
  rw [hasLeft, if_pos rfl]
  exact List.mem_append_right _ (List.mem_singleton_self _)

theorem sameMemory_hasLeft (s : State) (gi n : Nat) (bell : Bool) (id : Nat) : SameMemory s (hasLeft s gi n bell id) := by
  cases bell
  all_goals
    refine sameMemory_of ?_ ?_ ?_
    all_goals simp [hasLeft, fly, State.modCore]

theorem stage_of_leavesNow {gi : Nat} {next : W32} {bell : Bool} {o : AOp} (h : leavesNow gi next bell o = true) :
    o.stage = 1 := by
  unfold leavesNow at h
  split at h
  · simp only [Bool.and_eq_true, decide_eq_true_eq] at h; exact h.2
  · simp only [Bool.and_eq_true, decide_eq_true_eq] at h; exact h.2
  · cases h

/-- The one operation of its member's that may leave does, and no other follows it. -/
theorem leaveCore_single {gi : Nat} {bell : Bool} {old : List AOp} {o : AOp} (haops : (s.core n).aops = old ++ [o])
    (hid : ∀ x ∈ old, x.id ≠ o.id) (hold : ∀ x ∈ old, ∀ next, leavesNow gi next bell x = false)
    (ho : leavesNow gi (nextSeq s gi n bell) bell o = true) (fuel : Nat) :
    leaveCore (fuel + 1) s gi n bell = hasLeft s gi n bell o.id ∧
    (hasLeft s gi n bell o.id).core n =
      { s.core n with aops := old ++ [{ o with stage := if bell then 2 else 0 }] } ∧
    nextSeq (hasLeft s gi n bell o.id) gi n bell = nextSeq s gi n bell + 1 := by
  have hcore : (hasLeft s gi n bell o.id).core n =
      { s.core n with aops := old ++ [{ o with stage := if bell then 2 else 0 }] } := by
    rw [← map_staged hid, ← haops, core_of_cores (hasLeft_cores ..), State.core_modCore_same]
  refine ⟨?_, hcore, nextSeq_hasLeft ..⟩
  have hfind : (s.core n).aops.find? (leavesNow gi (nextSeq s gi n bell) bell) = some o := by
    rw [haops, List.find?_append, List.find?_eq_none.mpr fun x hx => by rw [hold x hx]; exact Bool.false_ne_true]
    simp [ho]
  rw [leaveCore_succ, hfind]
  refine leaveCore_none fun x hx => ?_
  rw [hcore] at hx
  rcases List.mem_append.mp hx with hx | hx
  · exact hold x hx _
  · obtain rfl := List.mem_singleton.mp hx
    refine Bool.eq_false_iff.mpr fun h => ?_
    have hstage : (if bell then 2 else 0) = 1 := stage_of_leavesNow h
    cases bell <;> exact absurd hstage (by decide)

/-! ### MRED and BELL (R188, R198) -/

/-- A state once an operation of kind `kind` has been issued and may leave its core. -/
def mayLeave (s : State) (n t k : Nat) (kind : AKind) : State :=
  (s.setCore n { s.core n with
    aops := (s.core n).aops ++ [newOp s n t k kind], nextId := (s.core n).nextId + 1 }).modCore n fun c =>
      { c with aops := c.aops.map (staged (s.core n).nextId 1) }

theorem mayLeave_core {kind : AKind} (hid : ∀ o ∈ (s.core n).aops, o.id < (s.core n).nextId) :
    (mayLeave s n t k kind).core n = { s.core n with
      aops := (s.core n).aops ++ [{ newOp s n t k kind with stage := 1 }], nextId := (s.core n).nextId + 1 } := by
  have hmap := map_staged (o := newOp s n t k kind) (fun x hx => (hid x hx).ne) 1
  rw [mayLeave, State.core_modCore_same, State.core_setCore_same]
  exact congrArg (fun ops => { s.core n with aops := ops, nextId := (s.core n).nextId + 1 }) hmap

/-- What issuing an operation of a member that leaves its core at once leaves. -/
structure Leaves (s s' : State) (n t k gi : Nat) (bell : Bool) (kind : AKind) : Prop where
  core : s'.core n = { s.core n with
    aops := (s.core n).aops ++ [{ newOp s n t k kind with stage := if bell then 2 else 0 }]
    nextId := (s.core n).nextId + 1 }
  seq : nextSeq s' gi n bell = nextSeq s gi n bell + 1
  memory : SameMemory s s'

/-- A member's only operation leaves as soon as it is issued, whatever waits on its group. -/
theorem leaves_of {s₁ : State} {gi : Nat} {bell : Bool} {kind : AKind}
    (hid : ∀ o ∈ (s.core n).aops, o.id < (s.core n).nextId)
    (hold : ∀ o ∈ (s.core n).aops, ∀ next, leavesNow gi next bell o = false)
    (hcores : s₁.cores = (mayLeave s n t k kind).cores) (hseq : nextSeq s₁ gi n bell = nextSeq s gi n bell)
    (hmem : SameMemory s s₁)
    (ho : leavesNow gi (nextSeq s gi n bell) bell { newOp s n t k kind with stage := 1 } = true) :
    leaveCore 16 s₁ gi n bell = hasLeft s₁ gi n bell (s.core n).nextId ∧
      Leaves s (leaveCore 16 s₁ gi n bell) n t k gi bell kind := by
  have hcore : s₁.core n = _ := (core_of_cores hcores n).trans (mayLeave_core hid)
  obtain ⟨heq, hcore', hseq'⟩ := leaveCore_single (s := s₁) (o := { newOp s n t k kind with stage := 1 })
    (congrArg Core.aops hcore) (fun x hx => (hid x hx).ne) hold (hseq ▸ ho) 15
  refine ⟨heq, ?_⟩
  rw [heq]
  refine ⟨hcore'.trans ?_, hseq'.trans (congrArg (· + 1) hseq), ?_⟩
  · rw [hcore]
  · exact hmem.trans (sameMemory_hasLeft ..)

/-- What such an issue leaves once its thread has gone on. -/
theorem Leaves.retired {s' : State} {gi : Nat} {bell : Bool} {kind : AKind} (h : Leaves s s' n t k gi bell kind) :
    Retired (s.thr n t) ((s'.modThr n t retire).thr n t) ∧ SameRegs (s.thr n t) ((s'.modThr n t retire).thr n t) ∧
    ((s'.modThr n t retire).core n).aops =
      (s.core n).aops ++ [{ newOp s n t k kind with stage := if bell then 2 else 0 }] ∧
    SameMemory s (s'.modThr n t retire) := by
  have hthr : s'.thr n t = s.thr n t := by rw [State.thr, h.core]; rfl
  refine ⟨?_, ?_, ?_, h.memory.trans (sameMemory_modThr ..)⟩
  · rw [State.thr_modThr_same, hthr]; exact ⟨rfl, rfl, rfl⟩
  · rw [State.thr_modThr_same, hthr]; exact sameRegs_retire _
  · rw [State.core_modThr_same, h.core]; rfl

/-- A thread's wait joins those on a group. -/
def addWait (s : State) (gi : Nat) (counts : Bool) (w : MWait) : State :=
  if counts then s.setGroup gi { s.group gi with waits := (s.group gi).waits ++ [w] } else s

theorem addWait_cores (s : State) (gi : Nat) (counts : Bool) (w : MWait) : (addWait s gi counts w).cores = s.cores := by
  cases counts <;> rfl

theorem nextSeq_addWait (s : State) (gi n : Nat) (counts : Bool) (w : MWait) (bell : Bool) :
    nextSeq (addWait s gi counts w) gi n bell = nextSeq s gi n bell := by
  cases counts
  case false => rfl
  case true => rw [nextSeq, addWait, if_pos rfl, State.group_setGroup_same]; rfl

theorem sameMemory_addWait (kind : AKind) (gi : Nat) (counts : Bool) (w : MWait) :
    SameMemory s (addWait (mayLeave s n t k kind) gi counts w) := by
  cases counts
  all_goals
    refine sameMemory_of ?_ ?_ ?_
    all_goals simp [addWait, mayLeave, State.modCore]

/-- A member's only operation, issued while its thread waits for the count. -/
theorem leaves_addWait {gi : Nat} {bell counts : Bool} {w : MWait} {kind : AKind}
    (hid : ∀ o ∈ (s.core n).aops, o.id < (s.core n).nextId)
    (hold : ∀ o ∈ (s.core n).aops, ∀ next, leavesNow gi next bell o = false)
    (ho : leavesNow gi (nextSeq s gi n bell) bell { newOp s n t k kind with stage := 1 } = true) :
    leaveCore 16 (addWait (mayLeave s n t k kind) gi counts w) gi n bell =
        hasLeft (addWait (mayLeave s n t k kind) gi counts w) gi n bell (s.core n).nextId ∧
      Leaves s (leaveCore 16 (addWait (mayLeave s n t k kind) gi counts w) gi n bell) n t k gi bell kind :=
  leaves_of hid hold (addWait_cores ..) (nextSeq_addWait ..) (sameMemory_addWait ..) ho

/-- Whether a member's contribution is counted in this module: the group's results go down from here. -/
def countsHere (g : Group) : Bool := match g.desc with | some d => localDown g d | none => false

/-- The wait of an MRED for its count, where the thread of its state stands. -/
def mredWait (s : State) (n t op gi : Nat) (q : W32) : MWait :=
  ⟨n, t, op, (s.thr n t).pc.toNat, q, ((s.group gi).desc.map (·.resCtr)).getD 0, false⟩

theorem mred_gives {la len g : Nat} {q : W32} (hi : MayIssue s n t pr) (hs : SlotFree s n t)
    (hla : ((s.thr n t).rs a).toNat = la) (hg : bits ((s.thr n t).rs b).toNat 7 0 = g)
    (hq : BitVec.ofNat 32 (((s.thr n t).rs b).toNat / 2 ^ 16) = q) (hlen : ((s.thr n t).rs c).toNat = len)
    (hcheck : groupCheck s n t g false q len = 0) (h1 : la % 32 = 0) (h2 : len % 32 = 0) (h3 : 32 ≤ len) (h4 : len ≤ 253952)
    (h5 : la + len ≤ if t = 0 then lsTop else monLs) (h6 : inMon t la len = false)
    (hnext : q = tget 0 (s.group g).mseq n) (hnone : ∀ o ∈ (s.core n).aops, ∀ l m h r, o.kind ≠ .mred l m h r)
    (hid : ∀ o ∈ (s.core n).aops, o.id < (s.core n).nextId) :
    Gives (.mred n t pr a b c k) s fun s' =>
      Retired (s.thr n t) (s'.thr n t) ∧ SameRegs (s.thr n t) (s'.thr n t) ∧
      (s'.core n).aops = (s.core n).aops ++
        [⟨(s.core n).nextId, t, (s.thr n t).pc.toNat, k, .mred la len g q, 0, 0, [], []⟩] ∧
      tget 0 (s'.group g).mseq n = q + 1 ∧ SameMemory s s' := by
  have hold (o : AOp) (ho : o ∈ (s.core n).aops) (next : W32) : leavesNow g next false o = false := by
    unfold leavesNow
    split
    · next hk => exact absurd hk (hnone o ho _ _ _ _)
    · rfl
    · rfl
  have hleaves : leavesNow g (nextSeq s g n false) false { newOp s n t k (.mred la len g q) with stage := 1 } = true := by
    simp [leavesNow, newOp, nextSeq, hnext]
  obtain ⟨-, hleft⟩ := leaves_addWait (counts := countsHere (s.group g)) 
    (w := mredWait (mayLeave s n t k (.mred la len g q)) n t (s.core n).nextId g q) hid hold hleaves
  obtain ⟨hret, hregs, haops, hmem⟩ := hleft.retired
  refine ⟨_, (exec_mred ..).trans (coreStep_done hi.runs hi.next (firstCheck_clear ?_) ?_), hret, hregs, haops, ?_, hmem⟩
  · dsimp only
    rw [hla, hg, hq, hlen]
    simp [hcheck, h1, h2, h3, h4, h5, h6]
  · dsimp only
    rw [hla, hg, hq, hlen, if_neg (by rw [hcheck]; decide), startOp_free hs]
    dsimp only
    rw [State.core_setCore_same]
    rfl
  · rw [group_modThr]
    exact hleft.seq.trans (congrArg (· + 1) hnext.symm)

/-- The wait of a BELL for its release, where the thread of its state stands. -/
def bellWait (s : State) (n t op k : Nat) (q : W32) : MWait := ⟨n, t, op, (s.thr n t).pc.toNat, q, k, true⟩

theorem bell_gives {g : Nat} {q : W32} (hi : MayIssue s n t pr) (hs : SlotFree s n t)
    (hg : ((s.thr n t).rs a).toNat = g) (hq : BitVec.ofNat 32 ((s.thr n t).rs b).toNat = q) (h255 : g ≤ 255)
    (hcheck : groupCheck s n t g true q 0 = 0) (hnext : q = tget 0 (s.group g).bseq n)
    (hnone : ∀ o ∈ (s.core n).aops, ∀ h r, o.kind ≠ .bell h r) (hid : ∀ o ∈ (s.core n).aops, o.id < (s.core n).nextId) :
    Gives (.bell n t pr a b k) s fun s' =>
      Retired (s.thr n t) (s'.thr n t) ∧ SameRegs (s.thr n t) (s'.thr n t) ∧
      (s'.core n).aops = (s.core n).aops ++
        [⟨(s.core n).nextId, t, (s.thr n t).pc.toNat, k, .bell g q, 0, 2, [], []⟩] ∧
      tget 0 (s'.group g).bseq n = q + 1 ∧
      ⟨.bell (leafOf n) (slotOf n), ⟨g, q, 0, 0, [], 1⟩⟩ ∈ s'.mil.flight ∧ SameMemory s s' := by
  have hold (o : AOp) (ho : o ∈ (s.core n).aops) (next : W32) : leavesNow g next true o = false := by
    unfold leavesNow
    split
    · rfl
    · next hk => exact absurd hk (hnone o ho _ _)
    · rfl
  have hleaves : leavesNow g (nextSeq s g n true) true { newOp s n t k (.bell g q) with stage := 1 } = true := by
    simp [leavesNow, newOp, nextSeq, hnext]
  have hseq : nextSeq (addWait (mayLeave s n t k (.bell g q)) g true (bellWait (mayLeave s n t k (.bell g q)) n t
      (s.core n).nextId k q)) g n true = q := (nextSeq_addWait ..).trans hnext.symm
  have hflight := flight_hasLeft (addWait (mayLeave s n t k (.bell g q)) g true (bellWait (mayLeave s n t k (.bell g q)) n t
      (s.core n).nextId k q)) g n (s.core n).nextId
  obtain ⟨heq, hleft⟩ := leaves_addWait (counts := true)
    (w := bellWait (mayLeave s n t k (.bell g q)) n t (s.core n).nextId k q) hid hold hleaves
  obtain ⟨hret, hregs, haops, hmem⟩ := hleft.retired
  rw [hseq, ← heq] at hflight
  refine ⟨_, (exec_bell ..).trans (coreStep_done hi.runs hi.next (firstCheck_clear ?_) ?_), hret, hregs, haops, ?_,
    ?_, hmem⟩
  · dsimp only
    rw [hg, hq]
    simp [hcheck, h255]
  · dsimp only
    rw [hg, hq, if_neg (by rw [hcheck]; decide), startOp_free hs]
    dsimp only
    rw [State.core_setCore_same]
    rfl
  · rw [group_modThr]
    exact hleft.seq.trans (congrArg (· + 1) hnext.symm)
  · rw [State.modThr_mil]; exact hflight

/-- Settles O26: a receive writes the packet's image and owes its credits (`received_flink`); a member's operation leaves
its core as it is issued (`leaveCore_single`). -/
theorem rawReceiveAndMillIssue : Obligations.RawReceiveAndMillIssue := by
  refine ⟨fun n t pr a b c s hi => ?recv, fun n t pr a b c k d s hi hs => ⟨?mred, ?bell⟩⟩
  case recv =>
    intro _ _ _ _ h1 h2 h3 h4 h5 h6 h7
    have hok : RecvOk s n t ((s.thr n t).rs a).toNat (bits ((s.thr n t).rs b).toNat 6 0) ((s.thr n t).rs c).toNat :=
      ⟨h1, h2, h3, h4, h5, h6, h7⟩
    exact ⟨fun p ps => xrecv_takes hi rfl rfl rfl hok, xrecv_waits hi rfl rfl rfl hok, xrecv_faults hi rfl rfl rfl hok⟩
  case mred =>
    intro hcheck _ h1 h2 h3 h4 h5 h6 hnext hnone hid
    exact mred_gives hi hs rfl rfl rfl rfl hcheck h1 h2 h3 h4 h5 h6 hnext hnone hid
  case bell =>
    intro h255 hcheck hnext hnone hid
    exact bell_gives hi hs rfl rfl h255 hcheck hnext hnone hid

end Sys2Proof.Machine
end

section
/-! Ring commands: what their start and their completion leave, for O34, O35 and O38. -/

namespace Sys2Proof.Machine

variable {s s1 s2 t : State} {h : Hdr} {op status d64 : Nat} {fs : List (Nat × Nat × Nat)}

/-! ### Commands in flight -/

theorem State.cmd?_of_inflight {s s' : State} (h : s'.host.inflight = s.host.inflight) (r : Nat) (q : W32) :
    s'.cmd? r q = s.cmd? r q := by
  unfold State.cmd?; rw [h]

/-- Another command is found as before when one leaves. -/
theorem find_filter_other {l : List Cmd} {r r' : Nat} {q q' : W32} (hne : r' ≠ r ∨ q' ≠ q) :
    (l.filter fun x => !(x.ring = r && x.seq = q)).find? (fun c => c.ring = r' && c.seq = q') =
      l.find? fun c => c.ring = r' && c.seq = q' := by
  rw [List.find?_filter]
  congr 1
  funext x
  by_cases hx : x.ring = r' ∧ x.seq = q'
  · have hother : ¬ (x.ring = r ∧ x.seq = q) := by
      rintro ⟨rfl, rfl⟩
      rcases hne with hr | hq
      · exact hr hx.1.symm
      · exact hq hx.2.symm
    simp [hx.1, hx.2]
    grind
  · grind

theorem State.cmd?_modCmd {c : Cmd} {r r' : Nat} {q q' : W32} (hr : c.ring = r) (hq : c.seq = q) :
    (s.modCmd r q fun _ => c).cmd? r' q' =
      if r' = r ∧ q' = q then (s.cmd? r q).map fun _ => c else s.cmd? r' q' := by
  subst hr hq
  have hpred : (fun x : Cmd => decide (x.ring = r') && decide (x.seq = q')) ∘
      (fun x : Cmd => if x.ring = c.ring && x.seq = c.seq then c else x) =
      fun x => decide (x.ring = r') && decide (x.seq = q') := by
    funext x
    grind
  unfold State.cmd? State.modCmd
  dsimp only
  rw [List.find?_map, hpred]
  split
  · next e =>
    obtain ⟨rfl, rfl⟩ := e
    cases hf : s.host.inflight.find? fun x => x.ring = c.ring && x.seq = c.seq with
    | none => rfl
    | some x =>
      have hx := List.find?_some hf
      simp only [Option.map_some]
      rw [if_pos hx]
  · next e =>
    cases hf : s.host.inflight.find? fun x => x.ring = r' && x.seq = q' with
    | none => rfl
    | some x =>
      have hx := List.find?_some hf
      simp only [Option.map_some]
      rw [if_neg (by grind)]

/-- A command has started: its ring's entry runs, and nothing else has changed. -/
structure Started (s s1 : State) (h : Hdr) (op : Nat) : Prop where
  mod : s1 = s.modCmd h.ring h.seq fun _ => cmdOf h op
  cmd : s1.cmd? h.ring h.seq = some (cmdOf h op)
  others : ∀ r q, r ≠ h.ring ∨ q ≠ h.seq → s1.cmd? r q = s.cmd? r q
  iso : s1.iso (h.ring / 16) = false

theorem Starts.started (hs : Starts s s1 op h fs) : Started s s1 h op := by
  obtain ⟨-, hb, -⟩ := hs
  unfold beginCmd at hb
  dsimp only at hb
  split at hb
  · cases hb
  · next hfree =>
    split at hb
    · next c hc =>
      split at hb
      · next hcond =>
        obtain rfl := Option.some.inj hb
        refine ⟨rfl, ?_, fun r q hne => ?_, ?_⟩
        · rw [State.cmd?_modCmd (r := h.ring) (q := h.seq) rfl rfl, if_pos ⟨rfl, rfl⟩, hc]; rfl
        · rw [State.cmd?_modCmd (r := h.ring) (q := h.seq) rfl rfl, if_neg (by rintro ⟨rfl, rfl⟩; simp at hne)]
        · have : s.iso (h.ring / 16) = false := by
            rw [Bool.or_eq_true, not_or] at hfree
            exact Bool.eq_false_iff.mpr hfree.1
          exact this
      · cases hb
    · cases hb

theorem Started.onlyHost (hs : Started s s1 h op) : OnlyHost s s1 := by rw [hs.mod]; rfl

theorem Started.held (hs : Started s s1 h op) : s1.host.held = s.host.held := by rw [hs.mod]; rfl
theorem Started.parked (hs : Started s s1 h op) : s1.host.parked = s.host.parked := by rw [hs.mod]; rfl
theorem Started.rings (hs : Started s s1 h op) : s1.host.rings = s.host.rings := by rw [hs.mod]; rfl

theorem OnlyHost.refl (s : State) : OnlyHost s s := rfl

theorem OnlyHost.trans {a b c : State} (h : OnlyHost a b) (g : OnlyHost b c) : OnlyHost a c := by
  unfold OnlyHost at *
  calc { c with host := a.host } = { ({ c with host := b.host } : State) with host := a.host } := rfl
    _ = a := by rw [g, h]

/-! ### Completion (R243, R252) -/

theorem State.iso_unpark (s : State) (l : List Cmd) (r : Nat) (q : W32) (fb : Nat) :
    (unpark { s with host := { s.host with inflight := l } } r q).iso fb = s.iso fb := rfl

/-- The records after a command has completed with a status other than DIE_LOST. -/
theorem finish_held {d16 d32 : Nat} (hc : s.cmd? h.ring h.seq = some (cmdOf h op)) (hiso : s.iso (h.ring / 16) = false)
    (hst : status ≠ stDIELOST) :
    (finish s h.ring h.seq status d16 d32 d64).host.held =
      if h.compl ≠ 0 ∨ status ≠ stDONE then
        tset [] s.host.held (s.ring h.ring).cq (tget [] s.host.held (s.ring h.ring).cq ++
          [⟨h.ring, op, h.seq, status, d16, d32 % 2 ^ 32, d64, h.tag, decide (h.compl ≠ 1)⟩])
      else s.host.held := by
  unfold finish
  rw [hc]
  dsimp only
  rw [if_neg hst, State.iso_unpark, hiso]
  have hcompl : (cmdOf h op).compl = h.compl := rfl
  by_cases hw : h.compl ≠ 0 ∨ status ≠ stDONE
  · rw [if_pos hw, if_pos (show ((decide ((cmdOf h op).compl ≠ 0) || decide (status ≠ stDONE)) && !false) = true by
      rw [hcompl]; simpa using hw)]
    rfl
  · rw [if_neg hw, if_neg (show ¬ ((decide ((cmdOf h op).compl ≠ 0) || decide (status ≠ stDONE)) && !false) = true by
      rw [hcompl]; simpa using hw)]
    rfl

/-- A command in flight completes with a status other than DIE_LOST. -/
theorem completed_finishSt (hc : s.cmd? h.ring h.seq = some (cmdOf h op)) (hiso : s.iso (h.ring / 16) = false)
    (hst : status ≠ stDIELOST) : Completed s (finishSt s h.ring h.seq status d64) h op status d64 := by
  have hinflight := finish_inflight s h.ring h.seq status 0 0 d64
  have hheld := finish_held (d16 := 0) (d32 := 0) (d64 := d64) hc hiso hst
  refine ⟨finish_ended .., fun r q hne => ?_, ?_, fun q hq => ?_⟩
  · unfold State.cmd? finishSt
    rw [hinflight, find_filter_other hne]
  · rw [finishSt, hheld]
    split
    · rw [tget_tset_same, Nat.zero_mod]
    · rw [List.append_nil]
  · rw [finishSt, hheld]
    split
    · rw [tget_tset, if_neg hq]
    · rfl

/-- The same, told from a state before it in which the records and the other commands were as here. -/
theorem Completed.from {s₀ : State} (hd : Completed s t h op status d64)
    (hcmd : ∀ r q, r ≠ h.ring ∨ q ≠ h.seq → s.cmd? r q = s₀.cmd? r q) (hring : s.host.rings = s₀.host.rings)
    (hheld : s.host.held = s₀.host.held) : Completed s₀ t h op status d64 := by
  have hcq : s.ring h.ring = s₀.ring h.ring := by unfold State.ring; rw [hring]
  obtain ⟨hend, hothers, hrec, hkeep⟩ := hd
  rw [hcq, hheld] at hrec
  rw [hcq, hheld] at hkeep
  exact ⟨hend, fun r q hne => (hothers r q hne).trans (hcmd r q hne), hrec, hkeep⟩

theorem Started.completed (hs : Started s s1 h op) (hd : Completed s1 t h op status d64) : Completed s t h op status d64 :=
  hd.from hs.others hs.rings hs.held

theorem onlyHost_finishSt (ring : Nat) (seq : W32) (hst : status ≠ stDIELOST) :
    OnlyHost s (finishSt s ring seq status d64) := (finish_host s ring seq 0 0 d64 hst).1

/-! ### BELL commands and forgotten accesses -/

/-- A fold each of whose steps leaves its state. -/
theorem foldl_fixed_mem {α β : Type} {f : α → β → α} {x : α} {l : List β} (h : ∀ e ∈ l, f x e = x) : l.foldl f x = x := by
  induction l with
  | nil => rfl
  | cons e l ih =>
    rw [List.foldl_cons, h e List.mem_cons_self, ih fun e' he => h e' (List.mem_cons_of_mem _ he)]

/-- Where no command waits for a Bell of the group, nothing completes. -/
theorem bellCheck_nothing {gi : Nat} (h : ∀ e ∈ s.host.parked, ∀ q, e.2.2 ≠ .bell gi q) : bellCheck s gi = s := by
  unfold bellCheck
  refine foldl_fixed_mem fun e he => ?_
  split
  · next i q hj =>
    refine if_pos ?_
    rintro rfl
    exact h e he q hj
  · rfl

/-- A miss held at its port enters the queue of its FB. -/
def queueHeld (s : State) (fb : Nat) : State :=
  { s with xlt := { s.xlt with
      walks := replaceFirst (fun x => x.fb = fb && x.stage = 2) (fun x => { x with stage := 0 }) s.xlt.walks } }

theorem onlyXltSys_walkGo (fuel : Nat) : ∀ (s : State) (fb : Nat), OnlyXltSys s (walkGo fuel s fb) := by
  induction fuel with
  | zero => exact fun _ _ => rfl
  | succ fuel ih =>
    intro s fb
    unfold walkGo
    dsimp only
    split
    · split
      · exact OnlyXltSys.trans (b := runWalk s fb _) rfl (ih _ fb)
      · split
        · exact OnlyXltSys.trans (b := queueHeld s fb) rfl (ih _ fb)
        · rfl
    · split
      · exact OnlyXltSys.trans (b := queueHeld s fb) rfl (ih _ fb)
      · rfl

theorem onlyXltSys_walkNexts (fbs : List Nat) : ∀ s : State, OnlyXltSys s (fbs.foldl walkNext s) := by
  induction fbs with
  | nil => exact fun _ => rfl
  | cons fb fbs ih => exact fun s => (onlyXltSys_walkGo _ s fb).trans (ih _)

/-- Of the host attachment forgetting an agent's accesses changes the links alone; of the rest the translation system. -/
structure OnlyLinksXlt (s t : State) : Prop where
  rest : { t with host := s.host, xlt := s.xlt } = s
  host : { t.host with links := s.host.links } = s.host

theorem OnlyLinksXlt.trans {a b c : State} (h : OnlyLinksXlt a b) (g : OnlyLinksXlt b c) : OnlyLinksXlt a c where
  rest := by
    have h1 := h.rest; have g1 := g.rest
    calc { c with host := a.host, xlt := a.xlt }
        = { ({ c with host := b.host, xlt := b.xlt } : State) with host := a.host, xlt := a.xlt } := rfl
      _ = a := by rw [g1, h1]
  host := by
    have h1 := h.host; have g1 := g.host
    calc { c.host with links := a.host.links }
        = { ({ c.host with links := b.host.links } : Host_) with links := a.host.links } := rfl
      _ = a.host := by rw [g1, h1]

theorem OnlyXltSys.linksXlt {a b : State} (h : OnlyXltSys a b) : OnlyLinksXlt a b where
  rest := by
    calc { b with host := a.host, xlt := a.xlt } = { ({ b with xlt := a.xlt } : State) with host := a.host } := rfl
      _ = a := by rw [h]
  host := by rw [h.host]

theorem onlyLinksXlt_retagAll (s : State) : OnlyLinksXlt s (retagAll s) := ⟨rfl, rfl⟩

theorem onlyLinksXlt_pruneOld (s : State) : OnlyLinksXlt s (pruneOld s) := ⟨rfl, rfl⟩

theorem onlyLinksXlt_forgetIf (s : State) (p : Agent → Bool) : OnlyLinksXlt s (forgetIf s p) := by
  unfold forgetIf
  dsimp only
  refine OnlyLinksXlt.trans ?dropped ((onlyXltSys_walkNexts (List.range 4) _).linksXlt.trans
    ((onlyLinksXlt_retagAll _).trans (onlyLinksXlt_pruneOld _)))
  exact ⟨rfl, rfl⟩

/-! ### RED_GROUP_CREATE and RED_GROUP_DESTROY (R182 to R187, R200) -/

theorem Started.groupBad (hs : Started s s1 h op) (ctx : Nat) (d : GroupDesc) : groupBad s1 ctx d = groupBad s ctx d := by
  rw [hs.mod]; rfl

theorem Started.newGroup (hs : Started s s1 h op) (ctx : Nat) (d : GroupDesc) : newGroup s1 ctx d = newGroup s ctx d := by
  rw [hs.mod]; rfl

theorem Started.stagingOk (hs : Started s s1 h op) (g : Group) (d : GroupDesc) : stagingOk s1 g d = stagingOk s g d := by
  rw [hs.mod]; rfl

theorem Started.group (hs : Started s s1 h op) (k : Nat) : s1.group k = s.group k := by
  rw [hs.mod]; rfl

/-- Of the host attachment a start changes the commands in flight alone. -/
theorem Started.hostRest (hs : Started s s1 h op) :
    { s1.host with inflight := s.host.inflight, held := s.host.held, parked := s.host.parked } = s.host := by
  rw [hs.mod]; rfl

/-- A command that has started and completes: of the host attachment the rest is as it was when it started. -/
theorem Started.cmdGives {i : Instr} {p : State → Prop} (hs : Started s s1 h op) (hst : status ≠ stDIELOST)
    (hhost : s2.host = s1.host) (hiso : s2.iso (h.ring / 16) = s1.iso (h.ring / 16))
    (hx : exec i s = .next (finishSt s2 h.ring h.seq status 0)) (hp : p (finishSt s2 h.ring h.seq status 0)) :
    CmdGives s i h op status p := by
  have hcmd : s2.cmd? h.ring h.seq = some (cmdOf h op) :=
    (State.cmd?_of_inflight (congrArg Host_.inflight hhost) _ _).trans hs.cmd
  have hd : Completed s1 (finishSt s2 h.ring h.seq status 0) h op status 0 :=
    (completed_finishSt hcmd (hiso.trans hs.iso) hst).from
      (fun r q _ => State.cmd?_of_inflight (congrArg Host_.inflight hhost) r q) (congrArg Host_.rings hhost)
      (congrArg Host_.held hhost)
  refine ⟨_, hx, hs.completed hd, ?_, hp⟩
  have hfinish := (finish_host s2 h.ring h.seq 0 0 0 hst).2
  rw [hhost] at hfinish
  calc { (finishSt s2 h.ring h.seq status 0).host with
        inflight := s.host.inflight, held := s.host.held, parked := s.host.parked }
      = { ({ (finishSt s2 h.ring h.seq status 0).host with
          inflight := s1.host.inflight, held := s1.host.held, parked := s1.host.parked } : Host_) with
          inflight := s.host.inflight, held := s.host.held, parked := s.host.parked } := rfl
    _ = s.host := by rw [show { (finishSt s2 h.ring h.seq status 0).host with
          inflight := s1.host.inflight, held := s1.host.held, parked := s1.host.parked } = s1.host from hfinish, hs.hostRest]

theorem OnlyHost.group {a b : State} (h : OnlyHost a b) (k : Nat) : b.group k = a.group k := by
  have : b.mil = a.mil := (congrArg State.mil (show { b with host := a.host } = a from h) :)
  unfold State.group; rw [this]

theorem OnlyHost.mil {a b : State} (h : OnlyHost a b) : b.mil = a.mil :=
  (congrArg State.mil (show { b with host := a.host } = a from h) :)

/-- RED_GROUP_CREATE installs the group it describes. -/
theorem redGroupCreate_gives {d : GroupDesc} (hs : Starts s s1 0x50 h (groupFields d)) (hbad : groupBad s h.ctx d = false)
    (hfree : (s.group d.group).state = 0) (hfits : stagingOk s (newGroup s h.ctx d) d = true) :
    CmdGives s (.redGroupCreate h d) h 0x50 stDONE fun t =>
      { t with host := s.host, mil := s.mil } = s ∧ { t.mil with groups := s.mil.groups } = s.mil ∧
      (t.group d.group).state = 1 ∧ (t.group d.group).ctx = h.ctx ∧ (t.group d.group).desc = some d ∧
      (t.group d.group).nextSeq = 0 ∧ (t.group d.group).nextBell = 0 ∧
      ∀ j, j ≠ d.group → t.group j = s.group j := by
  have st := hs.started
  have only := onlyHost_finishSt (s := s1.setGroup d.group (newGroup s h.ctx d)) (d64 := 0) h.ring h.seq
    (show stDONE ≠ stDIELOST by decide)
  refine st.cmdGives (s2 := s1.setGroup d.group (newGroup s h.ctx d)) (by decide) rfl rfl ?runs ?leaves
  case runs =>
    refine (command_runs hs ((st.groupBad _ _).trans hbad)).trans ?_
    dsimp only
    rw [st.newGroup, st.group, st.stagingOk, hfree, hfits]
    rfl
  case leaves =>
    refine ⟨?_, ?_, ?_⟩
    · refine Eq.trans (congrArg (fun u : State => { u with host := s.host, mil := s.mil }) only) ?_
      rw [st.mod]; rfl
    · rw [only.mil, st.mod]; rfl
    · simp only [only.group, State.group_setGroup, if_true]
      refine ⟨rfl, rfl, rfl, rfl, rfl, fun j hj => ?_⟩
      rw [if_neg hj, st.group]

/-- RED_GROUP_CREATE of a number in use, or whose staging does not fit. -/
theorem redGroupCreate_resource {d : GroupDesc} (hs : Starts s s1 0x50 h (groupFields d))
    (hbad : groupBad s h.ctx d = false)
    (hno : (s.group d.group).state ≠ 0 ∨ stagingOk s (newGroup s h.ctx d) d = false) :
    CmdGives s (.redGroupCreate h d) h 0x50 stRESOURCE (OnlyHost s) := by
  have st := hs.started
  refine st.cmdGives (s2 := s1) (by decide) rfl rfl ?runs
    (st.onlyHost.trans (onlyHost_finishSt _ _ (by decide)))
  refine (command_runs hs ((st.groupBad _ _).trans hbad)).trans ?_
  dsimp only
  rw [st.newGroup, st.group, st.stagingOk, if_pos (by simpa using hno)]

/-- RED_GROUP_DESTROY of a group that is in use. -/
theorem redGroupDestroy_resource {k : Nat} {force : Bool} (hs : Starts s s1 0x51 h [(0, 1, 1), (1, 1, k), (2, 1, b2n force)])
    (hstate : (s.group k).state ≠ 0) (hctx : (s.group k).ctx = h.ctx) (hbusy : groupBusy s k = true)
    (hnot : (s.group k).state ≠ 3) (hforce : force = false) :
    CmdGives s (.redGroupDestroy h k force) h 0x51 stRESOURCE (OnlyHost s) := by
  have st := hs.started
  have hb : groupBusy s1 k = true := by rw [st.mod]; exact hbusy
  refine st.cmdGives (s2 := s1) (by decide) rfl rfl ?runs
    (st.onlyHost.trans (onlyHost_finishSt _ _ (by decide)))
  refine (command_runs hs (by simp [st.group, hstate, hctx])).trans ?_
  rw [st.group, hb, hforce, if_pos (by simpa using hnot)]

/-- A group that no thread and no sequence uses. -/
theorem idle_of_notBusy {k : Nat} (hb : groupBusy s k = false) : (s.group k).waits = [] ∧ groupThreads s k = [] := by
  unfold groupBusy at hb
  dsimp only at hb
  simp only [Bool.or_eq_false_iff, Bool.not_eq_eq_eq_not, Bool.not_false, List.isEmpty_iff] at hb
  obtain ⟨⟨⟨⟨⟨hwaits, hthreads⟩, -⟩, -⟩, -⟩, -⟩ := hb
  exact ⟨hwaits, hthreads⟩

/-- Failing the waits of a group that has none. -/
theorem failWaits_idle {k cause : Nat} (hw : (s.group k).waits = []) (ht : groupThreads s k = []) :
    failWaits s k cause status = s.setGroup k (s.group k) := by
  unfold failWaits
  dsimp only
  rw [ht]
  dsimp only [List.foldl_nil]
  rw [hw]
  dsimp only [List.foldl_nil]
  congr 1
  rw [← hw]

theorem OnlyLinksXlt.group {a b : State} (h : OnlyLinksXlt a b) (k : Nat) : b.group k = a.group k := by
  have : b.mil = a.mil := (congrArg State.mil h.rest :)
  unfold State.group; rw [this]

theorem OnlyLinksXlt.iso {a b : State} (h : OnlyLinksXlt a b) (q : Nat) : b.iso q = a.iso q := by
  have : b.die = a.die := (congrArg State.die h.rest :)
  unfold State.iso; rw [this]

theorem OnlyLinksXlt.groupThreads {a b : State} (h : OnlyLinksXlt a b) (k : Nat) : groupThreads b k = groupThreads a k := by
  have : b.cores = a.cores := (congrArg State.cores h.rest :)
  unfold Machine.groupThreads; rw [this]

/-- What destroying an idle group leaves before its BELL commands look again. -/
def groupGone (s u : State) (k : Nat) : State :=
  let v := (u.setGroup k (u.group k)).setGroup k {}
  { v with mil := { v.mil with flight := s.mil.flight.filter fun f => f.m.group ≠ k } }

/-- Destroying an idle group that no BELL command waits for. -/
theorem destroyGroup_idle {k : Nat} (hb : groupBusy s k = false)
    (hbell : ∀ e ∈ s.host.parked, ∀ q, e.2.2 ≠ .bell k q) :
    destroyGroup s k = groupGone s (forget s (.mill k)) k := by
  have hf := onlyLinksXlt_forgetIf s fun b => b = Agent.mill k
  obtain ⟨hwaits, hthreads⟩ := idle_of_notBusy hb
  have hparked : (forget s (.mill k)).host.parked = s.host.parked := (congrArg Host_.parked hf.host :)
  have hfail : failWaits (forget s (.mill k)) k cILLEGAL 0 =
      (forget s (.mill k)).setGroup k ((forget s (.mill k)).group k) :=
    failWaits_idle (by unfold forget; rw [hf.group]; exact hwaits) (by unfold forget; rw [hf.groupThreads]; exact hthreads)
  have hflight : (forget s (.mill k)).mil.flight = s.mil.flight := (congrArg (fun u : State => u.mil.flight) hf.rest :)
  unfold destroyGroup
  dsimp only
  rw [hfail]
  have hgone : ({ (((forget s (.mill k)).setGroup k ((forget s (.mill k)).group k)).setGroup k {}) with
      mil := { (((forget s (.mill k)).setGroup k ((forget s (.mill k)).group k)).setGroup k {}).mil with
        flight := ((forget s (.mill k)).setGroup k ((forget s (.mill k)).group k)).mil.flight.filter
          fun f => f.m.group ≠ k } } : State) = groupGone s (forget s (.mill k)) k := by
    unfold groupGone
    rw [← hflight]
    rfl
  rw [hgone]
  refine bellCheck_nothing fun e he q => hbell e ?_ q
  rw [← hparked]
  exact he

theorem groupGone_host (s u : State) (k : Nat) : (groupGone s u k).host = u.host := rfl

theorem groupGone_iso (s u : State) (k q : Nat) : (groupGone s u k).iso q = u.iso q := rfl

theorem groupGone_group (s u : State) (k j : Nat) : (groupGone s u k).group j = if j = k then {} else u.group j := by
  have h : (groupGone s u k).group j = ((u.setGroup k (u.group k)).setGroup k {}).group j := rfl
  rw [h, State.group_setGroup]
  split
  · rfl
  · next hj => rw [State.group_setGroup, if_neg hj]

/-- RED_GROUP_DESTROY of an idle group frees it. -/
theorem redGroupDestroy_gives {k : Nat} {force : Bool}
    (hs : Starts s s1 0x51 h [(0, 1, 1), (1, 1, k), (2, 1, b2n force)])
    (hstate : (s.group k).state ≠ 0) (hctx : (s.group k).ctx = h.ctx) (hbusy : groupBusy s k = false)
    (hbell : ∀ e ∈ s.host.parked, ∀ q, e.2.2 ≠ .bell k q) :
    Gives (.redGroupDestroy h k force) s fun t =>
      Completed s t h 0x51 stDONE 0 ∧ t.group k = {} ∧ (∀ f ∈ t.mil.flight, f.m.group ≠ k) ∧
      ∀ j, j ≠ k → t.group j = s.group j := by
  have st := hs.started
  have hb : groupBusy s1 k = false := by rw [st.mod]; exact hbusy
  have hf : OnlyLinksXlt s1 (forget s1 (.mill k)) := onlyLinksXlt_forgetIf s1 _
  have hhost : ∀ {α : Type} (f : Host_ → α), (∀ x ls, f { x with links := ls } = f x) →
      f (groupGone s1 (forget s1 (.mill k)) k).host = f s1.host := by
    intro α f hf'
    rw [groupGone_host, ← hf' _ s1.host.links]
    exact congrArg f hf.host
  have only := onlyHost_finishSt (s := groupGone s1 (forget s1 (.mill k)) k) (d64 := 0) h.ring h.seq
    (show stDONE ≠ stDIELOST by decide)
  refine ⟨finishSt (groupGone s1 (forget s1 (.mill k)) k) h.ring h.seq stDONE 0, ?runs, ?completed, ?free, ?flight, ?others⟩
  case runs =>
    refine (command_runs hs (by simp [st.group, hstate, hctx])).trans ?_
    rw [hb, if_neg (by simp), destroyGroup_idle hb (by rw [st.parked]; exact hbell)]
  case completed =>
    have hcmd := fun r q => State.cmd?_of_inflight (hhost Host_.inflight fun _ _ => rfl) r q
    have hiso : (groupGone s1 (forget s1 (.mill k)) k).iso (h.ring / 16) = false := by
      rw [groupGone_iso, hf.iso]
      exact st.iso
    exact st.completed ((completed_finishSt ((hcmd _ _).trans st.cmd) hiso (by decide)).from (fun r q _ => hcmd r q)
      (hhost Host_.rings fun _ _ => rfl) (hhost Host_.held fun _ _ => rfl))
  case free => rw [only.group, groupGone_group, if_pos rfl]
  case flight =>
    rw [only.mil]
    intro f hf
    simpa using (List.mem_filter.mp hf).2
  case others =>
    intro j hj
    rw [only.group, groupGone_group, if_neg hj]
    exact (hf.group j).trans (st.group j)

/-- Settles O38. -/
theorem groupCommands : Obligations.GroupCommands := by
  unfold Obligations.GroupCommands
  intro h d k force s
  refine ⟨fun hs hbad => ?create, fun hs hstate hctx => ?destroy⟩
  case create =>
    obtain ⟨s1, hs⟩ := hs
    exact ⟨redGroupCreate_gives hs hbad, redGroupCreate_resource hs hbad⟩
  case destroy =>
    obtain ⟨s1, hs⟩ := hs
    exact ⟨redGroupDestroy_gives hs hstate hctx, redGroupDestroy_resource hs hstate hctx⟩

end Sys2Proof.Machine
end

section
/-! The poll of a WAIT command, for O34. -/

namespace Sys2Proof.Machine

/-- The header of a command of ring 0 in context 1. -/
def splitHdr : Hdr := ⟨0, 1, 1, 1, 0, 0, 0⟩

/-- A HOST segment of two pages of 64 MiB. -/
def twoPages : SegDesc := ⟨1, 0, true, true, false, 0, 0, 2, 0, 0⟩

/-- A WAIT on the eight bytes from four bytes below the first page's end, whose second page is not in the caches. -/
def splitWait : State :=
  { xlt := { segs := [(16, some twoPages)], l1 := [(300, [⟨⟨1, 0, 0⟩, 0⟩])] }
    host := {
      links := [(0, { up := true, busMaster := true, winBase := [(0, 1)], winLimit := [(0, 0x8000000)] })]
      inflight := [cmdOf splitHdr 0x31]
      parked := [(0, 0, .wait 0 0x3FFFFFC 0)] } }

/-- The first page's translation reaches the host's memory through link 0. -/
theorem splitWait_xlate : (xlate splitWait (cmdReq 0 0 1) 0 0x3FFFFFC 8).2 = .ok (.host 0 0x3FFFFFC) := by decide +kernel

theorem splitWait_noRetrain : ((xlate splitWait (cmdReq 0 0 1) 0 0x3FFFFFC 8).1.link 0).retraining = false := by
  decide +kernel

/-- Whether a command is in flight once a step has completed. -/
def inFlightAfter (r : Out) (ring : Nat) (seq : W32) : Bool :=
  match r with
  | .next s => (s.cmd? ring seq).isSome
  | _ => false

/-- The poll waits for the second page's walk. -/
theorem splitWait_waits : inFlightAfter (exec (.waitPollRead 0 0 (some 0)) splitWait) 0 0 = true := by decide +kernel

/-- Refutes O34: the clause of the poll does not say that the word is aligned, as the start of a WAIT asks. Where the
eight bytes cross the end of a page, `xlate` of the first page is no translation of the word: the poll waits for the
walk of the second page, though the comparison holds. -/
theorem not_waitingCommands : ¬ Obligations.WaitingCommands := by
  intro h
  obtain ⟨-, hpoll, -, -⟩ := h splitHdr 0 0x3FFFFFC 0x3FFFFFC 0 0 none 0 [] splitWait
    (xlate splitWait (cmdReq 0 0 1) 0 0x3FFFFFC 8).1 splitWait
  obtain ⟨-, hhost⟩ := hpoll (by decide) rfl (by decide) (by decide) ⟨by decide, by decide⟩ (by decide)
  obtain ⟨hdone, -⟩ := hhost 0 0 (Prod.ext rfl splitWait_xlate) splitWait_noRetrain
  obtain ⟨t, ht, hcompleted, -⟩ := hdone (.inl ⟨rfl, rfl⟩)
  have hwaits := splitWait_waits
  rw [show exec (.waitPollRead 0 0 (some 0)) splitWait = .next t from ht] at hwaits
  have hinflight : (t.cmd? 0 0).isSome = true := hwaits
  rw [show t.cmd? 0 0 = none from hcompleted.ended] at hinflight
  exact Bool.false_ne_true hinflight

end Sys2Proof.Machine
end

section
/-! Accesses of a thread to global memory, for O15. -/

namespace Sys2Proof.Machine

variable {s s1 s2 : State} {n t pr d a b c size op vis dpa : Nat} {bs : List Byte}

/-! ### Accesses of an agent whose translation is cached -/

section
variable {rq : Req} {v k l : Nat}

/-- An aligned access of up to eight bytes lies in one page. -/
theorem inPage_of_aligned (hs : size ≤ 3) (ha : v % 2 ^ size = 0) : v % 2 ^ 26 + 2 ^ size ≤ 2 ^ 26 := by
  obtain rfl | rfl | rfl | rfl : size = 0 ∨ size = 1 ∨ size = 2 ∨ size = 3 := by omega
  all_goals omega

theorem accessRead_dev {acc : Nat} (hf : Fresh s rq.agent) (hk : 0 < k) (hpage : v % 2 ^ 26 + k ≤ 2 ^ 26)
    (hx : xlate s rq acc v k = (s1, .ok (.dev dpa))) (hm : memRead s1 dpa k = (s2, .ok bs)) :
    accessRead s rq acc v k = .done (readsDone s2 rq.agent) bs [] := by
  unfold accessRead
  rw [xlateAll_fresh hf hk hpage hx]
  exact readAt_dev ((readsOf_of_host (onlyXltSys_xlate hx).host _).trans hf.reads) hm

theorem accessRead_dev_held {acc h : Nat} (hf : Fresh s rq.agent) (hk : 0 < k) (hpage : v % 2 ^ 26 + k ≤ 2 ^ 26)
    (hx : xlate s rq acc v k = (s1, .ok (.dev dpa))) (hm : memRead s1 dpa k = (s2, .error (.held h))) :
    accessRead s rq acc v k = .waits (holdAt s2 rq acc v k [(.dev dpa, k)]) := by
  unfold accessRead
  rw [xlateAll_fresh hf hk hpage hx]
  exact readAt_dev_held ((readsOf_of_host (onlyXltSys_xlate hx).host _).trans hf.reads) hm

/-- An access that writes goes on with its translated pieces. -/
theorem accessWrite_pieces {ro : Bool} {g : Tgt} (hf : Fresh s rq.agent) (hk : 0 < bs.length)
    (hpage : v % 2 ^ 26 + bs.length ≤ 2 ^ 26) (hx : xlate s rq 1 v bs.length = (s1, .ok g)) :
    accessWrite ro s rq v bs =
      match writePieces ro s1 [(g, bs.length)] bs with
      | (s, some (.held _)) => .waits (holdAt s rq 1 v bs.length [(g, bs.length)])
      | (s, some f) => .fails s f
      | (s, none) => .done s [] (hostLinks [(g, bs.length)]) := by
  unfold accessWrite
  rw [xlateAll_fresh hf hk hpage hx] <;> rfl

theorem writePieces_dev {ro : Bool} {f : Option Fail} (hm : memWrite s dpa bs = (s1, f)) :
    writePieces ro s [(.dev dpa, bs.length)] bs = (s1, f) := by
  rw [writePieces, List.take_length, hm]
  cases f with
  | none => dsimp only; rw [writePieces]
  | some f => rfl

theorem writePieces_host {ro : Bool} (hr : (s.link l).retraining = false) :
    writePieces ro s [(.host l dpa, bs.length)] bs = (hostWrite s l ro dpa bs, none) := by
  rw [writePieces, hr, if_neg Bool.false_ne_true, writePieces, List.take_length]

theorem writePieces_host_held {ro : Bool} (hr : (s.link l).retraining = true) :
    writePieces ro s [(.host l dpa, bs.length)] bs = (s, some (.held dpa)) := by
  rw [writePieces, hr, if_pos rfl]

theorem accessAtom_dev {old x y : Word} (hf : Fresh s rq.agent) (ha : v % 8 = 0)
    (hx : xlate s rq 2 v 8 = (s1, .ok (.dev dpa))) (hm : memAtom s1 dpa op x y = (s2, .ok old)) :
    accessAtom s rq v op x y = .done s2 (leBytes 8 old.toNat) [] := by
  unfold accessAtom
  rw [xlateAll_fresh hf (by omega) (by omega) hx]
  dsimp only
  rw [hm]

end

/-! ### LDG, STG and ATOM (R98, R131, R278) -/

theorem clear_sizeChecks {v : Nat} (hs : size ≤ 3) (ha : v % 2 ^ size = 0) (hv : v < 2 ^ 56) :
    Clear ((decide (3 < size), cILLEGAL, 0) :: dvaChecks v (sizeBytes size)) :=
  clear_cons.mpr ⟨decide_eq_false (by omega), clear_dvaChecks ha hv⟩

/-- A load whose access is done. -/
theorem ldg_done {ls : List Nat} (hi : MayIssue s n t pr) (hs : size ≤ 3) (ha : ((s.thr n t).rs a).toNat % 2 ^ size = 0)
    (hv : ((s.thr n t).rs a).toNat < 2 ^ 56)
    (hacc : accessRead s (coreReq s n t (.thread n t)) 0 ((s.thr n t).rs a).toNat (2 ^ size) = .done s2 bs ls) :
    exec (.ldg n t pr d a size) s =
      .next ((s2.modThr n t fun th => th.ws d (BitVec.ofNat 64 (leNat bs))).modThr n t retire) := by
  refine (exec_ldg ..).trans ?_
  unfold execLdg
  refine coreStep_done hi.runs hi.next (firstCheck_clear (clear_sizeChecks hs ha hv)) ?_
  dsimp only
  rw [show sizeBytes size = 2 ^ size from rfl, hacc]
  rfl

theorem ldg_waits (hi : MayIssue s n t pr) (hs : size ≤ 3) (ha : ((s.thr n t).rs a).toNat % 2 ^ size = 0)
    (hv : ((s.thr n t).rs a).toNat < 2 ^ 56)
    (hacc : accessRead s (coreReq s n t (.thread n t)) 0 ((s.thr n t).rs a).toNat (2 ^ size) = .waits s2) :
    exec (.ldg n t pr d a size) s = .next (block s2 n t .access (some (.ldg pr d a size))) := by
  refine (exec_ldg ..).trans ?_
  unfold execLdg
  refine coreStep_stay hi.runs hi.next (firstCheck_clear (clear_sizeChecks hs ha hv)) ?_
  dsimp only
  rw [show sizeBytes size = 2 ^ size from rfl, hacc]
  rfl

/-- The checks of a store. -/
theorem clear_stgChecks {v : Nat} (hs : size ≤ 3) (hvis : vis ≤ 2) (ha : v % 2 ^ size = 0) (hv : v < 2 ^ 56) :
    Clear ((decide (3 < size) || decide (2 < vis), cILLEGAL, 0) :: dvaChecks v (sizeBytes size)) :=
  clear_cons.mpr ⟨by simp; omega, clear_dvaChecks ha hv⟩

/-- A store whose access is done. -/
theorem stg_done {ls : List Nat} {s3 : State} (hi : MayIssue s n t pr) (hs : size ≤ 3) (hvis : vis ≤ 2)
    (ha : ((s.thr n t).rs a).toNat % 2 ^ size = 0) (hv : ((s.thr n t).rs a).toNat < 2 ^ 56)
    (hacc : accessWrite true s (coreReq s n t (.thread n t)) ((s.thr n t).rs a).toNat
      (leBytes (2 ^ size) ((s.thr n t).rs b).toNat) = .done s2 bs ls)
    (hstored : hostStored s2 n t vis ls = .done s3) :
    exec (.stg n t pr a b size vis) s = .next (s3.modThr n t retire) := by
  refine (exec_stg ..).trans ?_
  unfold execStg
  refine coreStep_done hi.runs hi.next (firstCheck_clear (clear_stgChecks hs hvis ha hv)) ?_
  dsimp only
  rw [show sizeBytes size = 2 ^ size from rfl, hacc]
  exact hstored

theorem stg_waits (hi : MayIssue s n t pr) (hs : size ≤ 3) (hvis : vis ≤ 2)
    (ha : ((s.thr n t).rs a).toNat % 2 ^ size = 0) (hv : ((s.thr n t).rs a).toNat < 2 ^ 56)
    (hacc : accessWrite true s (coreReq s n t (.thread n t)) ((s.thr n t).rs a).toNat
      (leBytes (2 ^ size) ((s.thr n t).rs b).toNat) = .waits s2) :
    exec (.stg n t pr a b size vis) s = .next (block s2 n t .access (some (.stg pr a b size vis))) := by
  refine (exec_stg ..).trans ?_
  unfold execStg
  refine coreStep_stay hi.runs hi.next (firstCheck_clear (clear_stgChecks hs hvis ha hv)) ?_
  dsimp only
  rw [show sizeBytes size = 2 ^ size from rfl, hacc]
  rfl

theorem atom_done {ls : List Nat} (hi : MayIssue s n t pr) (hop : op ≤ 10) (hvis : vis ≤ 2)
    (ha : ((s.thr n t).rs a).toNat % 8 = 0) (hv : ((s.thr n t).rs a).toNat < 2 ^ 56)
    (hacc : accessAtom s (coreReq s n t (.thread n t)) ((s.thr n t).rs a).toNat op ((s.thr n t).rs b)
      ((s.thr n t).rs c) = .done s2 bs ls) :
    exec (.atom n t pr d a b c op vis) s =
      .next ((s2.modThr n t fun th => th.ws d (BitVec.ofNat 64 (leNat bs))).modThr n t retire) := by
  refine (exec_atom ..).trans ?_
  unfold execAtom
  refine coreStep_done hi.runs hi.next
    (firstCheck_clear (clear_cons.mpr ⟨by simp; omega, clear_dvaChecks ha hv⟩)) ?_
  dsimp only
  rw [hacc]
  rfl

/-- A thread notes a link that it has written to. -/
def noteLink (l : Nat) (x : Thread) : Thread :=
  { x with hostLinks := if x.hostLinks.contains l then x.hostLinks else l :: x.hostLinks }

theorem hostStored_local (l : Nat) (hvis : vis ≤ 1) : hostStored s n t vis [l] = .done (s.modThr n t (noteLink l)) := by
  unfold hostStored
  dsimp only
  rw [if_neg (by omega)]
  rfl

theorem mem_noteLink (l : Nat) (x : Thread) : l ∈ (retire (noteLink l x)).hostLinks := by
  change l ∈ (if _ then _ else _)
  split
  · next hc => exact List.contains_iff_mem.mp hc
  · exact List.mem_cons_self

/-- A store of a thread to host memory, its link up. -/
theorem stg_host {l : Nat} (hi : MayIssue s n t pr) (hf : Fresh s (.thread n t)) (hs : size ≤ 3) (hvis : vis ≤ 1)
    (ha : ((s.thr n t).rs a).toNat % 2 ^ size = 0) (hv : ((s.thr n t).rs a).toNat < 2 ^ 56)
    (hx : xlate s (coreReq s n t (.thread n t)) 1 ((s.thr n t).rs a).toNat (2 ^ size) = (s1, .ok (.host l dpa)))
    (hr : (s1.link l).retraining = false) :
    Gives (.stg n t pr a b size vis) s fun t' =>
      t'.hostMem = Memory.writeN s1.hostMem dpa (leBytes (2 ^ size) ((s.thr n t).rs b).toNat) ∧ t'.mem = s1.mem ∧
      Retired (s.thr n t) (t'.thr n t) ∧ SameRegs (s.thr n t) (t'.thr n t) ∧ l ∈ (t'.thr n t).hostLinks := by
  have hlen : (leBytes (2 ^ size) ((s.thr n t).rs b).toNat).length = 2 ^ size := length_leBytes ..
  have hacc : accessWrite true s (coreReq s n t (.thread n t)) ((s.thr n t).rs a).toNat
      (leBytes (2 ^ size) ((s.thr n t).rs b).toNat) =
      .done (hostWrite s1 l true dpa (leBytes (2 ^ size) ((s.thr n t).rs b).toNat)) [] [l] := by
    rw [accessWrite_pieces (g := .host l dpa) (s1 := s1) hf (by rw [hlen]; exact Nat.two_pow_pos _)
      (by rw [hlen]; exact inPage_of_aligned hs ha) (by rw [hlen]; exact hx), writePieces_host hr]
    rfl
  have hthr : (hostWrite s1 l true dpa (leBytes (2 ^ size) ((s.thr n t).rs b).toNat)).thr n t = s.thr n t :=
    thr_of_cores (s' := hostWrite s1 l true dpa (leBytes (2 ^ size) ((s.thr n t).rs b).toNat)) (onlyXltSys_xlate hx).cores n t
  refine ⟨_, stg_done hi hs (by omega) ha hv hacc (hostStored_local l hvis), ?_, ?_, ?_, ?_, ?_⟩
  · rw [State.modThr_hostMem, State.modThr_hostMem]; rfl
  · rw [State.modThr_mem, State.modThr_mem]; rfl
  · rw [State.modThr_modThr, hthr]
    exact ⟨rfl, rfl, rfl⟩
  · rw [State.modThr_modThr, hthr]
    exact sameRegs_of rfl rfl rfl rfl rfl
  · rw [State.modThr_modThr]
    exact mem_noteLink ..

theorem stg_host_held {l : Nat} (hi : MayIssue s n t pr) (hf : Fresh s (.thread n t)) (hs : size ≤ 3) (hvis : vis ≤ 2)
    (ha : ((s.thr n t).rs a).toNat % 2 ^ size = 0) (hv : ((s.thr n t).rs a).toNat < 2 ^ 56)
    (hx : xlate s (coreReq s n t (.thread n t)) 1 ((s.thr n t).rs a).toNat (2 ^ size) = (s1, .ok (.host l dpa)))
    (hr : (s1.link l).retraining = true) :
    exec (.stg n t pr a b size vis) s =
      .next (block (holdAt s1 (coreReq s n t (.thread n t)) 1 ((s.thr n t).rs a).toNat (2 ^ size)
        [(.host l dpa, 2 ^ size)]) n t .access (some (.stg pr a b size vis))) := by
  refine stg_waits hi hs hvis ha hv ?_
  have hlen : (leBytes (2 ^ size) ((s.thr n t).rs b).toNat).length = 2 ^ size := length_leBytes ..
  rw [accessWrite_pieces (g := .host l dpa) (s1 := s1) hf (by rw [hlen]; exact Nat.two_pow_pos _)
    (by rw [hlen]; exact inPage_of_aligned hs ha) (by rw [hlen]; exact hx), writePieces_host_held hr, hlen]

/-- A store of a thread to device memory: what its home answers decides. -/
theorem accessWrite_dev {f : Option Fail} (hf : Fresh s (.thread n t)) (hs : size ≤ 3)
    (ha : ((s.thr n t).rs a).toNat % 2 ^ size = 0)
    (hx : xlate s (coreReq s n t (.thread n t)) 1 ((s.thr n t).rs a).toNat (2 ^ size) = (s1, .ok (.dev dpa)))
    (hm : memWrite s1 dpa (leBytes (2 ^ size) ((s.thr n t).rs b).toNat) = (s2, f)) :
    accessWrite true s (coreReq s n t (.thread n t)) ((s.thr n t).rs a).toNat
      (leBytes (2 ^ size) ((s.thr n t).rs b).toNat) =
      match f with
      | some (.held _) =>
        .waits (holdAt s2 (coreReq s n t (.thread n t)) 1 ((s.thr n t).rs a).toNat (2 ^ size) [(.dev dpa, 2 ^ size)])
      | some f => .fails s2 f
      | none => .done s2 [] [] := by
  have hlen : (leBytes (2 ^ size) ((s.thr n t).rs b).toNat).length = 2 ^ size := length_leBytes ..
  rw [accessWrite_pieces (g := .dev dpa) (s1 := s1) hf (by rw [hlen]; exact Nat.two_pow_pos _)
    (by rw [hlen]; exact inPage_of_aligned hs ha) (by rw [hlen]; exact hx), writePieces_dev hm, hlen]
  cases f with
  | none => rfl
  | some f => cases f <;> rfl

/-! ### PREF (R437) -/

theorem OnlyPath.xlt {s s' : State} (h : OnlyPath s s') : s'.xlt = s.xlt := (congrArg State.xlt h :)

/-- What a prefetch leaves alone: every thread, the other cores, and the faults. -/
structure PrefFrame (s s' : State) (n : Nat) : Prop where
  threads : ∀ u, s'.thr n u = s.thr n u
  cores : ∀ m, m ≠ n → s'.core m = s.core m
  faults : s'.xlt.faults = s.xlt.faults

theorem prefFrame_prefLine (e : XEnt) (fb port : Nat) (sd : SegDesc) (v : Nat) :
    PrefFrame s (prefLine (l1Insert s fb port e) sd v e.entry) n := by
  unfold prefLine
  dsimp only
  split
  · have h := onlyPath_lineReadIf true (l1Insert s fb port e)
      ((bits e.entry 39 26 * 2 ^ 26 + (v - sd.base) % pageSize sd) / 256 * 256) 256
    exact ⟨fun u => thr_of_cores h.cores n u, fun m _ => core_of_cores h.cores m, (congrArg Xlt.faults h.xlt :)⟩
  · exact ⟨fun _ => rfl, fun _ _ => rfl, rfl⟩

/-- An operation joins those of its core. -/
def withOp (s : State) (n : Nat) (o : Core → AOp) (id : Nat) : State :=
  s.modCore n fun c => { c with aops := c.aops ++ [o c], nextId := id }

theorem thr_withOp (o : Core → AOp) (id u : Nat) : (withOp s n o id).thr n u = s.thr n u := by
  unfold State.thr withOp
  rw [State.core_modCore_same]
  rfl

theorem core_withOp (o : Core → AOp) (id : Nat) {m : Nat} (hm : m ≠ n) : (withOp s n o id).core m = s.core m := by
  unfold withOp
  rw [State.core_modCore, if_neg hm]

theorem addMiss_frame (s : State) (fb : Nat) (k : XKey) (w : Waiter) :
    (addMiss s fb k w).cores = s.cores ∧ (addMiss s fb k w).xlt.faults = s.xlt.faults := by
  unfold addMiss
  dsimp only
  split
  · exact ⟨rfl, rfl⟩
  · split <;> exact ⟨rfl, rfl⟩

theorem prefFrame_miss (o : Core → AOp) (id fb : Nat) (k : XKey) (w : Waiter) :
    PrefFrame s (addMiss (withOp s n o id) fb k w) n := by
  obtain ⟨hcores, hfaults⟩ := addMiss_frame (withOp s n o id) fb k w
  exact ⟨fun u => (thr_of_cores hcores n u).trans (thr_withOp ..),
    fun m hm => (core_of_cores hcores m).trans (core_withOp _ _ hm), hfaults⟩

theorem prefFrame_prefetch (v : Nat) (start : Bool) : PrefFrame s (prefetch s n t v start) n := by
  have stays : PrefFrame s s n := ⟨fun _ => rfl, fun _ _ => rfl, rfl⟩
  unfold prefetch
  dsimp only
  split
  · exact stays
  · split
    · exact stays
    · split
      · exact stays
      · split
        · exact prefFrame_prefLine ..
        · split
          · exact stays
          · exact prefFrame_miss (fun c => ⟨(s.core n).nextId, t, (c.thread t).pc.toNat, 0, .pref v, 0, 2, [], []⟩) _ _ _ _

theorem pref_done (hi : MayIssue s n t pr) :
    exec (.pref n t pr a) s = .next ((prefetch s n t ((s.thr n t).rs a).toNat true).modThr n t retire) :=
  (exec_pref ..).trans (coreStep_done hi.runs hi.next (firstCheck_clear clear_nil) rfl)

/-- PREF retires whatever its address. -/
theorem pref_gives (hi : MayIssue s n t pr) :
    Gives (.pref n t pr a) s fun s' =>
      Retired (s.thr n t) (s'.thr n t) ∧ SameRegs (s.thr n t) (s'.thr n t) ∧ (∀ u, u ≠ t → s'.thr n u = s.thr n u) ∧
      (∀ m, m ≠ n → s'.core m = s.core m) ∧ s'.xlt.faults = s.xlt.faults ∧
      (2 ^ 56 ≤ ((s.thr n t).rs a).toNat → s' = s.modThr n t retire) := by
  obtain ⟨hthreads, hcores, hfaults⟩ := prefFrame_prefetch (s := s) (n := n) (t := t) ((s.thr n t).rs a).toNat true
  refine ⟨_, pref_done hi, ?_, ?_, fun u hu => ?_, fun m hm => ?_, ?_, fun hbig => ?_⟩
  · rw [State.thr_modThr_same, hthreads]
    exact ⟨rfl, rfl, rfl⟩
  · rw [State.thr_modThr_same, hthreads]
    exact sameRegs_of rfl rfl rfl rfl rfl
  · rw [State.thr_modThr, if_neg (fun h => hu h.2), hthreads]
  · rw [State.core_modThr, if_neg hm, hcores m hm]
  · rw [State.modThr_xlt, hfaults]
  · unfold prefetch
    dsimp only
    rw [if_pos hbig]

end Sys2Proof.Machine
end

section
/-! The word of device memory that an atomic leaves, for O15: what an access of one line does to the line's bytes, behind the
cache (R116 to R131, R149). -/

namespace Sys2Proof.Machine

variable {s s1 s2 t : State} {a b L n op : Nat} {bs : List Byte}

/-! ### The list of resident lines -/

theorem find_tput {α : Type} (t : Tbl α) (k j : Nat) (x : α) :
    ((tput t k x).find? fun e => e.1 = j).map (·.2) = if j = k then some x else (t.find? fun e => e.1 = j).map (·.2) := by
  induction t with
  | nil => simp only [tput, List.find?_cons, List.find?_nil]; grind
  | cons e r ih =>
    obtain ⟨i, y⟩ := e
    unfold tput
    split
    · simp only [List.find?_cons]; grind
    · split
      · simp only [List.find?_cons]; grind
      · simp only [List.find?_cons]; grind

theorem find_tdel {α : Type} (t : Tbl α) (k j : Nat) :
    ((tdel t k).find? fun e => e.1 = j).map (·.2) = if j = k then none else (t.find? fun e => e.1 = j).map (·.2) := by
  induction t with
  | nil => simp [tdel]
  | cons e r ih =>
    obtain ⟨i, y⟩ := e
    unfold tdel
    split
    · simp only [List.find?_cons]; grind
    · simp only [List.find?_cons]; grind

theorem cline_setCline (s : State) (k j : Nat) (c : CLine) :
    (s.setCline k c).cline j = if j = k then some c else s.cline j := by
  unfold State.cline State.setCline
  exact find_tput ..

theorem cline_dropLine (s : State) (k j : Nat) : (dropLine s k).cline j = if j = k then none else s.cline j := by
  unfold State.cline dropLine
  exact find_tdel ..

theorem read_clearRange (m : Memory) (x y b : Nat) :
    Memory.read (Memory.clearRange m x y) b = if x ≤ b ∧ b < y then Memory.blank else Memory.read m b := by
  induction m with
  | nil => unfold Memory.clearRange Memory.read; simp [tget]
  | cons e m ih =>
    obtain ⟨i, v⟩ := e
    unfold Memory.clearRange Memory.read at *
    simp only [List.filter_cons]
    split
    · simp only [tget, ih]; grind
    · simp only [tget, ih]; grind

/-! ### The bytes of a line -/

/-- The line, its bytes in the array and in the cache, and whether its write-back waits are as they were. -/
structure SameLine (s t : State) (L : Nat) : Prop where
  cline : t.cline L = s.cline L
  held : lineHeld t L = lineHeld s L
  mem : ∀ b, b / 256 = L → Memory.read t.mem b = Memory.read s.mem b
  gmem : ∀ b, b / 256 = L → Memory.read t.gmem b = Memory.read s.gmem b

theorem SameLine.refl (s : State) (L : Nat) : SameLine s s L := ⟨rfl, rfl, fun _ _ => rfl, fun _ _ => rfl⟩

theorem SameLine.trans {u : State} (h : SameLine s t L) (g : SameLine t u L) : SameLine s u L where
  cline := g.cline.trans h.cline
  held := g.held.trans h.held
  mem b hb := (g.mem b hb).trans (h.mem b hb)
  gmem b hb := (g.gmem b hb).trans (h.gmem b hb)

/-- The arrays, the resident lines and the write-backs are as they were. -/
structure SameArrays (s t : State) : Prop where
  mem : t.mem = s.mem
  gmem : t.gmem = s.gmem
  lines : t.dram.lines = s.dram.lines
  backs : t.dram.writeBacks = s.dram.writeBacks

theorem SameArrays.refl (s : State) : SameArrays s s := ⟨rfl, rfl, rfl, rfl⟩

theorem SameArrays.trans {u : State} (h : SameArrays s t) (g : SameArrays t u) : SameArrays s u :=
  ⟨g.mem.trans h.mem, g.gmem.trans h.gmem, g.lines.trans h.lines, g.backs.trans h.backs⟩

theorem SameArrays.cline (h : SameArrays s t) (L : Nat) : t.cline L = s.cline L := by
  unfold State.cline; rw [h.lines]

theorem SameArrays.held (h : SameArrays s t) (L : Nat) : lineHeld t L = lineHeld s L := by
  unfold lineHeld; rw [h.backs]

theorem SameArrays.sameLine (h : SameArrays s t) (L : Nat) : SameLine s t L :=
  ⟨h.cline L, h.held L, fun _ _ => by rw [h.mem], fun _ _ => by rw [h.gmem]⟩

theorem sameArrays_ev (s : State) (code fb block inst d0 d1 : Nat) : SameArrays s (ev s code fb block inst d0 d1) := by
  have h := onlyLog_ev s code fb block inst d0 d1
  exact ⟨(congrArg State.mem h :), (congrArg State.gmem h :), (congrArg (fun u : State => u.dram.lines) h :),
    (congrArg (fun u : State => u.dram.writeBacks) h :)⟩

theorem sameArrays_wakeStack (s : State) (a : Nat) : SameArrays s (wakeStack s a) := by
  unfold wakeStack
  dsimp only
  split <;> exact ⟨rfl, rfl, rfl, rfl⟩

theorem sameArrays_noteUe (s : State) (a : Nat) : SameArrays s (noteUe s a) := by
  unfold noteUe
  dsimp only
  exact SameArrays.trans (t := s.setHbm (homeQ a) _) ⟨rfl, rfl, rfl, rfl⟩ (sameArrays_ev ..)

theorem sameArrays_burstStop (s : State) (x : Nat) : SameArrays s (burstStop s x).1 := by
  unfold burstStop
  split
  · exact .refl s
  · dsimp only
    split
    · exact SameArrays.trans (t := countUe s (64 * x)) ⟨rfl, rfl, rfl, rfl⟩ (sameArrays_noteUe ..)
    · exact sameArrays_noteUe ..

theorem sameArrays_freshBurst (s : State) (x : Nat) : SameArrays s (freshBurst s x) := by
  unfold freshBurst
  dsimp only
  split <;> split <;> exact ⟨rfl, rfl, rfl, rfl⟩

theorem sameArrays_freshBursts (xs : List Nat) : ∀ s : State, SameArrays s (xs.foldl freshBurst s) := by
  induction xs with
  | nil => exact fun s => .refl s
  | cons x xs ih => exact fun s => (sameArrays_freshBurst s x).trans (ih _)

/-! ### Controllers -/

/-- A controller's read leaves the arrays, and answers the array's bytes. -/
theorem dramRead_arrays (s : State) (a n : Nat) : SameArrays s (dramRead s a n).1 := by
  unfold dramRead
  dsimp only
  split
  · exact sameArrays_wakeStack s a
  · exact (sameArrays_wakeStack s a).trans (sameArrays_burstStop _ _)

theorem dramRead_ok (h : dramRead s a n = (t, .ok bs)) : bs = Memory.readN s.mem a n := by
  unfold dramRead at h
  dsimp only at h
  split at h
  · obtain ⟨-, hbs⟩ := Prod.mk.inj h
    rw [← Except.ok.inj hbs, (sameArrays_wakeStack s a).mem]
  · exact nomatch (Prod.mk.inj h).2

/-- What a controller's write leaves: its bytes in the array, or everything as it was. -/
theorem dramWrite_arrays {f : Option Fail} (h : dramWrite s a bs = (t, f)) :
    t.mem = (if f = none then Memory.writeN s.mem a bs else s.mem) ∧ t.gmem = s.gmem ∧
      t.dram.lines = s.dram.lines ∧ t.dram.writeBacks = s.dram.writeBacks := by
  unfold dramWrite at h
  dsimp only at h
  split at h
  · next x _ =>
    obtain ⟨rfl, rfl⟩ := Prod.mk.inj h
    obtain ⟨hmem, hgmem, hlines, hbacks⟩ := (sameArrays_wakeStack s a).trans (sameArrays_burstStop _ x)
    exact ⟨hmem, hgmem, hlines, hbacks⟩
  · obtain ⟨rfl, rfl⟩ := Prod.mk.inj h
    obtain ⟨hmem, hgmem, hlines, hbacks⟩ := (sameArrays_wakeStack s a).trans (sameArrays_freshBursts
      ((burstsOf a bs.length).filter (coversBurst a bs.length)) (wakeStack s a))
    refine ⟨?_, hgmem, hlines, hbacks⟩
    rw [if_pos rfl, ← hmem]

/-! ### Victims -/

theorem mem_line_of_ne {k b : Nat} (hk : k ≠ L) (hb : b / 256 = L) : ¬ (256 * k ≤ b ∧ b < 256 * k + 256) := by omega

/-- A controller's write of another line leaves the line. -/
theorem sameLine_dramWrite {k : Nat} {f : Option Fail} (hk : k ≠ L) (hlen : bs.length = 256)
    (h : dramWrite s (256 * k) bs = (t, f)) : SameLine s t L := by
  obtain ⟨hmem, hgmem, hlines, hbacks⟩ := dramWrite_arrays h
  refine ⟨by unfold State.cline; rw [hlines], by unfold lineHeld; rw [hbacks], fun b hb => ?_, fun _ _ => by rw [hgmem]⟩
  rw [hmem]
  split
  · rw [Memory.read_writeN, hlen, if_neg (mem_line_of_ne hk hb)]
  · rfl

/-- Writing back another line leaves the line. -/
theorem sameLine_storeBack {k : Nat} (hk : k ≠ L) (hlen : bs.length = 256) : SameLine s (storeBack s k bs) L := by
  unfold storeBack
  split
  · next e => exact sameLine_dramWrite hk hlen e
  · next e =>
    refine (sameLine_dramWrite hk hlen e).trans ⟨rfl, ?_, fun _ _ => rfl, fun _ _ => rfl⟩
    simp [lineHeld, hk]
  · next e => exact (sameLine_dramWrite hk hlen e).trans ⟨rfl, rfl, fun _ _ => rfl, fun _ _ => rfl⟩

/-- A victim's way is freed: the line, another one, is left. -/
theorem sameLine_evict {k : Nat} (hk : k ≠ L) : SameLine s (evict s k) L := by
  have hdrop : SameLine s (dropLine s k) L := by
    refine ⟨?_, rfl, fun _ _ => rfl, fun b hb => ?_⟩
    · rw [cline_dropLine, if_neg (Ne.symm hk)]
    · exact (read_clearRange ..).trans (if_neg (mem_line_of_ne hk hb))
  unfold evict
  split
  · exact .refl s L
  · split
    · exact hdrop.trans (sameLine_storeBack hk (Memory.length_readN ..))
    · exact hdrop

theorem sameArrays_pickWay (s : State) (fb b set : Nat) : SameArrays s (pickWay s fb b set).1 := by
  unfold pickWay
  dsimp only
  split
  · exact .refl s
  · split
    · exact .refl s
    · split
      · exact .refl s
      · exact ⟨rfl, rfl, rfl, rfl⟩

/-- No entry of the cache is the line. -/
theorem ne_of_cline_none {e : Nat × CLine} (h : s.cline L = none) (he : e ∈ s.dram.lines) : e.1 ≠ L := by
  unfold State.cline at h
  rw [Option.map_eq_none_iff, List.find?_eq_none] at h
  exact fun heq => h e he (by simpa using heq)

/-- The line, which was not resident, is not dirty; its bytes in the array and whether its write-back waits are as they
were. -/
structure StillClean (s t : State) (L : Nat) : Prop where
  clean : ∀ c, t.cline L = some c → c.dirty = false
  held : lineHeld t L = lineHeld s L
  mem : ∀ b, b / 256 = L → Memory.read t.mem b = Memory.read s.mem b

/-- Making a line resident that was not. -/
theorem stillClean_allocLine {v : Bool} (h : s.cline L = none) : StillClean s (allocLine s L false v) L := by
  have hpick := sameArrays_pickWay s (homeQ (256 * L)) (devBank (256 * L)) (devSet (256 * L))
  unfold allocLine
  dsimp only
  split
  · next u e =>
    rw [e] at hpick
    refine ⟨fun c hc => ?_, hpick.held L, (hpick.sameLine L).mem⟩
    exact nomatch h.symm.trans ((hpick.cline L).symm.trans hc)
  · next u w e =>
    rw [e] at hpick
    have hvictim : SameLine s (match (setLines u (homeQ (256 * L)) (devBank (256 * L)) (devSet (256 * L))).find?
        fun e => e.2.way = w with
      | some e => evict u e.1
      | none => u) L := by
      split
      · next e he =>
        have hin : e ∈ u.dram.lines := (List.mem_filter.mp (List.mem_of_find?_eq_some he)).1
        rw [hpick.lines] at hin
        exact (hpick.sameLine L).trans (sameLine_evict (ne_of_cline_none h hin))
      · exact hpick.sameLine L
    refine ⟨fun c hc => ?_, hvictim.held, hvictim.mem⟩
    rw [cline_setCline, if_pos rfl] at hc
    rw [← Option.some.inj hc]

/-! ### Accesses within the line -/

theorem lineOf {b : Nat} (hb : a ≤ b ∧ b < a + n) (h : a % 256 + n ≤ 256) : b / 256 = a / 256 := by omega

/-- Where no write-back of the line waits and the line is not dirty, its bytes are those of the array. -/
theorem view_clean {b : Nat} (hheld : lineHeld s (b / 256) = false) (hc : ∀ c, s.cline (b / 256) = some c → c.dirty = false) :
    view s b = Memory.read s.mem b := by
  have hnone : s.dram.writeBacks.reverse.find? (fun e => e.1 = b / 256) = none := by
    rw [List.find?_eq_none]
    intro e he
    unfold lineHeld at hheld
    rw [List.any_eq_false] at hheld
    exact hheld e (List.mem_reverse.mp he)
  unfold view
  dsimp only
  rw [hnone]
  split
  · next c hcl => rw [hc c hcl]; rfl
  · rfl

theorem view_dirty {b : Nat} {c : CLine} (hc : s.cline (b / 256) = some c) (hd : c.dirty = true) :
    view s b = Memory.read s.gmem b := by
  unfold view
  dsimp only
  rw [hc]
  dsimp only
  rw [if_pos hd]

/-- Bytes stored into a resident line are what it reads as. -/
theorem view_dirtyLine {b : Nat} {c : CLine} (hb : a ≤ b ∧ b < a + bs.length) :
    view (dirtyLine s (b / 256) c a bs) b = bs.getD (b - a) 0 := by
  have hc : (dirtyLine s (b / 256) c a bs).cline (b / 256) = some { c with dirty := true } := by
    unfold dirtyLine
    dsimp only
    exact (cline_setCline ..).trans (if_pos rfl)
  rw [view_dirty hc rfl]
  unfold dirtyLine
  dsimp only
  rw [Memory.read_writeN, if_pos hb, List.getD_eq_getElem?_getD]
  rfl

/-- A controller's write of bytes of a line that is not dirty. -/
theorem view_dramWrite {b : Nat} (hheld : lineHeld s (b / 256) = false)
    (hc : ∀ c, s.cline (b / 256) = some c → c.dirty = false) (hb : a ≤ b ∧ b < a + bs.length)
    (h : dramWrite s a bs = (t, none)) : view t b = bs.getD (b - a) 0 := by
  obtain ⟨hmem, -, hlines, hbacks⟩ := dramWrite_arrays h
  have hcl : t.cline (b / 256) = s.cline (b / 256) := by unfold State.cline; rw [hlines]
  have hh : lineHeld t (b / 256) = lineHeld s (b / 256) := by unfold lineHeld; rw [hbacks]
  rw [view_clean (hh.trans hheld) (fun c h' => hc c (hcl.symm.trans h')), hmem, if_pos rfl, Memory.read_writeN, if_pos hb,
    List.getD_eq_getElem?_getD]
  rfl

theorem isScr_of_isDev (h : isDev a = true) : isScr a = false := by
  unfold isDev at h
  unfold isScr
  have htop : a < memTop := of_decide_eq_true h
  have hlow : ¬ scrBase ≤ a := by unfold scrBase; unfold memTop at htop; omega
  rw [decide_eq_false hlow, Bool.false_and]

theorem readN_getD (m : Memory) (a : Nat) {n j : Nat} (hj : j < n) : (Memory.readN m a n).getD j 0 = Memory.read m (a + j) := by
  rw [List.getD_eq_getElem?_getD, Memory.readN_get _ _ _ _ hj]
  rfl

theorem not_ok {u v : State} {f : Fail} {α : Type} {x : α} : ((u, Except.error f) : State × Except Fail α) ≠ (v, .ok x) :=
  fun h => nomatch (Prod.mk.inj h).2

/-- A read of device memory within a line answers the bytes that the line holds. -/
theorem lineReadIf_view {al : Bool} {j : Nat} (hdev : isDev a = true) (hin : a % 256 + n ≤ 256) (hj : j < n)
    (h : lineReadIf al s a n = (t, .ok bs)) : bs.getD j 0 = view s (a + j) := by
  have hline : (a + j) / 256 = a / 256 := lineOf (n := n) (by omega) hin
  unfold lineReadIf at h
  rw [isScr_of_isDev hdev, hdev] at h
  rw [if_neg (by simp), if_neg (by simp)] at h
  split at h
  · exact absurd h not_ok
  split at h
  · exact absurd h not_ok
  next hheld =>
  have hh : lineHeld s ((a + j) / 256) = false := by
    rw [hline]
    exact (Bool.or_eq_false_iff.mp (Bool.eq_false_iff.mpr hheld)).2
  split at h
  · exact absurd h not_ok
  split at h
  · exact absurd h not_ok
  split at h
  · next c hc =>
    obtain ⟨-, hbs⟩ := Prod.mk.inj h
    rw [← Except.ok.inj hbs]
    have hcl : s.cline ((a + j) / 256) = some c := hline ▸ hc
    unfold lineBytes
    cases hd : c.dirty with
    | true => rw [if_pos rfl, readN_getD _ _ hj, view_dirty hcl hd]
    | false =>
      rw [if_neg Bool.false_ne_true, readN_getD _ _ hj,
        view_clean hh fun c' hc' => (congrArg CLine.dirty (Option.some.inj (hcl.symm.trans hc'))).symm.trans hd]
  · next hc =>
    have hview : view s (a + j) = Memory.read s.mem (a + j) :=
      view_clean hh fun c' hc' => nomatch hc.symm.trans ((congrArg s.cline hline).symm.trans hc')
    rw [hview]
    split at h
    · exact absurd h not_ok
    · next hr =>
      have hbs := dramRead_ok hr
      split at h
      all_goals
        rw [← Except.ok.inj (Prod.mk.inj h).2, hbs, readN_getD _ _ hj]

theorem not_done {u v : State} {f : Fail} : ((u, some f) : State × Option Fail) ≠ (v, none) :=
  fun h => nomatch (Prod.mk.inj h).2

theorem view_setLost (s : State) (k : Nat) (x : Bool) (b : Nat) : view (s.setLost k x) b = view s b := rfl

/-- A write that misses. -/
theorem missWrite_view {p b : Nat} (hb : a ≤ b ∧ b < a + bs.length) (hh : lineHeld s (b / 256) = false)
    (hc : s.cline (b / 256) = none) (h : missWrite s p (b / 256) a bs = (t, none)) : view t b = bs.getD (b - a) 0 := by
  unfold missWrite at h
  dsimp only at h
  have hwake : SameArrays s (if bs.length = 256 then s else wakeStack s a) := by
    split
    · exact .refl s
    · exact sameArrays_wakeStack s a
  generalize (if bs.length = 256 then s else wakeStack s a) = u at h hwake
  have hcu : u.cline (b / 256) = none := (hwake.cline _).trans hc
  have hhu : lineHeld u (b / 256) = false := (hwake.held _).trans hh
  have hclean : ∀ c, u.cline (b / 256) = some c → c.dirty = false := fun c' hc' => nomatch hcu.symm.trans hc'
  split at h
  · exact absurd h not_done
  split at h
  · exact view_dramWrite hhu hclean hb h
  split at h
  · split at h
    · exact absurd h not_done
    · next w hw =>
      obtain ⟨hmem, -, hlines, hbacks⟩ := dramWrite_arrays hw
      have hcw : w.cline (b / 256) = none := by rw [← hcu]; unfold State.cline; rw [hlines]
      have hhw : lineHeld w (b / 256) = false := by rw [← hhu]; unfold lineHeld; rw [hbacks]
      obtain ⟨hcl, hheld, hm⟩ := stillClean_allocLine (v := false) hcw
      rw [← (Prod.mk.inj h).1, view_clean (hheld.trans hhw) hcl, hm b rfl]
      rw [hmem, if_pos rfl, Memory.read_writeN, if_pos hb, List.getD_eq_getElem?_getD]
      rfl
  · obtain ⟨hcl, hheld, hm⟩ := stillClean_allocLine (v := decide (p = 3)) hcu
    split at h
    · exact view_dramWrite (hheld.trans hhu) hcl hb h
    · rw [← (Prod.mk.inj h).1]
      exact view_dirtyLine hb

/-- A write of device memory that its home performs. -/
theorem bankWrite_view {b : Nat} (hb : a ≤ b ∧ b < a + bs.length) (hline : b / 256 = a / 256)
    (hh : lineHeld s (b / 256) = false) (h : bankWrite s a bs = (t, none)) : view t b = bs.getD (b - a) 0 := by
  unfold bankWrite at h
  dsimp only at h
  rw [← hline] at h
  split at h
  · next c hc =>
    split at h
    · rw [← (Prod.mk.inj h).1]
      exact view_dirtyLine hb
    · next hpol =>
      refine view_dramWrite hh (fun c' hc' => ?_) hb h
      rw [← Option.some.inj (hc.symm.trans hc')]
      exact (Bool.or_eq_false_iff.mp (Bool.eq_false_iff.mpr hpol)).2
  · next hc =>
    split at h
    · exact missWrite_view hb hh hc h
    · exact view_dramWrite hh (fun c' hc' => nomatch hc.symm.trans hc') hb h

/-- A write of device memory within a line is what the line then holds. -/
theorem lineWrite_view {b : Nat} (hdev : isDev a = true) (hin : a % 256 + bs.length ≤ 256)
    (hb : a ≤ b ∧ b < a + bs.length) (h : lineWrite s a bs = (t, none)) : view t b = bs.getD (b - a) 0 := by
  have hline : b / 256 = a / 256 := lineOf hb hin
  unfold lineWrite at h
  dsimp only at h
  rw [isScr_of_isDev hdev, hdev, if_neg Bool.false_ne_true, if_neg (by simp)] at h
  split at h
  · exact absurd h not_done
  split at h
  · exact absurd h not_done
  next hheld =>
  have hh : lineHeld s (b / 256) = false := by
    rw [hline]
    exact (Bool.or_eq_false_iff.mp (Bool.eq_false_iff.mpr hheld)).2
  split at h
  · exact absurd h not_done
  split at h
  · exact absurd h not_done
  split at h
  · next u hu =>
    rw [← (Prod.mk.inj h).1, view_setLost]
    exact bankWrite_view hb hline hh hu
  · next hno => exact absurd h (hno _)

/-! ### Atomics -/

/-- Byte `j` of a little-endian number. -/
theorem getD_leNat (bs : List Byte) : ∀ j, bs.getD j 0 = BitVec.ofNat 8 (leNat bs / 256 ^ j) := by
  induction bs with
  | nil => intro j; simp [leNat]
  | cons x bs ih =>
    intro j
    cases j with
    | zero =>
      apply BitVec.eq_of_toNat_eq
      simp only [List.getD_cons_zero, leNat, pow_zero, Nat.div_one, BitVec.toNat_ofNat]
      omega
    | succ j =>
      rw [List.getD_cons_succ, ih, leNat, Nat.pow_succ', ← Nat.div_div_eq_div_mul]
      congr 2
      have := x.isLt
      omega

/-- Byte `j` of a word. -/
theorem byte_ofNat (x : Nat) {j : Nat} (hj : j < 8) :
    BitVec.ofNat 8 ((BitVec.ofNat 64 x).toNat / 2 ^ (8 * j)) = BitVec.ofNat 8 (x / 256 ^ j) := by
  apply BitVec.eq_of_toNat_eq
  simp only [BitVec.toNat_ofNat]
  rw [show (256 : Nat) ^ j = 2 ^ (8 * j) by rw [Nat.pow_mul], show (64 : Nat) = 8 * j + (64 - 8 * j) by omega, Nat.pow_add,
    Nat.mod_mul_right_div_self]
  exact Nat.mod_mod_of_dvd _ (Nat.pow_dvd_pow 2 (by omega))

/-- An atomic that succeeds: the word it answers, and what it leaves. -/
theorem memAtom_view {x y old : Word} {j : Nat} (hdev : isDev a = true) (ha : a % 8 = 0) (hj : j < 8)
    (h : memAtom s a op x y = (t, .ok old)) :
    view s (a + j) = BitVec.ofNat 8 (old.toNat / 2 ^ (8 * j)) ∧
      view t (a + j) = BitVec.ofNat 8 ((atomOp op old x y).toNat / 2 ^ (8 * j)) := by
  unfold memAtom at h
  split at h
  · exact absurd h not_ok
  · next u bs hr =>
    dsimp only at h
    split at h
    · exact absurd h not_ok
    · next v hw =>
      obtain ⟨rfl, hold⟩ := Prod.mk.inj h
      obtain rfl := Except.ok.inj hold
      have hlen : (leBytes 8 (atomOp op (BitVec.ofNat 64 (leNat bs)) x y).toNat).length = 8 := length_leBytes ..
      refine ⟨?_, ?_⟩
      · rw [byte_ofNat _ hj, ← getD_leNat]
        exact (lineReadIf_view hdev (by omega) hj hr).symm
      · rw [lineWrite_view hdev (by omega) (by omega) hw, Nat.add_sub_cancel_left, List.getD_eq_getElem?_getD,
          leBytes_get _ _ _ hj, show (256 : Nat) ^ j = 2 ^ (8 * j) by rw [Nat.pow_mul]]
        rfl

/-- What the operation of each code from 0 to 9 leaves (R131). -/
def atomWord (op : Nat) (old x y : Word) : Word :=
  match op with
  | 0 => x | 1 => if old = x then y else old | 2 => old + x | 3 => old &&& x | 4 => old ||| x
  | 5 => old ^^^ x | 6 => if x.toInt ≤ old.toInt then old else x | 7 => if old.toInt ≤ x.toInt then old else x
  | 8 => if x.toNat ≤ old.toNat then old else x | _ => if old.toNat ≤ x.toNat then old else x

/-- A choice by a strict comparison is the other choice by the comparison turned round. -/
theorem ite_lt_swap {α β : Type} [LinearOrder α] (p q : α) (u v : β) [Decidable (p < q)] [Decidable (q ≤ p)] :
    (if p < q then u else v) = if q ≤ p then v else u := by
  split
  · next h => rw [if_neg (not_le.mpr h)]
  · next h => rw [if_pos (not_lt.mp h)]

theorem atomOp_eq {x y old : Word} (hop : op ≤ 9) : atomOp op old x y = atomWord op old x y := by
  unfold atomOp
  split
  all_goals unfold atomWord
  · rfl
  · rfl
  · rfl
  · rfl
  · rfl
  · rfl
  · exact ite_lt_swap ..
  · exact ite_lt_swap ..
  · exact ite_lt_swap ..
  · exact ite_lt_swap ..
  · grind

/-- Settles O15. -/
theorem globalAccess : Obligations.GlobalAccess := by
  unfold Obligations.GlobalAccess
  refine ⟨fun n t pr d a b c size op vis dpa bs old s s1 s2 hi hf => ?thread, ?word, fun n t pr a s hi => pref_gives hi⟩
  case thread =>
    dsimp only
    refine ⟨fun hs ha hv hx => ⟨fun hm => ?_, fun h hm => ?_⟩, fun hs hvis ha hv hx => ⟨fun hm => ?_, fun h hm => ?_⟩,
      fun l hs hvis ha hv hx => ⟨fun hr => ?_, fun hr => stg_host hi hf hs hvis ha hv hx hr⟩,
      fun hop hvis ha hv hx hm => ?_⟩
    · exact ldg_done hi hs ha hv (accessRead_dev hf (Nat.two_pow_pos _) (inPage_of_aligned hs ha) hx hm)
    · exact ldg_waits hi hs ha hv (accessRead_dev_held hf (Nat.two_pow_pos _) (inPage_of_aligned hs ha) hx hm)
    · exact stg_done hi hs hvis ha hv (accessWrite_dev hf hs ha hx hm) rfl
    · exact stg_waits hi hs hvis ha hv (accessWrite_dev hf hs ha hx hm)
    · exact stg_host_held hi hf hs (by omega) ha hv hx hr
    · rw [atom_done hi hop hvis ha hv (accessAtom_dev hf ha hx hm), word_leBytes]
  case word =>
    intro s s' a op b c old h hdev ha hop _
    refine ⟨fun j hj => (memAtom_view hdev ha hj h).1, fun j hj => ?_⟩
    change view s' (a + j) = BitVec.ofNat 8 ((atomWord op old b c).toNat / 2 ^ (8 * j))
    rw [(memAtom_view hdev ha hj h).2, atomOp_eq hop]

end Sys2Proof.Machine
end

section
/-! Answers to translation faults and the results of walks, for O32. -/

namespace Sys2Proof.Machine

variable {s s1 t : State} {h : Hdr} {scope n u acc dva : Nat} {fid : W32} {f : XFault}

/-! ### Answers (R225) -/

/-- The faults that `p` picks are unanswered no longer. -/
def unqueue (s : State) (p : XFault → Bool) : State :=
  { s with xlt := { s.xlt with
      faults := s.xlt.faults.filter fun f => !p f
      fq := s.xlt.fq.filter fun i => !((s.xlt.faults.filter p).any fun f => f.id = i)
      rewrite := s.xlt.rewrite.filter fun i => !((s.xlt.faults.filter p).any fun f => f.id = i) } }

theorem OnlyHost.xlt {a b : State} (h : OnlyHost a b) : b.xlt = a.xlt :=
  (congrArg State.xlt (show { b with host := a.host } = a from h) :)

theorem OnlyHost.cores {a b : State} (h : OnlyHost a b) : b.cores = a.cores :=
  (congrArg State.cores (show { b with host := a.host } = a from h) :)

/-- An access goes on, or is aborted. -/
def answerOne (s : State) (w : Waiter) (resume : Bool) : State :=
  if resume then agentGo s w.agent else agentEnd s w cABORTED stABORTED w.dva

def noOffers (s : State) : State := { s with xlt := { s.xlt with offered := [] } }

theorem noOffers_of_none (h : s.xlt.offered = []) : noOffers s = s := by
  calc noOffers s = { s with xlt := { s.xlt with offered := s.xlt.offered } } := by rw [h]; rfl
    _ = s := rfl

/-- The answer to a single fault that one access waits with. -/
theorem answerFaults_single {p : XFault → Bool} {w : Waiter} {resume : Bool} (hf : s.xlt.faults.filter p = [f])
    (hj : f.joined = [w]) (ho : s.xlt.offered = []) (hkeep : (answerOne (unqueue s p) w resume).xlt = (unqueue s p).xlt) :
    answerFaults s p resume = answerOne (unqueue s p) w resume := by
  have hbody : answerFaults s p resume = (answerOne (unqueue s p) w resume).xlt.offered.foldl offerFault
      (noOffers (answerOne (unqueue s p) w resume)) := by
    unfold answerFaults answerOne unqueue noOffers
    dsimp only
    rw [hf, List.foldl_cons, List.foldl_nil, hj, List.foldl_cons, List.foldl_nil]
  have hnone : (answerOne (unqueue s p) w resume).xlt.offered = [] := (congrArg Xlt.offered hkeep).trans ho
  rw [hbody, hnone, List.foldl_nil, noOffers_of_none hnone]

/-- A HELD thread keeps the answer. -/
def keepAnswer (b : Bool) (x : Thread) : Thread := { x with answer := some b }

theorem answerOne_held {resume : Bool} (hst : (s.thr n u).st = .held) (hprev : (s.thr n u).prev = .xltWait) :
    answerOne s ⟨.thread n u, acc, dva⟩ resume = s.modThr n u (keepAnswer resume) := by
  unfold answerOne
  cases resume with
  | true =>
    rw [if_pos rfl]
    unfold agentGo
    dsimp only
    rw [if_pos hst, if_pos hprev]
    rfl
  | false =>
    rw [if_neg Bool.false_ne_true]
    unfold agentEnd
    dsimp only
    rw [if_pos hst, if_pos hprev]
    rfl

theorem answerOne_waiting (hst : (s.thr n u).st = .xltWait) :
    answerOne s ⟨.thread n u, acc, dva⟩ false = takeFault s n u cABORTED stABORTED (BitVec.ofNat 64 dva) := by
  unfold answerOne
  rw [if_neg Bool.false_ne_true]
  unfold agentEnd
  dsimp only
  rw [hst, if_neg (by decide), if_neg (by decide)]

/-- What an answer leaves of the faults. -/
structure AnswerEnds (s t : State) (h : Hdr) (scope : Nat) (fid : W32) (f : XFault) : Prop where
  ended : Ended t h
  faults : t.xlt.faults = s.xlt.faults.filter fun f => !answered? h.ctx scope fid f
  queue : f.id ∉ t.xlt.fq
  rewrite : f.id ∉ t.xlt.rewrite

theorem not_mem_unqueued {p : XFault → Bool} {l : List W32} (hf : s.xlt.faults.filter p = [f]) :
    f.id ∉ l.filter fun i => !((s.xlt.faults.filter p).any fun f => f.id = i) := by
  intro hmem
  have h := (List.mem_filter.mp hmem).2
  rw [hf] at h
  simp at h

/-- The parameters of an answer that names a fault are in range. -/
theorem answerBad_false (hf : s.xlt.faults.filter (answered? h.ctx scope fid) = [f]) (hs : scope ≤ 1)
    (hfid : scope = 1 → fid = 0) : answerBad s h.ctx scope fid = false := by
  unfold answerBad
  rcases Nat.le_one_iff_eq_zero_or_eq_one.mp hs with rfl | rfl
  · have hany : s.xlt.faults.any (answered? h.ctx 0 fid) = true := by
      have hmem : f ∈ s.xlt.faults.filter (answered? h.ctx 0 fid) := by rw [hf]; exact List.mem_singleton.mpr rfl
      exact List.any_eq_true.mpr ⟨f, (List.mem_filter.mp hmem).1, (List.mem_filter.mp hmem).2⟩
    rw [hany]
    rfl
  · rw [hfid rfl]
    rfl

/-- An answer runs: the fault is unanswered no longer, and its access is answered. -/
theorem answer_runs {i : Instr} {op : Nat} {fs : List (Nat × Nat × Nat)} {resume : Bool} {p : State → Prop} {w : Waiter}
    (hi : exec i s = command op h fs (fun s => answerBad s h.ctx scope fid)
      (fun s => finishSt (answerFaults s (answered? h.ctx scope fid) resume) h.ring h.seq stDONE 0) s)
    (hs : Startable s op h fs) (hf : s.xlt.faults.filter (answered? h.ctx scope fid) = [f]) (hj : f.joined = [w])
    (ho : s.xlt.offered = []) (hscope : scope ≤ 1) (hfid : scope = 1 → fid = 0)
    (hkeep : ∀ v : State, v.cores = s.cores → (answerOne v w resume).xlt = v.xlt)
    (hp : ∀ v t : State, v.cores = s.cores → t.cores = (answerOne v w resume).cores → p t) :
    Gives i s fun t => AnswerEnds s t h scope fid f ∧ p t := by
  obtain ⟨s1, hs⟩ := hs
  have st := hs.started
  have hxlt : s1.xlt = s.xlt := by rw [st.mod]; rfl
  have hcores : s1.cores = s.cores := by rw [st.mod]; rfl
  have hf1 : s1.xlt.faults.filter (answered? h.ctx scope fid) = [f] := by rw [hxlt]; exact hf
  have hcores' : (unqueue s1 (answered? h.ctx scope fid)).cores = s.cores := hcores
  have hk := hkeep (unqueue s1 (answered? h.ctx scope fid)) hcores'
  have only := onlyHost_finishSt (s := answerOne (unqueue s1 (answered? h.ctx scope fid)) w resume) (d64 := 0) h.ring h.seq
    (show stDONE ≠ stDIELOST by decide)
  have hx : (finishSt (answerOne (unqueue s1 (answered? h.ctx scope fid)) w resume) h.ring h.seq stDONE 0).xlt =
      (unqueue s1 (answered? h.ctx scope fid)).xlt := only.xlt.trans hk
  refine ⟨finishSt (answerOne (unqueue s1 (answered? h.ctx scope fid)) w resume) h.ring h.seq stDONE 0, ?runs,
    ⟨finish_ended .., ?faults, ?queue, ?rewrite⟩, hp (unqueue s1 (answered? h.ctx scope fid)) _ hcores' only.cores⟩
  case runs =>
    rw [hi, command_runs hs (answerBad_false hf1 hscope hfid), answerFaults_single hf1 hj (by rw [hxlt]; exact ho) hk]
  case faults => rw [hx]; unfold unqueue; rw [hxlt]
  case queue => rw [hx]; exact not_mem_unqueued hf1
  case rewrite => rw [hx]; exact not_mem_unqueued hf1

/-- An answer to a HELD thread. -/
theorem answer_held {i : Instr} {op : Nat} {fs : List (Nat × Nat × Nat)} {resume : Bool}
    (hi : exec i s = command op h fs (fun s => answerBad s h.ctx scope fid)
      (fun s => finishSt (answerFaults s (answered? h.ctx scope fid) resume) h.ring h.seq stDONE 0) s)
    (hs : Startable s op h fs) (hf : s.xlt.faults.filter (answered? h.ctx scope fid) = [f])
    (hj : f.joined = [⟨.thread n u, acc, dva⟩]) (ho : s.xlt.offered = []) (hscope : scope ≤ 1) (hfid : scope = 1 → fid = 0)
    (hst : (s.thr n u).st = .held) (hprev : (s.thr n u).prev = .xltWait) :
    Gives i s fun t => AnswerEnds s t h scope fid f ∧ t.thr n u = { s.thr n u with answer := some resume } := by
  have hheld (v : State) (hv : v.cores = s.cores) :
      answerOne v ⟨.thread n u, acc, dva⟩ resume = v.modThr n u (keepAnswer resume) :=
    answerOne_held (by rw [thr_of_cores hv]; exact hst) (by rw [thr_of_cores hv]; exact hprev)
  refine answer_runs hi hs hf hj ho hscope hfid (fun v hv => ?_) (fun v t hv ht => ?_)
  · rw [hheld v hv, State.modThr_xlt]
  · rw [hheld v hv] at ht
    rw [thr_of_cores ht, State.thr_modThr_same, thr_of_cores hv]
    rfl

/-- An abort of an access that its thread waits with. -/
theorem abort_waiting (hs : Startable s 0x43 h [(1, 1, 1 + 2 * scope), (4, 4, fid.toNat)])
    (hf : s.xlt.faults.filter (answered? h.ctx scope fid) = [f])
    (hj : f.joined = [⟨.thread n u, acc, dva⟩]) (ho : s.xlt.offered = []) (hscope : scope ≤ 1) (hfid : scope = 1 → fid = 0)
    (hu : 0 < u) (hst : (s.thr n u).st = .xltWait) :
    Gives (.faultAbort h scope fid) s fun t => AnswerEnds s t h scope fid f ∧
      t.thr n u = faultedThread (s.thr n u) cABORTED stABORTED (s.thr n u).pc.toNat (s.thr n u).pc.toNat false
        (BitVec.ofNat 64 dva) := by
  have hwait (v : State) (hv : v.cores = s.cores) :
      answerOne v ⟨.thread n u, acc, dva⟩ false = takeFault v n u cABORTED stABORTED (BitVec.ofNat 64 dva) :=
    answerOne_waiting (by rw [thr_of_cores hv]; exact hst)
  have hfault (v : State) := enterFault_leaves (s := v) (n := n) (cause := cABORTED) (v.thr n u).pc.toNat
    (v.thr n u).pc.toNat false (BitVec.ofNat 64 dva) hu (show stABORTED ≠ 0x0401 by decide)
  refine answer_runs rfl hs hf hj ho hscope hfid (fun v hv => ?_) (fun v t hv ht => ?_)
  · rw [hwait v hv]
    exact (congrArg State.xlt (hfault v).rest :)
  · rw [hwait v hv] at ht
    rw [thr_of_cores ht, ← thr_of_cores hv]
    exact (hfault v).thread

/-! ### Walks (R208 to R212) -/

theorem granaryEcc_ok (s : State) (a : Nat) (bad : List Nat) : granaryEcc s a .ok bad = (s, none) := by
  unfold granaryEcc
  dsimp only
  split
  · rfl
  · rfl
  · next h => exact nomatch h
  · next h => exact nomatch h

/-- A word whose codes are good is read through its home. -/
theorem onlyPath_wordRead {a : Nat} {r : Except Fail Word} (h : wordRead s a .ok = (s1, r)) : OnlyPath s s1 := by
  have hecc : (if (isScr a || (s.cline (a / 256)).isSome) = true then granaryEcc s a .ok []
      else if ((s.iso (homeFb a) || s.lost (a / 256) || ratHeld s a || burstStops s false (a / 64)) || !isDev a) = true
      then (s, none) else burstEcc s a .ok false) = (s, none) := by
    rw [granaryEcc_ok]
    split
    · rfl
    · split <;> rfl
  unfold wordRead at h
  dsimp only at h
  rw [hecc] at h
  dsimp only at h
  have hpath := onlyPath_memRead s a 8
  split at h <;> next e => rw [e] at hpath; rw [← (Prod.mk.inj h).1]; exact hpath

section
variable {fb ctx seg page : Nat} {d : SegDesc} {e : Word} {rest : List Walk}

/-- The walk of one access of a thread. -/
def threadWalk (fb ctx seg page n u acc dva : Nat) : Walk := ⟨fb, ⟨ctx, seg, page⟩, 1, [⟨.thread n u, acc, dva⟩]⟩

/-- The walks of an FB whose only walk has ended. -/
def walkGone (s : State) (rest : List Walk) : State := { s with xlt := { s.xlt with walks := rest } }

theorem walkNext_idle (h : ∀ x ∈ s.xlt.walks, x.fb ≠ fb) : walkNext s fb = s := by
  have hfind : s.xlt.walks.find? (fun x => x.fb = fb && x.stage = 0) = none := by
    rw [List.find?_eq_none]
    intro x hx
    simp [h x hx]
  have hany : s.xlt.walks.any (fun x => x.fb = fb && x.stage = 2) = false := by
    rw [List.any_eq_false]
    intro x hx
    simp [h x hx]
  unfold walkNext walkGo
  dsimp only
  rw [hfind, hany]
  rfl

theorem filter_rest (hw : s.xlt.walks = threadWalk fb ctx seg page n u acc dva :: rest) (hrest : ∀ x ∈ rest, x.fb ≠ fb) :
    s.xlt.walks.filter (fun x => !(x.fb = fb && x.key = ⟨ctx, seg, page⟩ && x.stage = 1)) = rest := by
  rw [hw, List.filter_cons, if_neg (by simp [threadWalk]), List.filter_eq_self]
  intro x hx
  simp [hrest x hx]

theorem find_walk (hw : s.xlt.walks = threadWalk fb ctx seg page n u acc dva :: rest) :
    s.xlt.walks.find? (fun w => w.fb = fb && w.key = ⟨ctx, seg, page⟩ && w.stage = 1) =
      some (threadWalk fb ctx seg page n u acc dva) := by
  rw [hw, List.find?_cons_of_pos (by simp [threadWalk])]

/-- The walk ends, and no other of its FB takes its place. -/
theorem walkEnds (hw : s.xlt.walks = threadWalk fb ctx seg page n u acc dva :: rest) (hrest : ∀ x ∈ rest, x.fb ≠ fb) :
    walkNext { s with xlt := { s.xlt with
      walks := s.xlt.walks.filter fun x => !(x.fb = fb && x.key = ⟨ctx, seg, page⟩ && x.stage = 1) } } fb =
      walkGone s rest := by
  rw [filter_rest hw hrest]
  exact walkNext_idle (s := walkGone s rest) hrest

/-- A thread's walk enters the shared cache and the first-level cache of its port. -/
theorem cacheWalk_thread (s : State) (x : Nat) :
    cacheWalk s (threadWalk fb ctx seg page n u acc dva) x =
      l1Insert (l2Insert s fb ⟨⟨ctx, seg, page⟩, x⟩) (coreFb n) (corePort n) ⟨⟨ctx, seg, page⟩, x⟩ := rfl

/-- Of the translation system only the shared caches change. -/
theorem l2Insert_frame (s : State) (fb : Nat) (x : XEnt) :
    (l2Insert s fb x).cores = s.cores ∧ { (l2Insert s fb x).xlt with l2 := s.xlt.l2 } = s.xlt ∧
      ∃ k, tget none (l2Insert s fb x).xlt.l2 k = some x := by
  unfold l2Insert
  dsimp only
  split
  · exact ⟨rfl, rfl, _, tget_tset_same ..⟩
  · exact ⟨rfl, rfl, _, tget_tset_same ..⟩

theorem cacheWalk_walks (s : State) (x : Nat) :
    (cacheWalk s (threadWalk fb ctx seg page n u acc dva) x).xlt.walks = s.xlt.walks := by
  rw [cacheWalk_thread]
  exact (congrArg Xlt.walks (l2Insert_frame s fb ⟨⟨ctx, seg, page⟩, x⟩).2.1 :)

/-- A walk whose entry is read. -/
theorem walkComplete_read (hw : s.xlt.walks = threadWalk fb ctx seg page n u acc dva :: rest)
    (hrest : ∀ x ∈ rest, x.fb ≠ fb) (hseg : s.seg ctx seg = some d)
    (hread : wordRead s (d.array + 8 * page) .ok = (s1, .ok e)) :
    exec (.walkComplete fb ctx seg page .ok) s =
      .next (if e.getLsbD 0 = false then
          walkFault (walkGone s1 rest) (threadWalk fb ctx seg page n u acc dva) d 2 e
        else if pteOk d e.toNat = false then
          walkFault (walkGone s1 rest) (threadWalk fb ctx seg page n u acc dva) d 3 e
        else agentGo (walkGone (cacheWalk s1 (threadWalk fb ctx seg page n u acc dva) e.toNat) rest) (.thread n u)) := by
  have hw1 : s1.xlt.walks = threadWalk fb ctx seg page n u acc dva :: rest := by
    rw [(onlyPath_wordRead hread).xlt]; exact hw
  have hkey : (threadWalk fb ctx seg page n u acc dva).key = ⟨ctx, seg, page⟩ := rfl
  rw [exec_walkComplete, execWalkComplete, find_walk hw]
  dsimp only
  rw [hseg]
  dsimp only
  rw [hread]
  dsimp only
  rw [hkey, walkEnds hw1 hrest, walkEnds ((cacheWalk_walks ..).trans hw1) hrest]
  cases e.getLsbD 0 with
  | false => rfl
  | true =>
    cases pteOk d e.toNat with
    | false => rfl
    | true => rfl

/-- The entry that a port has just used is its first. -/
theorem l1Insert_head (s : State) (fb port : Nat) (x : XEnt) : (l1Of (l1Insert s fb port x) fb port).head? = some x := by
  unfold l1Insert l1Of
  dsimp only
  rw [tget_tset_same]
  rfl

/-- A walk that finds a valid and well-formed entry. -/
theorem walkComplete_caches (hw : s.xlt.walks = threadWalk fb ctx seg page n u acc dva :: rest)
    (hrest : ∀ x ∈ rest, x.fb ≠ fb) (hfb : fb = coreFb n) (hseg : s.seg ctx seg = some d)
    (hread : wordRead s (d.array + 8 * page) .ok = (s1, .ok e)) (hvalid : e.getLsbD 0 = true) (hok : pteOk d e.toNat = true)
    (hst : (s.thr n u).st = .held) (hprev : (s.thr n u).prev ≠ .xltWait) :
    Gives (.walkComplete fb ctx seg page .ok) s fun t =>
      t.xlt.walks = rest ∧ (l1Of t fb (corePort n)).head? = some ⟨⟨ctx, seg, page⟩, e.toNat⟩ ∧
      (∃ k, tget none t.xlt.l2 k = some ⟨⟨ctx, seg, page⟩, e.toNat⟩) ∧ t.xlt.faults = s.xlt.faults := by
  have hpath := onlyPath_wordRead hread
  obtain ⟨hcores, hxlt, hl2⟩ := l2Insert_frame s1 fb ⟨⟨ctx, seg, page⟩, e.toNat⟩
  have hthr : (walkGone (cacheWalk s1 (threadWalk fb ctx seg page n u acc dva) e.toNat) rest).thr n u = s.thr n u :=
    thr_of_cores (s' := walkGone (cacheWalk s1 (threadWalk fb ctx seg page n u acc dva) e.toNat) rest)
      (hcores.trans hpath.cores) n u
  have hgo : agentGo (walkGone (cacheWalk s1 (threadWalk fb ctx seg page n u acc dva) e.toNat) rest) (.thread n u) =
      walkGone (cacheWalk s1 (threadWalk fb ctx seg page n u acc dva) e.toNat) rest := by
    unfold agentGo
    dsimp only
    rw [hthr, if_pos hst, if_neg hprev]
  refine ⟨walkGone (cacheWalk s1 (threadWalk fb ctx seg page n u acc dva) e.toNat) rest,
    (walkComplete_read hw hrest hseg hread).trans (congrArg Host.Outcome.next ?_), rfl, ?_, hl2, ?_⟩
  · rw [hvalid, hok, if_neg (by decide), if_neg (by decide)]
    exact hgo
  · rw [hfb]
    exact l1Insert_head ..
  · exact (congrArg Xlt.faults hxlt : _).trans (congrArg Xlt.faults hpath.xlt)

end

/-! ### FAULT_IDs (R222) -/

theorem freeId_congr (hf : t.xlt.faults = s.xlt.faults) : ∀ (fuel : Nat) (i : W32), freeId t fuel i = freeId s fuel i := by
  intro fuel
  induction fuel with
  | zero => exact fun _ => rfl
  | succ fuel ih => intro i; unfold freeId; rw [hf, ih]

/-- The next FAULT_ID is told by the faults and the counter alone. -/
theorem nextFaultId_congr (hf : t.xlt.faults = s.xlt.faults) (hi : t.xlt.nextId = s.xlt.nextId) :
    nextFaultId t = nextFaultId s := by
  unfold nextFaultId
  rw [hf, hi, freeId_congr hf]

/-- A number from `i` on that no fault has is found within `fuel` tries. -/
theorem freeId_of_exists (s : State) : ∀ (fuel : Nat) (i : W32) (j : Nat), j < fuel →
    (∀ f ∈ s.xlt.faults, f.id ≠ i + BitVec.ofNat 32 j) → ∀ f ∈ s.xlt.faults, f.id ≠ freeId s fuel i := by
  intro fuel
  induction fuel with
  | zero => intro i j hj; omega
  | succ fuel ih =>
    intro i j hj hfree
    unfold freeId
    by_cases hany : s.xlt.faults.any (fun f => f.id = i) = true
    · rw [if_pos hany]
      obtain ⟨f, hf, hid⟩ := List.any_eq_true.mp hany
      cases j with
      | zero => exact absurd (of_decide_eq_true hid) (by simpa using hfree f hf)
      | succ j =>
        refine ih (i + 1) j (by omega) fun g hg => ?_
        have := hfree g hg
        rwa [show i + 1 + BitVec.ofNat 32 j = i + BitVec.ofNat 32 (j + 1) by
          rw [Nat.add_comm j 1, BitVec.ofNat_add, ← BitVec.add_assoc]; rfl]
    · rw [if_neg hany]
      intro f hf hid
      exact hany (List.any_eq_true.mpr ⟨f, hf, decide_eq_true hid⟩)

/-- Of one more number than there are faults, one is free. -/
theorem exists_free (s : State) (i : W32) (hlen : s.xlt.faults.length < 2 ^ 32) :
    ∃ j, j < s.xlt.faults.length + 1 ∧ ∀ f ∈ s.xlt.faults, f.id ≠ i + BitVec.ofNat 32 j := by
  by_contra hno
  push Not at hno
  have hsub : (List.range (s.xlt.faults.length + 1)).map (fun j => i + BitVec.ofNat 32 j) ⊆ s.xlt.faults.map (·.id) := by
    intro x hx
    obtain ⟨j, hj, rfl⟩ := List.mem_map.mp hx
    obtain ⟨f, hf, hid⟩ := hno j (List.mem_range.mp hj)
    exact List.mem_map.mpr ⟨f, hf, hid⟩
  have hnodup : ((List.range (s.xlt.faults.length + 1)).map fun j => i + BitVec.ofNat 32 j).Nodup := by
    refine List.nodup_range.map_on fun j hj k hk hjk => ?_
    have heq := congrArg BitVec.toNat ((BitVec.add_right_inj i).mp hjk)
    have hj' := List.mem_range.mp hj
    have hk' := List.mem_range.mp hk
    simp only [BitVec.toNat_ofNat] at heq
    rwa [Nat.mod_eq_of_lt (by omega), Nat.mod_eq_of_lt (by omega)] at heq
  have := (hnodup.subperm hsub).length_le
  simp at this

/-- The FAULT_ID of a new fault is no unanswered fault's. -/
theorem nextFaultId_fresh (s : State) (hlen : s.xlt.faults.length < 2 ^ 32) : ∀ f ∈ s.xlt.faults, f.id ≠ nextFaultId s := by
  obtain ⟨j, hj, hfree⟩ := exists_free s s.xlt.nextId hlen
  exact freeId_of_exists s _ _ j hj hfree

/-! ### A walk that ends in a fault (R220 to R222) -/

section
variable {fb ctx seg page cause : Nat} {d : SegDesc} {e : Word} {rest : List Walk}

/-- The fault of a thread's access. -/
def threadFault (s : State) (rq : Req) (w : Waiter) (cause seg page : Nat) (off entry : Word) : XFault :=
  ⟨nextFaultId s, cause, w.acc, rq.ctx, seg, page, sourceOf rq.fb rq.port, requesterOf w.agent, 0, w.dva,
    if cause = 1 then 0 else BitVec.ofNat 64 w.dva + off, (readMer s rq.fb).2, entry, [w]⟩

/-- A new fault enters the queue. -/
def queueFault (s : State) (f : XFault) : State :=
  { s with xlt := { s.xlt with faults := s.xlt.faults ++ [f], fq := s.xlt.fq ++ [f.id], nextId := f.id + 1 } }

/-- A new fault that no unanswered fault is merged with, the queue not full. -/
theorem raiseFault_thread {rq : Req} {off : Word} (hnew : ∀ f ∈ s.xlt.faults, f.ctx ≠ rq.ctx)
    (hroom : s.xlt.fq.length < 256) :
    raiseFault s rq ⟨.thread n u, acc, dva⟩ cause seg page off e =
      markFaulted (queueFault (readMer s rq.fb).1 (threadFault s rq ⟨.thread n u, acc, dva⟩ cause seg page off e))
        (.thread n u) := by
  have hsame (f : XFault) (hf : f.ctx = rq.ctx) : s.xlt.faults.any f.same = false := by
    rw [List.any_eq_false]
    intro g hg
    unfold XFault.same
    have : ¬ f.ctx = g.ctx := fun h => hnew g hg (h.symm.trans hf)
    simp [this]
  have hxlt : (readMer s rq.fb).1.xlt = s.xlt := rfl
  unfold raiseFault offerFault
  dsimp only
  rw [hxlt, hsame _ rfl, if_neg Bool.false_ne_true, if_pos hroom,
    nextFaultId_congr (s := s) (t := (readMer s rq.fb).1) (congrArg Xlt.faults hxlt) (congrArg Xlt.nextId hxlt)]
  rw [List.foldl_cons, List.foldl_nil]
  unfold queueFault threadFault
  rw [hxlt]

/-- A thread in WAITING enters XLT_WAIT. -/
def waitAnswer (x : Thread) : Thread := { x with st := .xltWait }

theorem markFaulted_waiting (hst : (s.thr n u).st = .waiting) : 
    (markFaulted s (.thread n u)).thr n u = waitAnswer (s.thr n u) ∧ (markFaulted s (.thread n u)).xlt = s.xlt := by
  unfold markFaulted
  dsimp only
  refine ⟨?_, State.modThr_xlt ..⟩
  rw [State.thr_modThr_same, hst, if_neg (by decide)]
  rfl

/-- A walk that finds an entry that is not VALID. -/
theorem walkComplete_faults (hw : s.xlt.walks = threadWalk fb ctx seg page n u acc dva :: rest)
    (hrest : ∀ x ∈ rest, x.fb ≠ fb) (hseg : s.seg ctx seg = some d)
    (hread : wordRead s (d.array + 8 * page) .ok = (s1, .ok e)) (hctx : 0 < ctx) (hstate : (s.ctx ctx).state = 1)
    (hclosing : (s.ctx ctx).closing = false) (hvalid : e.getLsbD 0 = false) (hnew : ∀ f ∈ s.xlt.faults, f.ctx ≠ ctx)
    (hroom : s.xlt.fq.length < 256) (hst : (s.thr n u).st = .waiting) :
    ∃ f, f.id = nextFaultId s ∧ f.cause = 2 ∧ f.acc = acc ∧ f.ctx = ctx ∧ f.seg = seg ∧ f.page = page ∧ f.dva = dva ∧
      f.entry = e ∧ f.joined = [⟨.thread n u, acc, dva⟩] ∧
      Gives (.walkComplete fb ctx seg page .ok) s fun t =>
        t.thr n u = waitAnswer (s.thr n u) ∧
        t.xlt = { s.xlt with
          walks := rest, faults := s.xlt.faults ++ [f], fq := s.xlt.fq ++ [f.id], nextId := f.id + 1 } := by
  have hpath := onlyPath_wordRead hread
  let rq : Req := ⟨coreFb n, corePort n, ctx, .thread n u⟩
  let v := walkGone s1 rest
  have hvx : v.xlt = { s.xlt with walks := rest } := congrArg (fun x : Xlt => { x with walks := rest }) hpath.xlt
  have hid : nextFaultId v = nextFaultId s :=
    nextFaultId_congr (by rw [hvx]) (by rw [hvx])
  have hfault : walkFault v (threadWalk fb ctx seg page n u acc dva) d 2 e =
      markFaulted (queueFault (readMer v rq.fb).1 (threadFault v rq ⟨.thread n u, acc, dva⟩ 2 seg page d.hostOffset e))
        (.thread n u) := by
    refine Eq.trans ?_ (raiseFault_thread (rq := rq) (by rw [hvx]; exact hnew) (by rw [hvx]; exact hroom))
    have hc : v.ctx ctx = s.ctx ctx := by unfold State.ctx; rw [hvx]
    unfold walkFault threadWalk
    dsimp only
    rw [List.foldl_cons, List.foldl_nil, hc, hclosing, hstate]
    rw [if_neg (by simp [isPref]), if_neg (by omega)]
    rfl
  have hcores : (queueFault (readMer v rq.fb).1 (threadFault v rq ⟨.thread n u, acc, dva⟩ 2 seg page d.hostOffset e)).cores =
      s.cores := hpath.cores
  obtain ⟨hthr, hxlt⟩ := markFaulted_waiting
    (s := queueFault (readMer v rq.fb).1 (threadFault v rq ⟨.thread n u, acc, dva⟩ 2 seg page d.hostOffset e))
    (n := n) (u := u) (by rw [thr_of_cores hcores]; exact hst)
  refine ⟨threadFault v rq ⟨.thread n u, acc, dva⟩ 2 seg page d.hostOffset e, hid, rfl, rfl, rfl, rfl, rfl, rfl, rfl, rfl,
    walkFault v (threadWalk fb ctx seg page n u acc dva) d 2 e,
    (walkComplete_read hw hrest hseg hread).trans (congrArg Host.Outcome.next (if_pos hvalid)), ?_, ?_⟩
  · rw [hfault, hthr, thr_of_cores hcores]
  · rw [hfault, hxlt]
    have hr : (readMer v rq.fb).1.xlt = v.xlt := rfl
    unfold queueFault
    rw [hr, hvx]

end

/-- Settles O32. -/
theorem faultsAndWalks : Obligations.FaultsAndWalks := by
  unfold Obligations.FaultsAndWalks
  refine ⟨?answers, ?walks⟩
  case answers =>
    intro h scope n u acc dva fid f s hf hj ho hscope hfid hu hu16
    have ends {t : State} (ha : AnswerEnds s t h scope fid f) :
        Ended t h ∧ t.xlt.faults = s.xlt.faults.filter (fun f => !answered? h.ctx scope fid f) ∧ f.id ∉ t.xlt.fq ∧
          f.id ∉ t.xlt.rewrite := ⟨ha.ended, ha.faults, ha.queue, ha.rewrite⟩
    refine ⟨fun hs => ⟨fun hst => ?waiting, fun hst hprev => ?held⟩, fun hs hst hprev => ?resume⟩
    case waiting =>
      obtain ⟨t, hx, ha, hthr⟩ := abort_waiting hs hf hj ho hscope hfid hu hst
      refine ⟨t, hx, ends ha, ?_⟩
      rw [hthr]
      exact ⟨rfl, rfl, rfl, rfl, rfl, sameRegs_of rfl rfl rfl rfl rfl⟩
    case held =>
      obtain ⟨t, hx, ha, hthr⟩ := answer_held (i := .faultAbort h scope fid) rfl hs hf hj ho hscope hfid hst hprev
      exact ⟨t, hx, ends ha, hthr⟩
    case resume =>
      obtain ⟨t, hx, ha, hthr⟩ := answer_held (i := .faultResume h scope fid) rfl hs hf hj ho hscope hfid hst hprev
      exact ⟨t, hx, ends ha, hthr⟩
  case walks =>
    intro fb seg page n u acc dva ctx d e rest s s1
    dsimp only
    intro hw hrest hfb hseg hread hctx hstate hclosing
    refine ⟨fun hvalid hok hst hprev => walkComplete_caches hw hrest hfb hseg hread hvalid hok hst hprev,
      fun hvalid hnew hroom hst => ?_⟩
    obtain ⟨f, hid, hcause, hacc, hc, hs, hp, hdva, hentry, hjoined, t, hx, hthr, hxlt⟩ :=
      walkComplete_faults hw hrest hseg hread hctx hstate hclosing hvalid hnew hroom hst
    refine ⟨t, hx, by rw [hxlt], by rw [hthr]; rfl, by rw [hthr]; rfl, by rw [hxlt, ← hid], by rw [hxlt, ← hid], ?_,
      nextFaultId_fresh s, f, by rw [hxlt], hid, hcause, hacc, hc, hs, hp, hdva, hentry, hjoined⟩
    unfold l1Of
    rw [hxlt]

end Sys2Proof.Machine
end

section
/-! A LAUNCH from its command to its completion, for O35. -/

namespace Sys2Proof.Machine

variable {s s1 s2 t : State} {h : Hdr} {threads : BitVec 16} {len image entry : Nat} {arg : Word} {cores : List Nat}

/-! ### The command (R248) -/

/-- The fields of a LAUNCH. -/
def launchFields (threads : BitVec 16) (len image entry : Nat) (arg : Word) (cores : List Nat) : List (Nat × Nat × Nat) :=
  [(2, 2, threads.toNat), (4, 4, len), (8, 8, image), (16, 2, entry), (24, 8, arg.toNat), (64, 512, bitmapOf cores)]

/-- The kernel waits for its cores. -/
def launchQueued (s : State) (h : Hdr) (threads : BitVec 16) (len image entry : Nat) (arg : Word) (cores : List Nat) : State :=
  { s with host := { s.host with launches := s.host.launches ++
      [⟨h.ring, h.seq, h.ctx, threads, len, image, entry, arg, cores, [], [], false⟩] } }

theorem kernelThreads_ne_zero (h0 : threads ≠ 0) (hb : threads.getLsbD 0 = false) : threads &&& 0xFFFE ≠ 0 := by
  intro hz
  refine h0 (BitVec.eq_of_getLsbD_eq fun i hi => ?_)
  change _ = (0#16).getLsbD i
  rw [BitVec.getLsbD_zero]
  by_cases hi0 : i = 0
  · rw [hi0, hb]
  · have hall : ∀ j : Fin 16, j.1 ≠ 0 → (0xFFFE : BitVec 16).getLsbD j.1 = true := by decide
    have hones := hall ⟨i, hi⟩ hi0
    have hbit := congrArg (BitVec.getLsbD · i) hz
    simp only [BitVec.getLsbD_and, hones, Bool.and_true] at hbit
    exact hbit.trans BitVec.getLsbD_zero

/-- Parameters of a LAUNCH in range. -/
theorem launchBad_false (h0 : threads ≠ 0) (hb : threads.getLsbD 0 = false) (hlen : 0 < len) (hl8 : len % 8 = 0)
    (hmax : len ≤ 49152) (hi8 : image % 8 = 0) (he8 : entry % 8 = 0) (he : entry < len)
    (hcores : ∀ n ∈ cores, n ≤ 4095 ∧ inService s n = true) : launchBad s threads len image entry cores = false := by
  have hany : cores.any (fun n => decide (4095 < n) || !inService s n) = false := by
    rw [List.any_eq_false]
    intro n hn
    obtain ⟨hle, hup⟩ := hcores n hn
    simp [hup]
    omega
  unfold launchBad
  rw [hany, hb]
  simp only [Bool.or_eq_false_iff]
  refine ⟨⟨⟨⟨⟨⟨⟨⟨?_, trivial⟩, ?_⟩, ?_⟩, ?_⟩, ?_⟩, ?_⟩, ?_⟩, trivial⟩
  · exact beq_false_of_ne (kernelThreads_ne_zero h0 hb)
  · exact beq_false_of_ne (by omega)
  · simp [hl8]
  · exact decide_eq_false (by omega)
  · simp [hi8]
  · simp [he8]
  · exact decide_eq_false (by omega)

/-- A LAUNCH starts. -/
theorem launch_gives (hs : Startable s 0x20 h (launchFields threads len image entry arg cores)) (hc : (s.ctx h.ctx).closing = false)
    (hbad : launchBad s threads len image entry cores = false) :
    (grantsX s h.ctx image = true → Gives (.launch h threads len image entry arg cores) s fun t =>
      OnlyHost s t ∧ t.cmd? h.ring h.seq = some (cmdOf h 0x20) ∧ t.host.held = s.host.held ∧
      t.host.launches = s.host.launches ++ [⟨h.ring, h.seq, h.ctx, threads, len, image, entry, arg, cores, [], [], false⟩]) ∧
    (grantsX s h.ctx image = false → Gives (.launch h threads len image entry arg cores) s fun t =>
      Completed s t h 0x20 stRIGHTS image ∧ OnlyHost s t ∧ t.host.launches = s.host.launches) := by
  obtain ⟨s1, hs⟩ := hs
  have st := hs.started
  have hb : ((s1.ctx h.ctx).closing || launchBad s1 threads len image entry cores) = false := by
    rw [st.mod]; exact Bool.or_eq_false_iff.mpr ⟨hc, hbad⟩
  have hx1 : grantsX s1 h.ctx image = grantsX s h.ctx image := by rw [st.mod]; rfl
  have hl1 : s1.host.launches = s.host.launches := by rw [st.mod]; rfl
  have hruns : exec (.launch h threads len image entry arg cores) s = .next (
      if !grantsX s1 h.ctx image then finishSt s1 h.ring h.seq stRIGHTS image
      else launchQueued s1 h threads len image entry arg cores) := command_runs hs hb
  refine ⟨fun hx => ⟨launchQueued s1 h threads len image entry arg cores, ?_, st.onlyHost.trans rfl, st.cmd, st.held, ?_⟩,
    fun hx => ⟨finishSt s1 h.ring h.seq stRIGHTS image, ?_, st.completed (completed_finishSt st.cmd st.iso (by decide)),
      st.onlyHost.trans (onlyHost_finishSt _ _ (by decide)), ?_⟩⟩
  · rw [hruns, hx1, hx]; rfl
  · unfold launchQueued; rw [← hl1]
  · rw [hruns, hx1, hx]; rfl
  · have hfinish := (finish_host s1 h.ring h.seq 0 0 image (show stRIGHTS ≠ stDIELOST by decide)).2
    exact (congrArg Host_.launches hfinish).trans hl1

/-! ### A core takes its next launch -/

section
variable {n dpa : Nat} {l : Launch} {img : List Byte} {rest : List Launch}

theorem onlyXltSys_xlateRange {rq : Req} {acc : Nat} (fuel : Nat) : ∀ {s s1 : State} {v k : Nat} {ts : List (Tgt × Nat)},
    xlateRange fuel s rq acc v k = (s1, .ok ts) → OnlyXltSys s s1 := by
  induction fuel with
  | zero =>
    intro s s1 v k ts h
    rw [xlateRange] at h
    rw [← (Prod.mk.inj h).1]
    rfl
  | succ fuel ih =>
    intro s s1 v k ts h
    rw [xlateRange] at h
    dsimp only at h
    split at h
    · rw [← (Prod.mk.inj h).1]; rfl
    · split at h
      · exact nomatch (Prod.mk.inj h).2
      · next u g hu =>
        split at h
        · exact nomatch (Prod.mk.inj h).2
        · next w gs hw =>
          rw [← (Prod.mk.inj h).1]
          exact (onlyXltSys_xlate hu).trans (ih hw)

theorem onlyXltSys_xlateAll {rq : Req} {acc v k : Nat} {ts : List (Tgt × Nat)} (h : xlateAll s rq acc v k = (s1, .ok ts)) :
    OnlyXltSys s s1 := by
  unfold xlateAll at h
  split at h
  · rw [← (Prod.mk.inj h).1]; rfl
  · exact onlyXltSys_xlateRange _ h

/-- A thread of the kernel as it starts. -/
def kernelThread (l : Launch) : Thread := { st := .ready, pc := BitVec.ofNat 16 (0x4000 + l.entry), s := tset 0 [] 1 l.arg }

/-- Thread `i + 1` of a core starts if the launch names it. -/
def startOne (l : Launch) (c : Core) (i : Nat) : Core :=
  if l.threads.getLsbD (i + 1) then c.setThread (i + 1) (kernelThread l) else c

theorem thread_startOne (l : Launch) (c : Core) (i u : Nat) :
    (startOne l c i).thread u = if u = i + 1 ∧ l.threads.getLsbD u = true then kernelThread l else c.thread u := by
  unfold startOne
  split
  · next hb => rw [Core.thread_setThread]; grind
  · next hb => grind

theorem thread_startMany (l : Launch) (c : Core) (u : Nat) : ∀ k, ((List.range k).foldl (startOne l) c).thread u =
    if 0 < u ∧ u ≤ k ∧ l.threads.getLsbD u = true then kernelThread l else c.thread u := by
  intro k
  induction k with
  | zero => rw [List.range_zero, List.foldl_nil, if_neg (by omega)]
  | succ k ih =>
    rw [List.range_succ, List.foldl_append, List.foldl_cons, List.foldl_nil, thread_startOne, ih]
    grind

/-- Starting threads changes nothing else of their core. -/
theorem startMany_frame (l : Launch) (ks : List Nat) : ∀ c : Core, { ks.foldl (startOne l) c with thr := c.thr } = c := by
  induction ks with
  | nil => exact fun _ => rfl
  | cons k ks ih =>
    intro c
    have hone : { startOne l c k with thr := c.thr } = c := by unfold startOne; split <;> rfl
    rw [List.foldl_cons]
    calc { ks.foldl (startOne l) (startOne l c k) with thr := c.thr }
        = { ({ ks.foldl (startOne l) (startOne l c k) with thr := (startOne l c k).thr } : Core) with thr := c.thr } := rfl
      _ = c := by rw [ih, hone]

/-- A core whose instruction store holds the image. -/
def withImage (c : Core) (l : Launch) (img : List Byte) : Core :=
  { c with
    is_ := Memory.writeN c.is_ 0x4000 img
    isBad := (List.range (l.imageLen / 8)).foldl (fun b i => tset false b (0x800 + i) false) c.isBad }

theorem startKernel_eq (s : State) (n : Nat) (l : Launch) (img : List Byte) :
    startKernel s n l img =
      (s.modCore n fun c => (List.range 15).foldl (startOne l) (withImage c l img)).modLaunch l.ring l.seq
        fun l => { l with waiting := l.waiting.filter (· ≠ n), taken := l.taken ++ [n] } := rfl

/-- A core has a launch to run. -/
def claimed (s : State) (n : Nat) (l : Launch) : State :=
  s.modCore n fun c => { c with launch := some (l.ring, l.seq), ctx := l.ctx }

/-- A launch that a core has taken. -/
def takenBy (n : Nat) (l : Launch) : Launch := { l with waiting := l.waiting.filter (· ≠ n), taken := l.taken ++ [n] }

/-- A core takes the first launch that names it. -/
theorem launchCoreTake_runs (hl : s.host.launches = l :: rest) (hn : n ∈ l.waiting) (hend : l.ending s = false)
    (hheld : ctxHeld s l.ctx = false) (hreset : (s.core n).reset = false) (hmon : (s.core n).monFault = false)
    (hiso : s.iso (coreFb n) = false) (hup : inService s n = true) (hfree : (s.core n).launch = none)
    (hwaits : agentWaits s (.image n) = false) : exec (.launchCoreTake n) s = .next (takeLaunch s n l) := by
  have hnext : nextLaunch s n = some l := by
    unfold nextLaunch
    rw [hl, List.find?_cons_of_pos (by simpa using hn)]
  rw [exec_launchCoreTake, execLaunchCoreTake, hnext]
  dsimp only
  rw [hend, hheld, hreset, hmon, hiso, hup, hfree, hwaits]
  rfl

/-- A core's take of a launch whose image is read. -/
theorem takeLaunch_done (hreads : readsOf s (.image n) = [])
    (hx : xlateAll (claimed s n l) ⟨coreFb n, corePort n, l.ctx, .image n⟩ 3 l.image l.imageLen =
      (s1, .ok [(.dev dpa, l.imageLen)]))
    (hm : memRead s1 dpa l.imageLen = (s2, .ok img)) :
    takeLaunch s n l = startKernel (readsDone s2 (.image n)) n l img := by
  have hr : readsOf s1 (.image n) = [] := (readsOf_of_host (s := s) (onlyXltSys_xlateAll hx).host _).trans hreads
  have hacc : accessRead (claimed s n l) ⟨coreFb n, corePort n, l.ctx, .image n⟩ 3 l.image l.imageLen =
      .done (readsDone s2 (.image n)) img [] := by
    unfold accessRead
    rw [hx]
    exact readAt_dev (rq := ⟨coreFb n, corePort n, l.ctx, .image n⟩) hr hm
  unfold takeLaunch
  dsimp only
  unfold claimed at hacc
  rw [hacc]

theorem core_modLaunch (s : State) (r : Nat) (q : W32) (f : Launch → Launch) (m : Nat) :
    (s.modLaunch r q f).core m = s.core m := rfl

/-- Register 1 of a thread that starts holds the kernel's argument, the others 0. -/
theorem kernelThread_rs (l : Launch) (j : Nat) : (kernelThread l).rs j = if j % 64 = 1 then l.arg else 0 := by
  unfold Thread.rs kernelThread
  dsimp only
  rw [tget_tset]
  rfl

/-- The start of a kernel on a core. -/
theorem startKernel_core (s : State) (n : Nat) (l : Launch) (img : List Byte) (m : Nat) :
    (startKernel s n l img).core m =
      if m = n then (List.range 15).foldl (startOne l) (withImage (s.core n) l img) else s.core m := by
  rw [startKernel_eq, core_modLaunch]
  exact State.core_modCore ..

theorem startKernel_launches (hl : s.host.launches = l :: rest) :
    (startKernel s n l img).host.launches = takenBy n l :: rest := by
  rw [startKernel_eq]
  unfold State.modLaunch
  dsimp only
  rw [show (s.modCore n fun c => (List.range 15).foldl (startOne l) (withImage c l img)).host.launches = l :: rest from hl,
    replaceFirst, if_pos (by simp)]
  rfl

theorem core_claimed (s : State) (n : Nat) (l : Launch) (m : Nat) :
    (claimed s n l).core m = if m = n then { s.core n with launch := some (l.ring, l.seq), ctx := l.ctx } else s.core m :=
  State.core_modCore ..

/-- LAUNCH_CORE_TAKE. -/
theorem launchCoreTake_gives (hl : s.host.launches = l :: rest) (hn : n ∈ l.waiting) (hend : l.ending s = false)
    (hheld : ctxHeld s l.ctx = false) (hreset : (s.core n).reset = false) (hmon : (s.core n).monFault = false)
    (hiso : s.iso (coreFb n) = false) (hup : inService s n = true) (hfree : (s.core n).launch = none)
    (hwaits : agentWaits s (.image n) = false) (hreads : readsOf s (.image n) = [])
    (hx : xlateAll (claimed s n l) ⟨coreFb n, corePort n, l.ctx, .image n⟩ 3 l.image l.imageLen =
      (s1, .ok [(.dev dpa, l.imageLen)]))
    (hm : memRead s1 dpa l.imageLen = (s2, .ok img)) :
    Gives (.launchCoreTake n) s fun t =>
      (t.core n).launch = some (l.ring, l.seq) ∧ (t.core n).ctx = l.ctx ∧
      (∀ a, Memory.read (t.core n).is_ a =
        if 0x4000 ≤ a ∧ a < 0x4000 + img.length then img.getD (a - 0x4000) 0 else Memory.read (s.core n).is_ a) ∧
      (∀ u, 0 < u → u < 16 →
        if l.threads.getLsbD u then
          (t.thr n u).st = .ready ∧ (t.thr n u).pc = BitVec.ofNat 16 (0x4000 + l.entry) ∧ (t.thr n u).rs 1 = l.arg ∧
          (∀ j, j % 64 ≠ 1 → (t.thr n u).rs j = 0) ∧ (t.thr n u).flg = 0
        else t.thr n u = s.thr n u) ∧
      t.thr n 0 = s.thr n 0 ∧ (∀ m, m ≠ n → t.core m = s.core m) ∧
      ∃ l', t.host.launches = l' :: rest ∧ l'.waiting = l.waiting.filter (· ≠ n) ∧ l'.taken = l.taken ++ [n] := by
  have hpath := onlyPath_memRead s1 dpa l.imageLen
  rw [hm] at hpath
  have hcores : (readsDone s2 (.image n)).cores = (claimed s n l).cores := hpath.cores.trans (onlyXltSys_xlateAll hx).cores
  have hlaunches : (readsDone s2 (.image n)).host.launches = l :: rest := by
    have h1 : s2.host = s.host := hpath.host.trans (onlyXltSys_xlateAll hx).host
    exact (congrArg Host_.launches h1 : _).trans hl
  let c : Core := { s.core n with launch := some (l.ring, l.seq), ctx := l.ctx }
  have hcore : (startKernel (readsDone s2 (.image n)) n l img).core n =
      (List.range 15).foldl (startOne l) (withImage c l img) := by
    rw [startKernel_core, if_pos rfl, core_of_cores hcores, core_claimed, if_pos rfl]
  have hthr (u : Nat) : (startKernel (readsDone s2 (.image n)) n l img).thr n u =
      if 0 < u ∧ u ≤ 15 ∧ l.threads.getLsbD u = true then kernelThread l else s.thr n u := by
    unfold State.thr
    rw [hcore, thread_startMany]
    rfl
  have hframe := startMany_frame l (List.range 15) (withImage c l img)
  rw [← hcore] at hframe
  refine ⟨startKernel (readsDone s2 (.image n)) n l img, ?runs, (congrArg Core.launch hframe :), (congrArg Core.ctx hframe :),
    fun a => ?image, fun u hu hu16 => ?threads, ?monitor, fun m hmn => ?others, takenBy n l, startKernel_launches hlaunches,
    rfl, rfl⟩
  case runs =>
    rw [launchCoreTake_runs hl hn hend hheld hreset hmon hiso hup hfree hwaits, takeLaunch_done hreads hx hm]
  case image =>
    rw [show ((startKernel (readsDone s2 (.image n)) n l img).core n).is_ = Memory.writeN (s.core n).is_ 0x4000 img from
      (congrArg Core.is_ hframe :), Memory.read_writeN, List.getD_eq_getElem?_getD]
    rfl
  case threads =>
    rw [hthr]
    split
    · next hb =>
      rw [if_pos ⟨hu, by omega, hb⟩]
      exact ⟨rfl, rfl, (kernelThread_rs l 1).trans (if_pos rfl), fun j hj => (kernelThread_rs l j).trans (if_neg hj), rfl⟩
    · next hb => rw [if_neg fun h => hb h.2.2]
  case monitor => rw [hthr, if_neg (by omega)]
  case others => rw [startKernel_core, if_neg hmn, core_of_cores hcores, core_claimed, if_neg hmn]

end

end Sys2Proof.Machine
end

section
/-! The completion of a LAUNCH, for O35. -/

namespace Sys2Proof.Machine

variable {s s1 s2 t : State} {h : Hdr} {n m : Nat} {l : Launch}

/-! ### Cores give up their threads (R248) -/

/-- Of the host attachment the links alone change; of the rest the translation system, the requests and the cores. -/
structure OnlyWork (s t : State) : Prop where
  rest : { t with host := s.host, xlt := s.xlt, fab := s.fab, cores := s.cores } = s
  host : { t.host with links := s.host.links } = s.host

theorem OnlyWork.refl (s : State) : OnlyWork s s := ⟨rfl, rfl⟩

theorem OnlyWork.trans {a b c : State} (h : OnlyWork a b) (g : OnlyWork b c) : OnlyWork a c where
  rest := by
    have h1 := h.rest; have g1 := g.rest
    calc { c with host := a.host, xlt := a.xlt, fab := a.fab, cores := a.cores }
        = { ({ c with host := b.host, xlt := b.xlt, fab := b.fab, cores := b.cores } : State) with
            host := a.host, xlt := a.xlt, fab := a.fab, cores := a.cores } := rfl
      _ = a := by rw [g1, h1]
  host := by
    have h1 := h.host; have g1 := g.host
    calc { c.host with links := a.host.links }
        = { ({ c.host with links := b.host.links } : Host_) with links := a.host.links } := rfl
      _ = a.host := by rw [g1, h1]

theorem OnlyLinksXlt.work {a b : State} (h : OnlyLinksXlt a b) : OnlyWork a b where
  rest := by
    calc { b with host := a.host, xlt := a.xlt, fab := a.fab, cores := a.cores }
        = { ({ b with host := a.host, xlt := a.xlt } : State) with fab := a.fab, cores := a.cores } := rfl
      _ = a := by rw [h.rest]
  host := h.host

theorem OnlyLinksXlt.cores {a b : State} (h : OnlyLinksXlt a b) : b.cores = a.cores := (congrArg State.cores h.rest :)

theorem onlyLinksXlt_forgets {α : Type} (f : α → Agent) (xs : List α) :
    ∀ s : State, OnlyLinksXlt s (xs.foldl (fun s x => forget s (f x)) s) := by
  induction xs with
  | nil => exact fun s => ⟨rfl, rfl⟩
  | cons x xs ih => exact fun s => (onlyLinksXlt_forgetIf s _).trans (ih _)

theorem onlyLinksXlt_dropZlr (s : State) (p : ZWho → Bool) : OnlyLinksXlt s (dropZlr s p) := ⟨rfl, rfl⟩

/-- A core that takes part in clearing `n`. -/
structure Cleared (s t : State) (n : Nat) : Prop where
  work : OnlyWork s t
  cores : ∀ m, m ≠ n → t.core m = s.core m
  launch : (t.core n).launch = none

/-- A core's kernel threads end: no other core changes, and the core runs no launch. -/
theorem cleared_of_forgotten {rs : List EReq} {f : Core → Core} (hs : OnlyLinksXlt s s1) (hf : ∀ c, (f c).launch = none) :
    Cleared s ((setReqs s1 rs).modCore n f) n where
  work := hs.work.trans ⟨rfl, rfl⟩
  cores m hm := by
    rw [State.core_modCore, if_neg hm]
    exact core_of_cores (s' := setReqs s1 rs) hs.cores m
  launch := by rw [State.core_modCore, if_pos rfl]; exact hf _

/-- The accesses of a core's kernel threads are given up. -/
def workForgotten (s : State) (n : Nat) (ops : List AOp) : State :=
  (List.range 15).foldl (fun s i => forget s (.thread n (i + 1)))
    (forget (ops.foldl (fun s o => forget s (.aop n o.id)) s) (.image n))

theorem onlyLinksXlt_workForgotten (s : State) (n : Nat) (ops : List AOp) : OnlyLinksXlt s (workForgotten s n ops) := by
  unfold workForgotten
  have hops := onlyLinksXlt_forgets (fun o : AOp => Agent.aop n o.id) ops s
  have himage : OnlyLinksXlt _ (forget (ops.foldl (fun s o => forget s (.aop n o.id)) s) (.image n)) :=
    onlyLinksXlt_forgetIf _ _
  exact hops.trans (himage.trans (onlyLinksXlt_forgets (fun i => Agent.thread n (i + 1)) (List.range 15) _))

theorem clearCore_leaves (s : State) (n : Nat) : Cleared s (clearCore s n) n := by
  unfold clearCore
  dsimp only
  refine cleared_of_forgotten ((onlyLinksXlt_workForgotten s n ((s.core n).aops.filter fun o => o.t ≠ 0)).trans ?_) fun _ => rfl
  exact onlyLinksXlt_dropZlr _ _

/-- The cores of a list that run the launch `k` end its threads. -/
def clearRunning (s : State) (k : Nat × W32) (ns : List Nat) : State :=
  ns.foldl (fun s n => if (s.core n).launch = some k then clearCore s n else s) s

/-- After it no core of the list runs the launch, and a core that runs none still runs none. -/
theorem clearRunning_leaves (k : Nat × W32) (ns : List Nat) : ∀ s : State,
    OnlyWork s (clearRunning s k ns) ∧ (∀ m, (s.core m).launch = none → ((clearRunning s k ns).core m).launch = none) ∧
      ∀ n ∈ ns, (s.core n).launch = some k → ((clearRunning s k ns).core n).launch = none := by
  induction ns with
  | nil => exact fun s => ⟨.refl s, fun _ h => h, fun n hn => absurd hn List.not_mem_nil⟩
  | cons n ns ih =>
    intro s
    by_cases hk : (s.core n).launch = some k
    · have hstep : clearRunning s k (n :: ns) = clearRunning (clearCore s n) k ns := by
        unfold clearRunning; rw [List.foldl_cons, if_pos hk]
      rw [hstep]
      obtain ⟨hwork, hcores, hlaunch⟩ := clearCore_leaves s n
      obtain ⟨hw, hkeep, hclear⟩ := ih (clearCore s n)
      have hnone (m : Nat) (hm : (s.core m).launch = none) : ((clearCore s n).core m).launch = none := by
        by_cases hmn : m = n
        · rw [hmn]; exact hlaunch
        · rw [hcores m hmn]; exact hm
      refine ⟨hwork.trans hw, fun m hm => hkeep m (hnone m hm), fun m hm hmk => ?_⟩
      by_cases hmn : m = n
      · rw [hmn]; exact hkeep n hlaunch
      · refine hclear m ((List.mem_cons.mp hm).resolve_left hmn) ?_
        rw [hcores m hmn]; exact hmk
    · have hstep : clearRunning s k (n :: ns) = clearRunning s k ns := by
        unfold clearRunning; rw [List.foldl_cons, if_neg hk]
      rw [hstep]
      obtain ⟨hw, hkeep, hclear⟩ := ih s
      refine ⟨hw, hkeep, fun m hm hmk => ?_⟩
      rcases List.mem_cons.mp hm with rfl | hm
      · exact absurd hmk hk
      · exact hclear m hm hmk

/-! ### Contexts that end -/

theorem onlyXltSys_setSegs (ctx : Nat) (is : List Nat) :
    ∀ s : State, OnlyXltSys s (is.foldl (fun s i => s.setSeg ctx i none) s) := by
  induction is with
  | nil => exact fun _ => rfl
  | cons i is ih => exact fun s => OnlyXltSys.trans (b := s.setSeg ctx i none) rfl (ih _)

theorem onlyXltSys_startInval (s : State) (i : Inval) : OnlyXltSys s (startInval s i) := by
  unfold startInval
  split <;> rfl

theorem onlyXltSys_destroyGo (s : State) (ctx : Nat) (who : InvFor) : OnlyXltSys s (destroyGo s ctx who) :=
  (onlyXltSys_setSegs ctx (List.range 16) s).trans (onlyXltSys_startInval ..)

theorem onlyXltSys_dyings (es : List (Nat × InvFor)) : ∀ s : State, OnlyXltSys s (es.foldl (fun s e =>
    if s.host.launches.any fun l => l.ctx = e.1 then s
    else destroyGo { s with xlt := { s.xlt with dying := removeOne e s.xlt.dying } } e.1 e.2) s) := by
  induction es with
  | nil => exact fun _ => rfl
  | cons e es ih =>
    intro s
    rw [List.foldl_cons]
    split
    · exact ih s
    · exact OnlyXltSys.trans (b := { s with xlt := { s.xlt with dying := removeOne e s.xlt.dying } }) rfl
        ((onlyXltSys_destroyGo ..).trans (ih _))

/-- Contexts whose last kernel has stopped change the translation system alone. -/
theorem onlyXltSys_dyingCheck (s : State) : OnlyXltSys s (dyingCheck s) := onlyXltSys_dyings _ s

/-! ### The end of a launch -/

/-- The launch's work has ended, its record to come. -/
def launchGone (s : State) (l : Launch) : State :=
  let r := s.ring l.ring
  let u := clearRunning (s.setRing l.ring { r with
    hostLinks := l.taken.foldl (fun ls n => (s.core n).thr.foldl (fun ls e => addLinks ls e.2.hostLinks) ls) r.hostLinks })
    (l.ring, l.seq) (l.taken ++ l.waiting)
  { u with host := { u.host with launches := u.host.launches.filter fun x => !(x.ring = l.ring && x.seq = l.seq) } }

theorem launchDone_eq (s : State) (l : Launch) (status : Option Nat) :
    launchDone s l status = dyingCheck (match lowestFault l.faults with
      | some f => finish (launchGone s l) l.ring l.seq (status.getD f.status) f.pc
          (f.core + 2 ^ 12 * f.thread + 2 ^ 16 * f.cause + 2 ^ 24 + 2 ^ 25 * b2n l.stopped + 2 ^ 26 * b2n f.monitor) f.addr
      | none => finish (launchGone s l) l.ring l.seq (status.getD stDONE) 0 (2 ^ 25 * b2n l.stopped) 0) := rfl

/-- Of what is left, the commands in flight, the records and the other launches are as before, and the launch's cores run
it no longer. -/
structure LaunchGone (s t : State) (l : Launch) : Prop where
  inflight : t.host.inflight = s.host.inflight
  held : t.host.held = s.host.held
  cq : ∀ r, (t.ring r).cq = (s.ring r).cq
  iso : ∀ q, t.iso q = s.iso q
  gone : t.launch? l.ring l.seq = none
  freed : ∀ n ∈ l.taken, (s.core n).launch = some (l.ring, l.seq) → (t.core n).launch = none

theorem launchGone_leaves (s : State) (l : Launch) : LaunchGone s (launchGone s l) l := by
  let r := s.ring l.ring
  let v := s.setRing l.ring { r with
    hostLinks := l.taken.foldl (fun ls n => (s.core n).thr.foldl (fun ls e => addLinks ls e.2.hostLinks) ls) r.hostLinks }
  obtain ⟨⟨hrest, hhost⟩, -, hclear⟩ := clearRunning_leaves (l.ring, l.seq) (l.taken ++ l.waiting) v
  refine ⟨(congrArg Host_.inflight hhost :), (congrArg Host_.held hhost :), fun q => ?_, fun q => ?_, ?_,
    fun n hn hk => hclear n (List.mem_append_left _ hn) hk⟩
  · have hrings : (launchGone s l).host.rings = v.host.rings := (congrArg Host_.rings hhost :)
    have hring : (launchGone s l).ring q = v.ring q := by unfold State.ring; rw [hrings]
    rw [hring]
    unfold v State.ring State.setRing
    dsimp only
    rw [tget_tset]
    split
    · next hq => rw [hq]; rfl
    · rfl
  · have hdie : (launchGone s l).die = s.die := (congrArg State.die hrest :)
    unfold State.iso
    rw [hdie]
  · unfold State.launch? launchGone
    rw [List.find?_eq_none]
    intro x hx
    have := (List.mem_filter.mp hx).2
    grind

theorem finish_launches (s : State) (ring : Nat) (seq : W32) (status d16 d32 d64 : Nat) :
    (finish s ring seq status d16 d32 d64).host.launches = s.host.launches := by
  unfold finish
  split
  · rfl
  · next c _ =>
    dsimp only
    rcases State.stopCtx_cases (unpark { s with host := { s.host with
      inflight := s.host.inflight.filter fun x => !(x.ring = ring && x.seq = seq) } } ring seq) c.ctx with e | ⟨x, e⟩ <;>
      rw [e] <;> repeat' split
    all_goals rfl

/-- A launch's record is made, and contexts that waited for it go on. -/
def launchRecorded (s : State) (l : Launch) (status d16 d32 d64 : Nat) : State :=
  dyingCheck (finish (launchGone s l) l.ring l.seq status d16 d32 d64)

section
variable {status d16 d32 d64 : Nat}

theorem launchRecorded_host (s : State) (l : Launch) (status d16 d32 d64 : Nat) :
    (launchRecorded s l status d16 d32 d64).host = (finish (launchGone s l) l.ring l.seq status d16 d32 d64).host :=
  (onlyXltSys_dyingCheck _).host

theorem launchRecorded_ended (hr : l.ring = h.ring) (hq : l.seq = h.seq) :
    Ended (launchRecorded s l status d16 d32 d64) h := by
  unfold Ended State.cmd?
  rw [launchRecorded_host, ← hr, ← hq]
  exact finish_ended ..

theorem launchRecorded_gone (hr : l.ring = h.ring) (hq : l.seq = h.seq) :
    (launchRecorded s l status d16 d32 d64).launch? h.ring h.seq = none := by
  unfold State.launch?
  rw [launchRecorded_host, finish_launches, ← hr, ← hq]
  exact (launchGone_leaves s l).gone

theorem launchRecorded_freed (hr : l.ring = h.ring) (hq : l.seq = h.seq) :
    ∀ n ∈ l.taken, (s.core n).launch = some (h.ring, h.seq) → ((launchRecorded s l status d16 d32 d64).core n).launch = none := by
  intro n hn hk
  have hcores : (launchRecorded s l status d16 d32 d64).cores = (launchGone s l).cores :=
    (onlyXltSys_dyingCheck _).cores.trans (congrArg State.cores (finish_frame (launchGone s l) l.ring l.seq status d16 d32 d64) :)
  rw [core_of_cores hcores]
  exact (launchGone_leaves s l).freed n hn (by rw [hr, hq]; exact hk)

theorem launchGone_cmd (s : State) (l : Launch) (r : Nat) (q : W32) : (launchGone s l).cmd? r q = s.cmd? r q :=
  State.cmd?_of_inflight (launchGone_leaves s l).inflight r q

/-- The records after a launch has completed. -/
theorem launchRecorded_held (hc : s.cmd? h.ring h.seq = some (cmdOf h 0x20)) (hiso : s.iso (h.ring / 16) = false)
    (hr : l.ring = h.ring) (hq : l.seq = h.seq) (hst : status ≠ stDIELOST) :
    (launchRecorded s l status d16 d32 d64).host.held =
      if h.compl ≠ 0 ∨ status ≠ stDONE then
        tset [] s.host.held (s.ring h.ring).cq (tget [] s.host.held (s.ring h.ring).cq ++
          [⟨h.ring, 0x20, h.seq, status, d16, d32 % 2 ^ 32, d64, h.tag, decide (h.compl ≠ 1)⟩])
      else s.host.held := by
  have hgone := launchGone_leaves s l
  rw [launchRecorded_host, hr, hq, finish_held ((launchGone_cmd ..).trans hc) ((hgone.iso _).trans hiso) hst, hgone.held,
    hgone.cq]

end

/-! ### LAUNCH_COMPLETE -/

/-- A launch that ends as its threads do, all of them OFF. -/
theorem launchComplete_done (hl : s.launch? h.ring h.seq = some l) (hc : s.cmd? h.ring h.seq = some (cmdOf h 0x20))
    (hiso : s.iso (h.ring / 16) = false) (hw : l.waiting = []) (hr : l.ring = h.ring) (hq : l.seq = h.seq)
    (hops : launchOps s l = false) (hctx : (s.ctx l.ctx).state = 1) (hf : l.faults = []) (hs : l.stopped = false)
    (hoff : ∀ e ∈ launchThreads s l, e.2.2.st = .off) (hpend : ∀ e ∈ launchThreads s l, opsPending s e.1 e.2.1 h.vis = false)
    (hz : h.vis < 2 ∨ zlrLinks s (launchLinks s l) = []) :
    Gives (.launchComplete h.ring h.seq) s fun t =>
      Completed s t h 0x20 stDONE 0 ∧
      (∀ n ∈ l.taken, (s.core n).launch = some (h.ring, h.seq) → (t.core n).launch = none) ∧
      t.launch? h.ring h.seq = none := by
  have hend : l.ending s = false := by unfold Launch.ending; rw [hs, hf, hctx]; rfl
  have hdone : launchDone s l none = launchRecorded s l stDONE 0 0 0 := by
    rw [launchDone_eq, hf, hs]; rfl
  have hany : (launchThreads s l).any (fun e => e.2.2.st != .off) = false := by
    rw [List.any_eq_false]
    intro e he
    rw [hoff e he]
    decide
  have hnone : (launchThreads s l).any (fun e => opsPending s e.1 e.2.1 h.vis) = false := by
    rw [List.any_eq_false]
    intro e he
    rw [hpend e he]
    decide
  have hvis : (cmdOf h 0x20).vis = h.vis := rfl
  have hnozlr : ¬ (h.vis = 2 ∧ (cmdOf h 0x20).value = 0 ∧ zlrLinks s (launchLinks s l) ≠ []) := by
    rintro ⟨h2, -, hne⟩
    exact hz.elim (fun hlt => absurd h2 (by omega)) hne
  have hruns : exec (.launchComplete h.ring h.seq) s = .next (launchRecorded s l stDONE 0 0 0) := by
    rw [exec_launchComplete, execLaunchComplete, hl, hc]
    dsimp only [Option.getD_some]
    rw [hend, if_neg Bool.false_ne_true, hw, hany, hops, if_neg (by simp), hvis, hnone, if_neg Bool.false_ne_true,
      if_neg hnozlr, hdone]
    rfl
  have hheld := launchRecorded_held (status := stDONE) (d16 := 0) (d32 := 0) (d64 := 0) hc hiso hr hq (by decide)
  refine ⟨launchRecorded s l stDONE 0 0 0, hruns, ⟨launchRecorded_ended hr hq, fun r q hne => ?_, ?_, fun q hne => ?_⟩,
    launchRecorded_freed hr hq, launchRecorded_gone hr hq⟩
  · unfold State.cmd?
    rw [launchRecorded_host, finish_inflight, (launchGone_leaves s l).inflight, hr, hq, find_filter_other hne]
  · rw [hheld]
    split
    · rw [tget_tset_same, Nat.zero_mod]
    · rw [List.append_nil]
  · rw [hheld]
    split
    · rw [tget_tset, if_neg hne]
    · rfl

/-- A launch that a fault ends, its threads stopped. -/
theorem launchComplete_fault {f : LFault} (hl : s.launch? h.ring h.seq = some l)
    (hc : s.cmd? h.ring h.seq = some (cmdOf h 0x20)) (hiso : s.iso (h.ring / 16) = false) (hw : l.waiting = [])
    (hr : l.ring = h.ring) (hq : l.seq = h.seq) (hops : launchOps s l = false) (hctx : (s.ctx l.ctx).state = 1)
    (hf : l.faults = [f]) (hstop : ∀ e ∈ launchThreads s l, stopped e.2.2 = true) :
    Gives (.launchComplete h.ring h.seq) s fun t =>
      Ended t h ∧ (∀ n ∈ l.taken, (s.core n).launch = some (h.ring, h.seq) → (t.core n).launch = none) ∧
      t.launch? h.ring h.seq = none ∧
      (f.status ≠ stDIELOST → f.status ≠ stDONE → ∃ r ∈ tget [] t.host.held (s.ring h.ring).cq,
        r.seq = h.seq ∧ r.status = f.status ∧ r.d16 = f.pc ∧ r.d64 = f.addr ∧
        r.d32 = (f.core + 2 ^ 12 * f.thread + 2 ^ 16 * f.cause + 2 ^ 24 + 2 ^ 25 * b2n l.stopped +
          2 ^ 26 * b2n f.monitor) % 2 ^ 32) := by
  let d32 := f.core + 2 ^ 12 * f.thread + 2 ^ 16 * f.cause + 2 ^ 24 + 2 ^ 25 * b2n l.stopped + 2 ^ 26 * b2n f.monitor
  have hend : l.ending s = true := by unfold Launch.ending; rw [hf]; simp
  have hdone : launchDone s l none = launchRecorded s l f.status f.pc d32 f.addr := by
    rw [launchDone_eq, hf]; rfl
  have hstatus : launchStatus s l (cmdOf h 0x20) = none := by
    unfold launchStatus
    rw [if_neg (by simp [cmdOf]), hctx, if_neg (by decide)]
  have hrun : (launchThreads s l).any (fun e => !stopped e.2.2 && !e.2.2.holdReq) = false := by
    rw [List.any_eq_false]
    intro e he
    rw [hstop e he]
    simp
  have hall : (launchThreads s l).any (fun e => !stopped e.2.2) = false := by
    rw [List.any_eq_false]
    intro e he
    rw [hstop e he]
    simp
  have hruns : exec (.launchComplete h.ring h.seq) s = .next (launchRecorded s l f.status f.pc d32 f.addr) := by
    rw [exec_launchComplete, execLaunchComplete, hl, hc]
    dsimp only [Option.getD_some]
    rw [hend, if_pos rfl, hw, hrun, if_neg (by simp), hall, hops, if_neg (by simp), hstatus, hdone]
  refine ⟨launchRecorded s l f.status f.pc d32 f.addr, hruns, launchRecorded_ended hr hq, launchRecorded_freed hr hq,
    launchRecorded_gone hr hq, fun hdie hdone => ?_⟩
  rw [launchRecorded_held hc hiso hr hq hdie, if_pos (.inr hdone), tget_tset_same]
  exact ⟨_, List.mem_append_right _ (List.mem_singleton.mpr rfl), rfl, rfl, rfl, rfl, rfl⟩

/-- Settles O35. -/
theorem launches : Obligations.Launches := by
  unfold Obligations.Launches
  refine ⟨?command, ?take, ?complete⟩
  case command =>
    intro h threads len image entry arg cores s hs h0 hb hlen hl8 hmax hi8 he8 he hclosing hcores
    exact launch_gives hs hclosing (launchBad_false h0 hb hlen hl8 hmax hi8 he8 he hcores)
  case take =>
    intro n dpa l img rest s s1 s2 hl hn _ hs hf hctx hheld hreset hmon hiso hup hfree hwaits hreads _ hx hm
    have hend : l.ending s = false := by unfold Launch.ending; rw [hs, hf, hctx]; rfl
    exact launchCoreTake_gives hl hn hend hheld hreset hmon hiso hup hfree hwaits hreads hx hm
  case complete =>
    intro h l s hl hc hiso hw hr hq hops hctx
    dsimp only
    exact ⟨fun hf hs hoff hpend hz => launchComplete_done hl hc hiso hw hr hq hops hctx hf hs hoff hpend hz,
      fun f hf hstop => launchComplete_fault hl hc hiso hw hr hq hops hctx hf hstop⟩

end Sys2Proof.Machine
end

section
/-! The release of cores, the start of monitors and the watchdogs, for O57. -/

namespace Sys2Proof.Machine

variable {s s1 s2 t : State} {n m fb : Nat}

/-! ### Events leave the rest of the state -/

theorem OnlyLog.cores {a b : State} (h : OnlyLog a b) : b.cores = a.cores := (congrArg State.cores h :)
theorem OnlyLog.boot {a b : State} (h : OnlyLog a b) : b.boot = a.boot := (congrArg State.boot h :)
theorem OnlyLog.sec {a b : State} (h : OnlyLog a b) : b.sec = a.sec := (congrArg State.sec h :)

/-! ### SCs leave reset (R366) -/

/-- A core out of reset, with nothing but its mapping. -/
def freshCore (phys : Option Nat) : Core := { phys := phys, reset := false }

/-- A core in service leaves reset. -/
def releaseCore (s : State) (n : Nat) : State :=
  if inService s n then s.setCore n (freshCore (s.core n).phys) else s

theorem releaseSc_eq (s : State) (j : Nat) :
    releaseSc s j = ((List.range 256).map (256 * j + ·)).foldl releaseCore s := by
  rw [List.foldl_map]; rfl

theorem physCore_of_phys (h : (t.core m).phys = (s.core m).phys) : physCore t m = physCore s m := by
  unfold physCore; rw [h]

theorem inService_of_phys (hboot : t.boot = s.boot) (hsc : t.scAdmitted = s.scAdmitted)
    (h : (t.core m).phys = (s.core m).phys) : inService t m = inService s m := by
  unfold inService bootOut
  rw [hboot, hsc, physCore_of_phys h]

/-- What the release of a list of cores leaves. -/
structure Released (ns : List Nat) (s t : State) : Prop where
  boot : t.boot = s.boot
  core : ∀ m, t.core m = if m ∈ ns ∧ inService s m = true then freshCore (s.core m).phys else s.core m

theorem released_releaseCore (s : State) (n : Nat) :
    (releaseCore s n).boot = s.boot ∧ (∀ m, inService (releaseCore s n) m = inService s m) ∧
      ∀ m, (releaseCore s n).core m = if m = n ∧ inService s n = true then freshCore (s.core n).phys else s.core m := by
  unfold releaseCore
  by_cases hin : inService s n = true
  · rw [if_pos hin]
    have hcore (m : Nat) : (s.setCore n (freshCore (s.core n).phys)).core m =
        if m = n then freshCore (s.core n).phys else s.core m := State.core_setCore ..
    refine ⟨rfl, fun m => inService_of_phys (t := s.setCore n (freshCore (s.core n).phys)) rfl rfl ?_, fun m => ?_⟩
    · rw [hcore]
      split
      · next h => rw [h]; rfl
      · rfl
    · rw [hcore]
      simp only [hin, and_true]
  · rw [if_neg hin]
    exact ⟨rfl, fun _ => rfl, fun m => (if_neg fun h => hin h.2).symm⟩

theorem released_foldl (ns : List Nat) : ∀ s : State, Released ns s (ns.foldl releaseCore s) := by
  induction ns with
  | nil => exact fun s => ⟨rfl, fun m => (if_neg fun h => List.not_mem_nil h.1).symm⟩
  | cons n ns ih =>
    intro s
    obtain ⟨hboot, hin, hcore⟩ := released_releaseCore s n
    obtain ⟨hb, hc⟩ := ih (releaseCore s n)
    refine ⟨hb.trans hboot, fun m => ?_⟩
    rw [List.foldl_cons, hc m, hin m, hcore m]
    by_cases hm : m = n
    · subst hm
      by_cases hs : inService s m = true
      · simp only [hs, List.mem_cons, true_or, and_self, if_true]
        exact ite_self _
      · simp only [hs, Bool.false_eq_true, and_false, if_false]
    · simp only [List.mem_cons, hm, false_or, false_and, if_false]

theorem scRelease_gives {sc : Nat} {rest : List Nat} (hp : s.boot.phase = 7) (hr : s.boot.release = sc :: rest) :
    Gives (.scRelease sc) s fun t => t.boot.release = rest ∧
      (∀ m, m / 256 = sc → inService s m = true → t.core m = freshCore (s.core m).phys) ∧
      ∀ m, m / 256 ≠ sc ∨ inService s m = false → t.core m = s.core m := by
  have he : exec (.scRelease sc) s = .next (((List.range 256).map (256 * sc + ·)).foldl releaseCore
      { s with boot := { s.boot with release := rest } }) := by
    refine (exec_scRelease ..).trans ?_
    unfold execScRelease
    rw [if_pos ⟨hp, by rw [hr]; rfl⟩, releaseSc_eq, hr]
    rfl
  obtain ⟨hboot, hcore⟩ := released_foldl ((List.range 256).map (256 * sc + ·))
    { s with boot := { s.boot with release := rest } }
  have hmem (m : Nat) : m ∈ (List.range 256).map (256 * sc + ·) ↔ m / 256 = sc := by
    simp only [List.mem_map, List.mem_range]
    constructor
    · rintro ⟨i, hi, rfl⟩; omega
    · exact fun h => ⟨m % 256, by omega, by omega⟩
  refine ⟨_, he, congrArg Boot.release hboot, fun m hm hin => ?_, fun m hm => ?_⟩
  · rw [hcore m, if_pos ⟨(hmem m).mpr hm, hin⟩]; rfl
  · rw [hcore m, if_neg]
    · rfl
    · rintro ⟨hmm, hin⟩
      rcases hm with h | h
      · exact h ((hmem m).mp hmm)
      · exact Bool.false_ne_true (h.symm.trans hin)

/-! ### The monitor's fetch (R111, R112) -/

theorem bootRead_ok {a k : Nat} {bs : List Byte} (h : memRead s a k = (s1, .ok bs)) :
    bootRead s a k .ok = (s1, some bs) := by
  unfold bootRead
  rw [granaryEcc_ok]
  dsimp only
  rw [h]

theorem descriptorFetch_gives {entry img len : Nat} {d bs : List Byte} (hb : booting s n = true)
    (hd : memRead s (0xF000000000 + 32 * n) 32 = (s1, .ok d)) (hg : goodDescriptor s1 d = some (len, img, entry))
    (hi : memRead s1 img len = (s2, .ok bs)) :
    exec (.bootDescriptorFetch n .ok .ok) s = .next (startMonitor s2 n entry bs) := by
  refine (exec_bootDescriptorFetch ..).trans ?_
  unfold execBootDescriptorFetch fetchMonitor
  rw [if_pos hb, bootRead_ok hd]
  dsimp only
  rw [hg]
  dsimp only
  rw [bootRead_ok hi]

theorem startMonitor_core (s : State) (n entry : Nat) (img : List Byte) :
    (startMonitor s n entry img).core n =
      { phys := (s.core n).phys, ls := (s.core n).ls, reset := false, is_ := Memory.writeN [] 0 img,
        thr := [(0, { st := .ready, pc := BitVec.ofNat 16 entry })] } := State.core_setCore_same ..

/-- An instruction store that holds an image from its first byte. -/
theorem read_image (img : List Byte) (a : Nat) : Memory.read (Memory.writeN [] 0 img) a = img.getD a 0 := by
  rw [Memory.read_writeN, List.getD_eq_getElem?_getD]
  by_cases ha : a < img.length
  · rw [if_pos ⟨Nat.zero_le a, by omega⟩]; rfl
  · rw [if_neg (by omega), List.getElem?_eq_none (by omega)]; rfl

theorem descriptorFetch_bad {d : List Byte} (hb : booting s n = true)
    (hd : memRead s (0xF000000000 + 32 * n) 32 = (s1, .ok d)) (hg : goodDescriptor s1 d = none) (hp : s1.boot.phase ≠ 7) :
    exec (.bootDescriptorFetch n .ok .ok) s =
      .next (ev (s1.modCore n fun c => { c with reset := true }) 0x0200 (coreFb n) (coreBlock n) (n % 256) n 1) := by
  refine (exec_bootDescriptorFetch ..).trans ?_
  unfold execBootDescriptorFetch fetchMonitor
  rw [if_pos hb, bootRead_ok hd]
  dsimp only
  rw [hg]
  dsimp only
  unfold bootBroken
  have hboot : (bootFail s1 n 1).boot = s1.boot :=
    (onlyLog_ev (s1.modCore n fun c => { c with reset := true }) 0x0200 (coreFb n) (coreBlock n) (n % 256) n 1).boot
  rw [if_neg (by rw [hboot]; exact hp)]
  rfl

/-! ### Cores that are newly bad (R367) -/

theorem updateDegraded_leaves (s : State) :
    (updateDegraded s).cores = s.cores ∧ (updateDegraded s).boot = s.boot := by
  unfold updateDegraded
  dsimp only
  split
  · exact ⟨rfl, rfl⟩
  · exact ⟨(onlyLog_ev ..).cores, (onlyLog_ev ..).boot⟩

/-- A unit that is newly bad is disabled, and no core is touched. -/
theorem newlyBad_leaves (s : State) (u : TitheUnit) :
    u ∈ (newlyBad s u).boot.disabled ∧ (newlyBad s u).cores = s.cores := by
  have hmem : u ∈ if s.boot.disabled.contains u then s.boot.disabled else s.boot.disabled ++ [u] := by
    split
    · next h => exact List.contains_iff_mem.mp h
    · exact List.mem_append_right _ List.mem_cons_self
  have hev (s' : State) (code : Nat) (e : SoftUnit) : (softEvent s' code e).boot = s'.boot ∧
      (softEvent s' code e).cores = s'.cores := ⟨(onlyLog_ev ..).boot, (onlyLog_ev ..).cores⟩
  unfold newlyBad
  dsimp only
  split
  · exact ⟨hmem, rfl⟩
  · split
    · exact ⟨hmem, rfl⟩
    · split
      · rw [(hev ..).1, (hev ..).2]; exact ⟨hmem, rfl⟩
      · rw [(hev ..).1, (hev ..).2]; exact ⟨hmem, rfl⟩

/-- The core of logical number `n` is reported and disabled. -/
def coreBad (s : State) (n : Nat) : State :=
  newlyBad (ev s 0x0203 (coreFb n) (coreBlock n) (n % 256) n (physCore s n)) ⟨1, n / 256, physCore s n⟩

/-- A core that has moved to the physical core `p`. -/
def movedCore (n : Nat) : Option Nat → Core
  | some p => freshCore (if p = n % 256 then none else some p)
  | none => { phys := some noCore }

theorem moveCore_eq (s : State) (n : Nat) : moveCore s n = updateDegraded (redigest
    ((coreBad s n).setCore n (movedCore n (freeCores (coreBad s n) (n / 256)).head?))) := by
  unfold moveCore coreBad
  dsimp only
  split
  · next h => rw [h]; rfl
  · next h => rw [h]; rfl

theorem coreBad_core (s : State) (n m : Nat) : (coreBad s n).core m = s.core m :=
  core_of_cores ((newlyBad_leaves ..).2.trans (onlyLog_ev ..).cores) m

theorem freeCores_ne {p : Nat} (hp : p ∈ freeCores s (n / 256)) : p ≠ physCore s n := by
  obtain ⟨-, hused⟩ := List.mem_filter.mp hp
  rintro rfl
  have hin : physCore s n ∈ (List.range 256).map fun i => physCore s (256 * (n / 256) + i) :=
    List.mem_map.mpr ⟨n % 256, List.mem_range.mpr (by omega), by rw [Nat.div_add_mod]⟩
  rw [List.contains_iff_mem.mpr hin] at hused
  exact Bool.false_ne_true hused

theorem moveCore_core (s : State) (n m : Nat) : (moveCore s n).core m =
    if m = n then movedCore n (freeCores (coreBad s n) (n / 256)).head? else s.core m := by
  have hc : (moveCore s n).core m =
      ((coreBad s n).setCore n (movedCore n (freeCores (coreBad s n) (n / 256)).head?)).core m := by
    rw [moveCore_eq]
    exact core_of_cores (updateDegraded_leaves _).1 m
  rw [hc, State.core_setCore, coreBad_core]

theorem coreReadyTimeout_gives (hb : booting s n = true) : Gives (.coreReadyTimeout n) s fun t =>
    ⟨1, n / 256, physCore s n⟩ ∈ t.boot.disabled ∧ physCore t n ≠ physCore s n ∧
      (physCore t n ≠ noCore → t.core n = freshCore (t.core n).phys) ∧ ∀ m, m ≠ n → t.core m = s.core m := by
  have he : exec (.coreReadyTimeout n) s = .next (moveCore s n) := (exec_coreReadyTimeout ..).trans (if_pos hb)
  have hin : physCore s n ≠ noCore := by
    unfold booting inService at hb
    simp only [Bool.and_eq_true, bne_iff_ne] at hb
    exact hb.2.1.2
  have hcore : (moveCore s n).core n = movedCore n (freeCores (coreBad s n) (n / 256)).head? :=
    (moveCore_core s n n).trans (if_pos rfl)
  refine ⟨moveCore s n, he, ?_, ?_, ?_, fun m hm => (moveCore_core s n m).trans (if_neg hm)⟩
  · rw [moveCore_eq, (updateDegraded_leaves _).2]
    exact (newlyBad_leaves ..).1
  · unfold physCore
    rw [hcore]
    cases hh : (freeCores (coreBad s n) (n / 256)).head? with
    | none => exact fun h => hin h.symm
    | some p =>
      have hne := freeCores_ne (List.mem_of_mem_head? hh)
      rw [physCore_of_phys (congrArg Core.phys (coreBad_core s n n))] at hne
      have hp : (movedCore n (some p)).phys.getD (n % 256) = p := by
        show (if p = n % 256 then none else some p : Option Nat).getD (n % 256) = p
        split
        · next h => exact h.symm
        · rfl
      rw [hp]
      exact hne
  · rw [hcore]
    cases hh : (freeCores (coreBad s n) (n / 256)).head? with
    | none =>
      intro hne
      refine absurd ?_ hne
      unfold physCore
      rw [hcore, hh]
      rfl
    | some p => exact fun _ => rfl

/-! ### A monitor that has faulted (R109) -/

theorem pumpAll_nothing (h : s.fab.reqs = []) : pumpAll s = s := by
  unfold pumpAll
  rw [h]
  unfold pumpReqs
  rw [h]
  rfl

theorem onlyLinksXlt_dropped (s : State) (n : Nat) (ids : List Nat) (p : ZWho → Bool) :
    OnlyLinksXlt s (dropZlr (ids.foldl (fun s id => forget s (.aop n id)) (forget s (.thread n 0))) p) := by
  have hforget : OnlyLinksXlt s (forget s (.thread n 0)) := onlyLinksXlt_forgetIf _ _
  exact hforget.trans ((onlyLinksXlt_forgets (fun id => Agent.aop n id) ids _).trans (onlyLinksXlt_dropZlr _ _))

theorem OnlyLinksXlt.fab {a b : State} (h : OnlyLinksXlt a b) : b.fab = a.fab := (congrArg State.fab h.rest :)

theorem phys_foldl {α : Type} {f : Core → α → Core} (hf : ∀ c x, (f c x).phys = c.phys) (xs : List α) :
    ∀ c : Core, (xs.foldl f c).phys = c.phys := by
  induction xs with
  | nil => exact fun _ => rfl
  | cons x xs ih => exact fun c => (ih _).trans (hf c x)

theorem phys_dropOp (c : Core) (id : Nat) : (dropOp c id).phys = c.phys := by
  have hsettle (c : Core) (k : Nat) : (settle c k).phys = c.phys :=
    settle_keeps Core.phys (fun c => by rw [unstall_eq]) (fun _ _ _ => rfl) c k
  exact phys_foldl hsettle _ _

theorem phys_releaseTiles (c : Core) : (releaseTiles c).phys = c.phys := by
  refine phys_foldl (fun c k => ?_) _ c
  dsimp only
  split
  · rfl
  · rfl

theorem cleared_keeps {rs : List EReq} {f : Core → Core} (hs : OnlyLinksXlt s s1) (hf : ∀ c, (f c).phys = c.phys) :
    (((setReqs s1 rs).modCore n f).core n).phys = (s.core n).phys := by
  rw [State.core_modCore, if_pos rfl, hf]
  exact congrArg Core.phys (core_of_cores (s' := setReqs s1 rs) hs.cores n)

theorem clearCore_phys (s : State) (n : Nat) : ((clearCore s n).core n).phys = (s.core n).phys := by
  unfold clearCore
  dsimp only
  refine cleared_keeps ((onlyLinksXlt_workForgotten s n ((s.core n).aops.filter fun o => o.t ≠ 0)).trans
    (onlyLinksXlt_dropZlr _ _)) fun c => ?_
  dsimp only
  rw [phys_releaseTiles]
  exact phys_foldl (fun c (o : AOp) => phys_dropOp c o.id) _ c

/-- No request is there to be marked. -/
theorem noReqs_map (hs : OnlyLinksXlt s s1) (h : s.fab.reqs = []) (f : EReq → EReq) : s1.fab.reqs.map f = [] := by
  rw [hs.fab, h]; rfl

theorem noReqs_marked {f : EReq → EReq} {g : Core → Core} (hs : OnlyLinksXlt s s1) (h : s.fab.reqs = []) :
    ((setReqs s1 (s1.fab.reqs.map f)).modCore n g).fab.reqs = [] := noReqs_map hs h f

theorem clearCore_reqs (s : State) (n : Nat) (h : s.fab.reqs = []) : (clearCore s n).fab.reqs = [] := by
  unfold clearCore
  dsimp only
  refine noReqs_marked ((onlyLinksXlt_workForgotten s n ((s.core n).aops.filter fun o => o.t ≠ 0)).trans ?_) h
  exact onlyLinksXlt_dropZlr _ _

/-- A core that drops all it runs keeps its mapping; no other core is touched, and no request is sent. -/
theorem dropCore_leaves (s : State) (n : Nat) : (∀ m, m ≠ n → (dropCore s n).core m = s.core m) ∧
    ((dropCore s n).core n).phys = (s.core n).phys ∧ (s.fab.reqs = [] → (dropCore s n).fab.reqs = []) := by
  unfold dropCore
  dsimp only
  have hclear := clearCore_leaves s n
  have hlinks := onlyLinksXlt_dropped (clearCore s n) n ((s.core n).aops.map (·.id)) fun w => match w with
    | .thread m _ | .aop m _ => m = n
    | _ => false
  refine ⟨fun m hm => ?_, ?_, fun h => noReqs_map hlinks (clearCore_reqs s n h) _⟩
  · rw [State.core_setCore, if_neg hm]
    exact (core_of_cores hlinks.cores m).trans (hclear.cores m hm)
  · rw [State.core_setCore, if_pos rfl]
    exact (congrArg Core.phys (core_of_cores hlinks.cores n)).trans (clearCore_phys s n)

theorem monitorFaultReset_gives (hf : (s.core n).monFault = true) (hr : reeveDown s (coreFb n) = false)
    (hreqs : s.fab.reqs = []) : Gives (.monitorFaultReset n) s fun t =>
      t.core n = freshCore (s.core n).phys ∧ ∀ m, m ≠ n → t.core m = s.core m := by
  obtain ⟨hcores, hphys, hnone⟩ := dropCore_leaves s n
  have he : exec (.monitorFaultReset n) s =
      .next ((dropCore s n).setCore n (freshCore ((dropCore s n).core n).phys)) := by
    refine (exec_monitorFaultReset ..).trans ?_
    unfold execMonitorFaultReset
    rw [hf, hr]
    exact congrArg Host.Outcome.next (pumpAll_nothing (hnone hreqs))
  refine ⟨_, he, ?_, fun m hm => ?_⟩
  · rw [State.core_setCore, if_pos rfl, hphys]
  · rw [State.core_setCore, if_neg hm]
    exact hcores m hm

/-! ### Watchdogs and the debug port (R386, R385) -/

theorem watchdogExpiry_runs (hp : s.powered = true) (hi : s.iso fb = false) (hd : reeveDown s fb = false)
    (hph : s.boot.phase = 8) : exec (.watchdogExpiry fb) s = .next (watchdog s fb) := by
  refine (exec_watchdogExpiry ..).trans ?_
  unfold execWatchdogExpiry
  rw [hp, hi, hd, hph]
  rfl

theorem watchdogExpiry_starts (hp : s.powered = true) (hi : s.iso fb = false) (hd : reeveDown s fb = false)
    (hph : s.boot.phase = 2 ∨ s.boot.phase = 3) :
    exec (.watchdogExpiry fb) s = .next (nextSlot s s.boot.phase) := by
  refine (exec_watchdogExpiry ..).trans ?_
  unfold execWatchdogExpiry
  rw [hp, hi, hd, if_neg (by decide), if_pos hph]

/-- A watchdog after an expiry, the `n`-th in its window. -/
def expired (w : Wdog) (now n : Nat) : Wdog :=
  { w with
    expiries := satInc 65535 w.expiries, window := min 3 n, windowNo := now, halted := decide (3 ≤ n), down := decide (n < 3) }

/-- A Reeve whose watchdog has expired restarts, or has halted. -/
theorem reeveDown_of_expired {w : Wdog} {now k : Nat} (h : tget {} t.sec.wdog fb = expired w now k) :
    reeveDown t fb = true := by
  unfold reeveDown
  rw [h]
  have hcases : (decide (k < 3) || decide (3 ≤ k)) = true := by
    simp only [Bool.or_eq_true, decide_eq_true_eq]; omega
  simp only [expired, hcases, Bool.true_or]

theorem watchdog_wdog (s : State) (fb : Nat) :
    let w : Wdog := tget {} s.sec.wdog fb
    let n := (if w.windowNo = windowOf s fb then w.window else 0) + 1
    (watchdog s fb).sec.wdog = tset {} s.sec.wdog fb (expired w (windowOf s fb) n) := by
  intro w n
  unfold watchdog
  dsimp only
  exact congrArg Sec.wdog (onlyLog_ev ..).sec

theorem enterStep_two (s : State) : enterStep s 2 = { s with boot := { s.boot with phase := 2 } } := by
  unfold enterStep
  dsimp only
  rw [if_neg (by decide), if_neg (by decide), if_neg (by decide)]

/-- The slot of a start fails its trial, and the start begins again at step 2. -/
theorem nextSlot_fails (p : Nat) (hs : s.boot.slot < 2) :
    (nextSlot s p).boot.phase = 2 ∧ ((nextSlot s p).fw s.boot.slot).trialFailed = true := by
  unfold nextSlot
  rw [if_neg (by omega)]
  dsimp only
  rw [enterStep_two]
  refine ⟨rfl, ?_⟩
  unfold State.fw
  dsimp only
  rw [(updateDegraded_leaves _).2]
  exact congrArg FwSlot.trialFailed (tget_tset_same ..)

theorem reeveRestartDone_next (hw : (tget {} s.sec.wdog fb : Wdog).down = true) : exec (.reeveRestartDone fb) s =
    .next { s with sec := { s.sec with wdog := tset {} s.sec.wdog fb { (tget {} s.sec.wdog fb : Wdog) with down := false } } } :=
  (exec_reeveRestartDone ..).trans (if_pos hw)

theorem jtagAttach_gives (hp : s.powered = true) (hj : s.sec.jtagEn = true) : Gives .jtagAttach s fun t =>
    { t with sec := s.sec, evt := s.evt, mer := s.mer, free := s.free } = s ∧
      { t.sec with meas := s.sec.meas } = s.sec ∧
      ∀ r, r ≠ 6 → tget 0 t.sec.meas r = tget (0 : BitVec 512) s.sec.meas r := by
  have he : exec .jtagAttach s = .next (ev (extend s 6 (Config.runEvent 1 0)) 0x0811 0 0x29 0 0 0) := by
    refine (exec_jtagAttach ..).trans ?_
    unfold execJtagAttach
    rw [hp, hj]
    rfl
  have hlog := onlyLog_ev (extend s 6 (Config.runEvent 1 0)) 0x0811 0 0x29 0 0 0
  refine ⟨_, he, (congrArg (fun u : State => { u with sec := s.sec }) hlog :), ?_, fun r hr => ?_⟩
  · rw [hlog.sec]; rfl
  · rw [hlog.sec]
    exact (tget_tset ..).trans (if_neg hr)

theorem jtagAttach_inert (hj : s.sec.jtagEn = false) : exec .jtagAttach s = .next s := by
  refine (exec_jtagAttach ..).trans ?_
  unfold execJtagAttach
  rw [hj, Bool.and_false]
  rfl

/-- Settles O57: a core is released, boots, moves or is reset alone; a watchdog's expiry counts, and restarts or halts
its Reeve, or fails the slot of a start. -/
theorem monitorsAndWatchdogs : Obligations.MonitorsAndWatchdogs := by
  unfold Obligations.MonitorsAndWatchdogs
  refine ⟨fun sc n entry img len rest d bs s s1 s2 => ⟨fun hp hr => scRelease_gives hp hr, fun hb hn hd => ⟨fun hg hi => ?_,
    fun hg hp hph => descriptorFetch_bad hb hd hg (by rw [hph]; exact hp)⟩, coreReadyTimeout_gives, monitorFaultReset_gives⟩,
    fun fb s hp => ⟨fun hi hd hph => ?_, fun hi hd hph hs => ?_, reeveRestartDone_next, jtagAttach_gives hp, jtagAttach_inert⟩⟩
  · have hcore := startMonitor_core s2 n entry bs
    have hthr (u : Nat) : (startMonitor s2 n entry bs).thr n u =
        tget {} [(0, { st := .ready, pc := BitVec.ofNat 16 entry })] u := congrArg (fun c : Core => c.thread u) hcore
    refine ⟨_, descriptorFetch_gives hb hd hg hi, by rw [hcore], by rw [hcore], fun a => ?_, by rw [hthr]; rfl,
      by rw [hthr]; rfl, fun j => by rw [hthr]; rfl, fun u hu => ?_, fun m hm => ?_, rfl⟩
    · rw [hcore]
      exact read_image bs a
    · rw [hthr]
      exact if_neg hu
    · exact (State.core_setCore ..).trans (if_neg hm)
  · have hw := watchdog_wdog s fb
    refine ⟨_, watchdogExpiry_runs hp hi hd hph, ?_, fun j hj => ?_, ?_⟩
    · rw [hw]; exact tget_tset_same ..
    · rw [hw]; exact (tget_tset ..).trans (if_neg hj)
    · exact reeveDown_of_expired (w := tget {} s.sec.wdog fb) (by rw [hw]; exact tget_tset_same ..)
  · exact ⟨_, watchdogExpiry_starts hp hi hd hph, nextSlot_fails _ hs⟩

end Sys2Proof.Machine
end

section
/-! Packets and collectives between modules, for O59. -/

namespace Sys2Proof.Machine

variable {s s1 t : State} {l : Nat} {p : FPkt}

/-! ### Operations and links leave what waits in receive buffers -/

theorem fab_stopCtx (s : State) (c : Nat) : (s.stopCtx c).fab = s.fab := by
  unfold State.stopCtx
  dsimp only
  split
  · rfl
  · rfl

theorem fab_finish (s : State) (ring : Nat) (seq : W32) (st d16 d32 d64 : Nat) :
    (finish s ring seq st d16 d32 d64).fab = s.fab := by
  unfold finish
  split
  · rfl
  · dsimp only
    split
    · split
      · exact fab_stopCtx ..
      · exact fab_stopCtx ..
    · split
      · rfl
      · rfl

theorem fab_issueZlr (who : ZWho) (ls : List Nat) : ∀ s : State, (issueZlr s who ls).fab = s.fab := by
  induction ls with
  | nil => exact fun _ => rfl
  | cons l ls ih => exact fun s => ih _

theorem fab_doneCmd (s : State) (ring : Nat) (seq : W32) : (doneCmd s ring seq).fab = s.fab := by
  unfold doneCmd
  split
  · rfl
  · exact fab_finish ..

theorem fab_settleCmd (s : State) (c : Cmd) (links : List Nat) : (settleCmd s c links).fab = s.fab := by
  unfold settleCmd
  dsimp only
  split
  · exact fab_issueZlr ..
  · exact fab_doneCmd ..

theorem fab_fenceGo (s : State) (c : Cmd) : (fenceGo s c).fab = s.fab := by
  unfold fenceGo
  split
  · rfl
  · exact fab_settleCmd ..

theorem foldl_fab {α : Type} {f : State → α → State} (hf : ∀ s x, (f s x).fab = s.fab) (xs : List α) :
    ∀ s : State, (xs.foldl f s).fab = s.fab := by
  induction xs with
  | nil => exact fun _ => rfl
  | cons x xs ih => exact fun s => (ih _).trans (hf s x)

theorem fab_fenceCheck (s : State) : (fenceCheck s).fab = s.fab := by
  refine foldl_fab (fun s e => ?_) _ s
  split
  · exact fab_fenceGo ..
  · rfl

theorem OnlyCore.fab {n : Nat} (h : OnlyCore s t n) : t.fab = s.fab := (congrArg State.fab h.rest :)

theorem fab_wake (s : State) (n : Nat) : (wake s n).fab = s.fab := by
  unfold wake
  exact (onlyCore_modCore ..).fab

theorem fab_ite {c : Prop} [Decidable c] {a b : State} {x : Fab} (ha : a.fab = x) (hb : b.fab = x) :
    (if c then a else b).fab = x := by
  split
  · exact ha
  · exact hb

theorem fab_opAdvance (s : State) (n id : Nat) : (opAdvance s n id).fab = s.fab := by
  unfold opAdvance
  split
  · exact (fab_fenceCheck _).trans (fab_wake s n)
  · exact fab_ite (onlyCore_countOp ..).fab (fab_wake s n)

/-- The packets that wait for an egress port stay. -/
theorem fwd_accepted (s : State) (p : FPkt) : (accepted s p).fab.fwd = s.fab.fwd := by
  unfold accepted
  split
  · rfl
  · rw [fab_opAdvance]
    split
    · rfl
    · rfl

theorem fwd_pumpLink (fuel : Nat) : ∀ (s : State) (l : Nat), (pumpLink fuel s l).fab.fwd = s.fab.fwd := by
  induction fuel with
  | zero => exact fun _ _ => rfl
  | succ fuel ih =>
    intro s l
    unfold pumpLink
    split
    · rfl
    · exact (ih ..).trans (fwd_accepted ..)

theorem fwd_enqueue (s : State) (l : Nat) (p : FPkt) : (enqueue s l p).fab.fwd = s.fab.fwd := by
  unfold enqueue
  dsimp only
  rw [fwd_pumpLink]
  split
  · rw [fab_opAdvance]; rfl
  · rfl

/-! ### Requests of other modules (R308, R313) -/

theorem takesPkt_version (h : p.version ≠ 1) : takesPkt s l p = false := by
  unfold takesPkt
  rw [show (p.version == 1) = false from beq_eq_false_iff_ne.mpr h, Bool.and_false, Bool.false_and]

theorem requestArrival_serves (ht : takesPkt s l p = true) (hd : p.dst = s.fab.id) (hty : p.type = 0x01 ∨ p.type = 0x02) :
    exec (.fabricRequestArrival l p) s = .next (serveRequest (rxPass s l p) l p) := by
  refine (exec_fabricRequestArrival ..).trans ?_
  unfold execFabricRequestArrival
  rw [ht, if_neg (by decide), if_neg (not_not_intro hd), if_pos (hty.imp_right Or.inl)]

theorem serveRequest_read {bs : List Byte} (hty : p.type = 0x02) (ha : dpaOk s (p.addr % 2 ^ 40) = true)
    (he : dpaOk s (p.addr % 2 ^ 40 + p.len - 1) = true) (hm : memRead s (p.addr % 2 ^ 40) p.len = (s1, .ok bs)) :
    serveRequest s l p = answer s1 p 0x08 0 bs := by
  unfold serveRequest
  dsimp only
  rw [hty, if_neg (by simp), if_pos rfl, ha, he, if_neg (by decide)]
  unfold serveAt
  dsimp only
  rw [hty, if_neg (by simp), if_pos rfl, if_pos rfl, hm]

theorem serveRequest_write (hty : p.type = 0x01) (hp : (ratOf s (p.addr % 2 ^ 40)).peerWr = true)
    (ha : dpaOk s (p.addr % 2 ^ 40) = true) (he : dpaOk s (p.addr % 2 ^ 40 + p.data.length - 1) = true)
    (hk : s.dram.parked = []) (hm : memWrite s (p.addr % 2 ^ 40) p.data = (s1, none)) :
    serveRequest s l p = answer s1 p 0x09 0 [] := by
  unfold serveRequest
  dsimp only
  rw [hty, hp, if_neg (by decide), if_neg (by decide : ¬(0x01 = 0x02)), if_neg (by decide : ¬(0x01 = 0x03)), ha, he,
    if_neg (by decide)]
  unfold serveAt
  dsimp only
  rw [hty, hk, if_neg (by simp), if_neg (by decide), if_pos rfl, hm]

theorem serveRequest_refused (hty : p.type = 0x01) (hp : (ratOf s (p.addr % 2 ^ 40)).peerWr = false) :
    serveRequest s l p = answer (linkLog s l 0x0006 (p.addr % 2 ^ 40) p.src) p 0x0C 0x0201 [] := by
  unfold serveRequest
  dsimp only
  rw [hty, hp, if_pos (by decide)]

/-! ### Responses (R311) -/

/-- A response whose bytes go to local store. -/
theorem responseArrival_data {r : EReq} (ht : takesPkt s l p = true) (hd : p.dst = s.fab.id) (hty : p.type = 0x08)
    (hr : reqOf s p.tag = some r) (hsrc : r.pkt.dst = p.src) (hdead : r.dead = false) (hlen : p.data.length = r.pkt.len) :
    exec (.fabricResponseArrival l p) s = .next (answered ((rxPass s l p).modCore r.n fun c => (lsWrite c r.ls p.data).1) r) := by
  refine (exec_fabricResponseArrival ..).trans ?_
  unfold execFabricResponseArrival
  have hr' : reqOf (rxPass s l p) p.tag = some r := hr
  rw [ht, if_neg (by decide), if_neg (not_not_intro hd)]
  dsimp only
  rw [hr']
  dsimp only
  rw [if_neg (not_not_intro hsrc), hdead, hty, if_pos (by decide), if_neg (by decide), ← hlen, List.take_length]

theorem arrival_untagged (ht : takesPkt s l p = true) (hd : p.dst = s.fab.id) (hr : reqOf s p.tag = none) :
    exec (.fabricResponseArrival l p) s = .next (rxPass s l p) ∧ exec (.fabricErrorPacket l p) s = .next (rxPass s l p) := by
  have hr' : reqOf (rxPass s l p) p.tag = none := hr
  constructor
  · refine (exec_fabricResponseArrival ..).trans ?_
    unfold execFabricResponseArrival
    rw [ht, if_neg (by decide), if_neg (not_not_intro hd)]
    dsimp only
    rw [hr']
  · refine (exec_fabricErrorPacket ..).trans ?_
    unfold execFabricErrorPacket
    rw [ht, if_neg (by decide), if_neg (not_not_intro hd)]
    dsimp only
    rw [hr']

theorem errorPacket_fails {r : EReq} (ht : takesPkt s l p = true) (hd : p.dst = s.fab.id) (hr : reqOf s p.tag = some r) :
    exec (.fabricErrorPacket l p) s =
      .next (pumpAll (reqFail (rxPass s l p) r (causeOfStatus p.status) (statusOfError p.status))) := by
  refine (exec_fabricErrorPacket ..).trans ?_
  have hr' : reqOf (rxPass s l p) p.tag = some r := hr
  unfold execFabricErrorPacket
  rw [ht, if_neg (by decide), if_neg (not_not_intro hd)]
  dsimp only
  rw [hr']

theorem opAdvance_counts {n id : Nat} {o : AOp} (haops : (s.core n).aops = [o]) (hid : o.id = id) (hst : o.stage = 1)
    (hk : ∃ x y z, o.kind = .rget x y z) (hreqs : s.fab.reqs = []) : opAdvance s n id = countOp s n o 0 := by
  obtain ⟨x, y, z, hk⟩ := hk
  have hfind : [o].find? (fun o => decide (o.id = id)) = some o := by simp [hid]
  unfold opAdvance
  rw [haops, hfind]
  dsimp only
  rw [hk, hst, hreqs]
  rfl

/-- The bytes of a response stand in local store, its tag is free and its operation is counted. -/
theorem answered_counts {r : EReq} {o : AOp} {data : List Byte} (hreqs : s.fab.reqs = [r])
    (hbad : (s.core r.n).lsBad = []) (haops : (s.core r.n).aops = [o]) (hid : o.id = r.op) (hst : o.stage = 1)
    (hk : ∃ x y z, o.kind = .rget x y z) :
    let t := answered (s.modCore r.n fun c => (lsWrite c r.ls data).1) r
    t.fab.reqs = [] ∧ (t.core r.n).aops = [] ∧ (t.thr r.n o.t).rc o.k = (s.thr r.n o.t).rc o.k + 1 ∧
      (t.core r.n).ls = Memory.writeN (s.core r.n).ls r.ls data := by
  intro t
  have hgood : badWord (s.core r.n).lsBad r.ls data.length = none := by
    rw [hbad]
    unfold badWord
    split
    · rfl
    · exact List.find?_eq_none.mpr fun _ _ => Bool.false_ne_true
  obtain ⟨b, hw, -⟩ := lsWrite_good hgood
  let u : State := setReqs (s.modCore r.n fun c => (lsWrite c r.ls data).1) []
  have hcore : u.core r.n = { s.core r.n with ls := Memory.writeN (s.core r.n).ls r.ls data, lsBad := b } := by
    show (s.modCore r.n fun c => (lsWrite c r.ls data).1).core r.n = _
    rw [State.core_modCore_same, hw]
  have hadv : opAdvance u r.n r.op = countOp u r.n o 0 :=
    opAdvance_counts (by rw [hcore]; exact haops) hid hst hk rfl
  have hnone : (countOp u r.n o 0).fab.reqs = [] := congrArg Fab.reqs (onlyCore_countOp u r.n o 0).fab
  have ht : t = countOp u r.n o 0 := by
    show answered _ _ = _
    unfold answered
    have hrem : removeOne r (s.modCore r.n fun c => (lsWrite c r.ls data).1).fab.reqs = [] := by
      show removeOne r s.fab.reqs = []
      rw [hreqs]
      exact if_pos rfl
    rw [hrem]
    exact (congrArg pumpAll hadv).trans (pumpAll_nothing hnone)
  obtain ⟨hcount, -, -, hops, hls⟩ := counted_countOp u r.n o 0
  rw [ht]
  refine ⟨hnone, ?_, hcount.trans ?_, hls.trans (by rw [hcore])⟩
  · rw [hops, hcore]
    show (s.core r.n).aops.filter _ = []
    rw [haops]
    simp
  · rw [hcore]; rfl

/-! ### Packets for other modules (R306, R307, R310) -/

/-- The packet stands in the receive buffer of its link and waits for an egress port. -/
def fwdWaits (s : State) (l : Nat) (p : FPkt) : State :=
  { rxTake s l p with fab := { (rxTake s l p).fab with fwd := [(l, p)] } }

theorem forward_pumps (ht : takesPkt s l p = true) (hd : p.dst ≠ s.fab.id) (hty : p.type ≠ 0x20) (hf : s.fab.fwd = []) :
    exec (.fabricForward l p) s = .next (pumpFwds (fwdWaits s l p)) := by
  refine (exec_fabricForward ..).trans ?_
  unfold execFabricForward
  rw [ht, if_neg (by decide), if_neg hd, if_neg hty]
  dsimp only
  have hfwd : (rxTake s l p).fab.fwd = [] := hf
  rw [hfwd]
  rfl

theorem routeOf_congr {q : FPkt} (hr : t.fab.route = s.fab.route) (hst : ∀ e, (t.flink e).st = (s.flink e).st) :
    routeOf t q = routeOf s q := by
  unfold routeOf
  simp only [hr, hst]

theorem flink_fwdWaits (s : State) (l e : Nat) (p : FPkt) :
    ((fwdWaits s l p).flink e).st = (s.flink e).st ∧ ((fwdWaits s l p).flink e).txq = (s.flink e).txq := by
  have hl : (fwdWaits s l p).flink e =
      if e = l then { s.flink l with rxUsed := addCredits (s.flink l).rxUsed p } else s.flink e :=
    State.flink_setFlink s l e _
  rw [hl]
  split
  · next h => rw [h]; exact ⟨rfl, rfl⟩
  · exact ⟨rfl, rfl⟩

theorem routeOf_fwdWaits (s : State) (l : Nat) (p q : FPkt) : routeOf (fwdWaits s l p) q = routeOf s q :=
  routeOf_congr rfl fun e => (flink_fwdWaits s l e p).1

theorem st_setFlink {k : FLink} (h : k.st = (s.flink l).st) (e : Nat) : ((s.setFlink l k).flink e).st = (s.flink e).st := by
  rw [State.flink_setFlink]
  split
  · next he => rw [he]; exact h
  · rfl

theorem st_rxPass (s : State) (l : Nat) (p : FPkt) (e : Nat) : ((rxPass s l p).flink e).st = (s.flink e).st :=
  have htake : ((rxTake s l p).flink e).st = (s.flink e).st :=
    st_setFlink (k := { s.flink l with rxUsed := addCredits (s.flink l).rxUsed p }) rfl e
  have howe : ((rxPass s l p).flink e).st = ((rxTake s l p).flink e).st :=
    st_setFlink (k := { (rxTake s l p).flink l with owed := addCredits ((rxTake s l p).flink l).owed p }) rfl e
  howe.trans htake

/-- The one packet that waits leaves its buffer. -/
theorem fwdWaits_leaves (hf : s.fab.fwd = []) :
    rxOwe { fwdWaits s l p with fab := { (fwdWaits s l p).fab with fwd := removeOne (l, p) (fwdWaits s l p).fab.fwd } } l p =
      rxPass s l p := by
  have hrem : removeOne (l, p) (fwdWaits s l p).fab.fwd = (rxTake s l p).fab.fwd := by
    refine Eq.trans (if_pos rfl : _ = []) ?_
    exact hf.symm
  rw [hrem]
  rfl

theorem nextFwd_one {e : Nat} (hr : routeOf s { p with hops := p.hops + 1 } = .go e) :
    nextFwd (fwdWaits s l p) (fwdWaits s l p).fab.fwd [] =
      if egressRoom (s.flink e) { p with hops := p.hops + 1 } then some (l, p) else none := by
  show nextFwd (fwdWaits s l p) [(l, p)] [] = _
  unfold nextFwd
  rw [routeOf_fwdWaits, hr]
  dsimp only
  have hroom : egressRoom ((fwdWaits s l p).flink e) { p with hops := p.hops + 1 } =
      egressRoom (s.flink e) { p with hops := p.hops + 1 } := by
    unfold egressRoom
    rw [(flink_fwdWaits s l e p).2]
  rw [hroom]
  cases egressRoom (s.flink e) { p with hops := p.hops + 1 }
  · rfl
  · rfl

theorem forward_goes {e : Nat} (ht : takesPkt s l p = true) (hd : p.dst ≠ s.fab.id) (hty : p.type ≠ 0x20)
    (hf : s.fab.fwd = []) (hr : routeOf s { p with hops := p.hops + 1 } = .go e)
    (hroom : egressRoom (s.flink e) { p with hops := p.hops + 1 } = true) :
    exec (.fabricForward l p) s = .next (send (rxPass s l p) { p with hops := p.hops + 1 }) := by
  rw [forward_pumps ht hd hty hf]
  have hroute : routeOf (rxPass s l p) { p with hops := p.hops + 1 } = .go e := (routeOf_congr (s := s) (t := rxPass s l p) rfl (st_rxPass s l p)).trans hr
  have hempty : (send (rxPass s l p) { p with hops := p.hops + 1 }).fab.fwd = [] := by
    unfold send
    rw [hroute]
    exact (fwd_enqueue ..).trans hf
  have hone : pumpFwds (fwdWaits s l p) = pumpFwd 1 (send (rxPass s l p) { p with hops := p.hops + 1 }) := by
    show pumpFwd 2 (fwdWaits s l p) = _
    rw [pumpFwd, nextFwd_one hr, hroom, if_pos rfl]
    dsimp only
    rw [fwdWaits_leaves hf]
  rw [hone, pumpFwd, hempty]
  rfl

theorem forward_waits {e : Nat} (ht : takesPkt s l p = true) (hd : p.dst ≠ s.fab.id) (hty : p.type ≠ 0x20)
    (hf : s.fab.fwd = []) (hr : routeOf s { p with hops := p.hops + 1 } = .go e)
    (hroom : egressRoom (s.flink e) { p with hops := p.hops + 1 } = false) :
    exec (.fabricForward l p) s = .next (fwdWaits s l p) := by
  rw [forward_pumps ht hd hty hf]
  have hone : pumpFwds (fwdWaits s l p) = fwdWaits s l p := by
    show pumpFwd 2 (fwdWaits s l p) = _
    rw [pumpFwd, nextFwd_one hr, hroom, if_neg Bool.false_ne_true]
  rw [hone]

theorem forward_raw (ht : takesPkt s l p = true) (hd : p.dst ≠ s.fab.id) (hty : p.type = 0x20) :
    exec (.fabricForward l p) s = .next (rxPass s l p) := by
  refine (exec_fabricForward ..).trans ?_
  unfold execFabricForward
  rw [ht, if_neg (by decide), if_neg hd, if_pos hty]

theorem wakeRaw_nobody (h : ∀ c ∈ s.cores, ∀ x ∈ c.2.thr, x.2.wait ≠ .xrecv l) : wakeRaw s l = s := by
  have hnone : (s.cores.flatMap fun c => c.2.thr.filterMap fun e =>
      if e.2.st = .waiting && e.2.wait = .xrecv l then some (c.1, e.1) else none) = [] := by
    rw [List.flatMap_eq_nil_iff]
    intro c hc
    rw [List.filterMap_eq_nil_iff]
    intro x hx
    refine if_neg fun he => h c hc x hx ?_
    exact of_decide_eq_true (Bool.and_eq_true_iff.mp he).2
  unfold wakeRaw
  rw [hnone]
  rfl

theorem rawArrival_waits (ht : takesPkt s l p = true) (h : ∀ c ∈ s.cores, ∀ x ∈ c.2.thr, x.2.wait ≠ .xrecv l) :
    exec (.rawPacketArrival l p) s = .next (rxTake (s.setFlink l { s.flink l with raw := (s.flink l).raw ++ [p] }) l p) := by
  refine (exec_rawPacketArrival ..).trans ?_
  unfold execRawPacketArrival
  rw [ht, if_neg (by decide)]
  exact congrArg Host.Outcome.next (wakeRaw_nobody (s := rxTake _ l p) h)

theorem arrivals_otherVersion (h : p.version ≠ 1) :
    exec (.fabricRequestArrival l p) s = .next s ∧ exec (.fabricResponseArrival l p) s = .next s ∧
      exec (.fabricErrorPacket l p) s = .next s ∧ exec (.fabricForward l p) s = .next s ∧
      exec (.rawPacketArrival l p) s = .next s := by
  have hn : (!takesPkt s l p) = true := by rw [takesPkt_version h]; rfl
  exact ⟨(exec_fabricRequestArrival ..).trans (if_pos hn), (exec_fabricResponseArrival ..).trans (if_pos hn),
    (exec_fabricErrorPacket ..).trans (if_pos hn), (exec_fabricForward ..).trans (if_pos hn),
    (exec_rawPacketArrival ..).trans (if_pos hn)⟩

theorem routeWaitTimeout_drops {id : Nat} (hw : s.fab.waits = [(id, p)]) (hty : p.type = 0x0C) (hreqs : s.fab.reqs = []) :
    exec (.routeWaitTimeout id) s = .next { s with fab := { s.fab with waits := [] } } := by
  refine (exec_routeWaitTimeout ..).trans ?_
  have hfind : s.fab.waits.find? (fun w => w.1 = id) = some (id, p) := by rw [hw]; simp
  have hleft : s.fab.waits.filter (fun x => x.1 ≠ id) = [] := by rw [hw]; simp
  have hfail (u : State) : netFail u p 0x0402 = u := by
    unfold netFail
    rw [hty]
    rfl
  unfold execRouteWaitTimeout
  rw [hfind]
  dsimp only
  rw [hleft, hfail]
  exact congrArg Host.Outcome.next (pumpAll_nothing hreqs)

theorem e2eTimeout_fails {id : Nat} {r : EReq} (hreqs : s.fab.reqs = [r]) (htag : r.tag = some id) :
    exec (.e2eTimeout r.port id) s = .next (pumpAll (reqFail s r cREMOTE 0x0403)) := by
  refine (exec_e2eTimeout ..).trans ?_
  have hfind : s.fab.reqs.find? (fun x => x.port = r.port && x.tag = some id) = some r := by rw [hreqs]; simp [htag]
  unfold execE2eTimeout
  rw [hfind]

/-! ### Collectives between modules (R320 to R325) -/

section
variable {d : GroupDesc} {tr : FTree}

theorem chunkArrival_inactive (ht : takesPkt s l p = true) (ha : activeTree s p.group = none) :
    exec (.collectiveChunkArrival l p) s = .next (chunkAnswer (rxPass s l p) p 0x0B) ∧
      exec (.fabricBellArrival l p) s = .next (rxPass s l p) ∧
      exec (.fabricReleaseArrival l p) s = .next (rxPass s l p) := by
  have ha' : activeTree (rxPass s l p) p.group = none := ha
  refine ⟨(exec_collectiveChunkArrival ..).trans ?_, (exec_fabricBellArrival ..).trans ?_,
    (exec_fabricReleaseArrival ..).trans ?_⟩
  · unfold execCollectiveChunkArrival
    rw [ht, if_neg (by decide)]
    dsimp only
    rw [ha']
  · unfold execFabricBellArrival
    rw [ht, if_neg (by decide)]
    dsimp only
    rw [ha']
  · unfold execFabricReleaseArrival
    rw [ht, if_neg (by decide)]
    dsimp only
    rw [ha']

/-- What an ACTIVE group does with a chunk that has arrived. -/
theorem chunkArrival_active (ht : takesPkt s l p = true) (ha : activeTree s p.group = some (d, tr)) :
    ((s.group p.group).seen.contains (p.src, p.type, p.seq, p.chunk) = true →
        exec (.collectiveChunkArrival l p) s = .next (chunkAnswer (rxPass s l p) p 0x14)) ∧
      ((s.group p.group).seen.contains (p.src, p.type, p.seq, p.chunk) = false → p.type = 0x10 →
        exec (.collectiveChunkArrival l p) s = .next (match childIdx tr p.src with
          | none => chunkAnswer (rxPass s l p) p 0x0B
          | some i =>
            if stages (s.group p.group) d p.seq p.chunk then
              pump (chunkAnswer ((rxPass s l p).setGroup p.group { s.group p.group with
                seen := (p.src, p.type, p.seq, p.chunk) :: (s.group p.group).seen
                fin := (s.group p.group).fin ++ [(i, ⟨p.group, p.seq, p.chunk, p.flags, p.data, 1⟩)] }) p 0x14) p.group
            else chunkAnswer (rxPass s l p) p 0x0B)) := by
  have ha' : activeTree (rxPass s l p) p.group = some (d, tr) := ha
  have hg : (rxPass s l p).group p.group = s.group p.group := rfl
  refine ⟨fun hseen => (exec_collectiveChunkArrival ..).trans ?_, fun hseen hty => (exec_collectiveChunkArrival ..).trans ?_⟩
  · unfold execCollectiveChunkArrival
    rw [ht, if_neg (by decide)]
    dsimp only
    rw [ha']
    dsimp only
    rw [hg, if_pos hseen]
  · unfold execCollectiveChunkArrival
    rw [ht, if_neg (by decide)]
    dsimp only
    rw [ha']
    dsimp only
    rw [hg, if_neg (by rw [hseen]; exact Bool.false_ne_true), if_neg (by rw [hty]; decide)]
    cases childIdx tr p.src with
    | none => rfl
    | some i =>
      dsimp only
      split
      · rfl
      · rfl

theorem childIdx_only (hc : tr.children = [p.src]) : childIdx tr p.src = some 0 := by
  unfold childIdx
  rw [hc]
  simp [List.range_succ]

theorem childIdx_none (hc : p.src ∉ tr.children) : childIdx tr p.src = none := by
  unfold childIdx
  rw [List.find?_eq_none]
  intro i _ he
  exact hc (List.mem_of_getElem? (of_decide_eq_true he))

theorem bellArrival_gathers (ht : takesPkt s l p = true) (ha : activeTree s p.group = some (d, tr))
    (hc : tr.children = [p.src]) (hb : (s.group p.group).fbells = []) : exec (.fabricBellArrival l p) s =
      .next ((rxPass s l p).setGroup p.group { s.group p.group with fbells := [(0, p.seq)] }) := by
  refine (exec_fabricBellArrival ..).trans ?_
  have ha' : activeTree (rxPass s l p) p.group = some (d, tr) := ha
  have hg : (rxPass s l p).group p.group = s.group p.group := rfl
  unfold execFabricBellArrival
  rw [ht, if_neg (by decide)]
  dsimp only
  rw [ha']
  dsimp only
  rw [childIdx_only hc]
  dsimp only
  rw [hg, hb]
  rfl

theorem releaseArrival_starts (ht : takesPkt s l p = true) (ha : activeTree s p.group = some (d, tr))
    (hp : tr.parent = some p.src) (hc : tr.children = []) : exec (.fabricReleaseArrival l p) s =
      .next (startRelease (rxPass s l p) p.group d p.seq) := by
  refine (exec_fabricReleaseArrival ..).trans ?_
  have ha' : activeTree (rxPass s l p) p.group = some (d, tr) := ha
  unfold execFabricReleaseArrival
  rw [ht, if_neg (by decide)]
  dsimp only
  rw [ha']
  dsimp only
  rw [if_neg (not_not_intro hp), hc]
  rfl

theorem chunkAck_frees {o : FOut} (ht : takesPkt s l p = true)
    (ho : (s.group p.group).fout.find? (outMatch p.src p.seq p.chunk) = some o) : exec (.collectiveChunkAck l p) s =
      .next (pump ((rxPass s l p).setGroup p.group { s.group p.group with
        fout := removeOne o (s.group p.group).fout }) p.group) := by
  refine (exec_collectiveChunkAck ..).trans ?_
  have hg : (rxPass s l p).group p.group = s.group p.group := rfl
  unfold execCollectiveChunkAck
  rw [ht, if_neg (by decide)]
  dsimp only
  rw [hg, ho]

theorem chunkNack_backsOff (ht : takesPkt s l p = true) : exec (.collectiveChunkNack l p) s =
    .next ((rxPass s l p).setGroup p.group { s.group p.group with
      fout := replaceFirst (outMatch p.src p.seq p.chunk) (fun o => { o with backoff := nextBackoff o.backoff })
        (s.group p.group).fout }) := by
  refine (exec_collectiveChunkNack ..).trans ?_
  unfold execCollectiveChunkNack
  rw [ht, if_neg (by decide)]
  rfl

theorem resendTimer_sends {g : Nat} {o : FOut} (ho : (s.group g).fout = [o]) (hd : (s.group g).desc = some d)
    (hs : o.sent = true) (hb : o.backoff ≠ 0) : exec (.chunkResendTimer g o.m.seq o.m.chunk o.dst) s =
      .next (send (s.setGroup g (s.group g)) (collPkt s (fabKind o.kind) o.dst g (if d.prio = 1 then 1 else 2) o.m)) := by
  refine (exec_chunkResendTimer ..).trans ?_
  have hfind : (s.group g).fout.find? (outMatch o.dst o.m.seq o.m.chunk) = some o := by
    rw [ho]
    simp [outMatch, hs]
  have hkeep : replaceFirst (fun x => x = o) (fun x => if x.backoff = 0 then { x with backoff := 1 } else x)
      (s.group g).fout = (s.group g).fout := by
    rw [ho]
    simp [replaceFirst, hb]
  unfold execChunkResendTimer
  dsimp only
  rw [hfind, hd]
  dsimp only
  rw [hkeep, ← hd]
  rfl

/-! ### A sequence that takes too long (R323) -/

/-- The groups and the fabric are as they were. -/
def SameMilFab (s t : State) : Prop := t.mil = s.mil ∧ t.fab = s.fab

theorem SameMilFab.trans {a b c : State} (h : SameMilFab a b) (g : SameMilFab b c) : SameMilFab a c :=
  ⟨g.1.trans h.1, g.2.trans h.2⟩

theorem OnlyLog.milFab {a b : State} (h : OnlyLog a b) : SameMilFab a b :=
  ⟨(congrArg State.mil h :), (congrArg State.fab h :)⟩

theorem sameMilFab_modCore (s : State) (n : Nat) (f : Core → Core) : SameMilFab s (s.modCore n f) := ⟨rfl, rfl⟩

theorem sameMilFab_stopCtx (s : State) (c : Nat) : SameMilFab s (s.stopCtx c) := by
  unfold State.stopCtx
  dsimp only
  split
  · exact ⟨rfl, rfl⟩
  · exact ⟨rfl, rfl⟩

theorem sameMilFab_noteLaunch (s : State) (n : Nat) (f : LFault) : SameMilFab s (noteLaunch s n f) := by
  unfold noteLaunch
  split
  · exact ⟨rfl, rfl⟩
  · exact ⟨rfl, rfl⟩

theorem sameMilFab_pushEvent (s : State) (n e : Nat) : SameMilFab s (pushEvent s n e) := by
  unfold pushEvent
  dsimp only
  split
  · exact ⟨rfl, rfl⟩
  · exact ⟨rfl, rfl⟩

theorem sameMilFab_setThr (s : State) (n t : Nat) (x : Thread) : SameMilFab s (s.setThr n t x) := ⟨rfl, rfl⟩

theorem sameMilFab_monitorFault (s : State) (n cause : Nat) : SameMilFab s (monitorFault s n cause) := by
  unfold monitorFault
  exact SameMilFab.trans (b := s.setCore n _) ⟨rfl, rfl⟩ (onlyLog_ev ..).milFab

theorem sameMilFab_enterFault (s : State) (n t cause status issue stop : Nat) (deferred : Bool) (addr : Word) :
    SameMilFab s (enterFault s n t cause status issue stop deferred addr) := by
  have hstop : SameMilFab s (if status = 0x0401 ∧ t ≠ 0 then s.stopCtx (s.core n).ctx else s) := by
    split
    · exact sameMilFab_stopCtx ..
    · exact ⟨rfl, rfl⟩
  unfold enterFault
  dsimp only
  split
  · exact hstop.trans ((sameMilFab_setThr ..).trans ((sameMilFab_noteLaunch ..).trans (sameMilFab_monitorFault ..)))
  · exact hstop.trans ((sameMilFab_setThr ..).trans ((sameMilFab_noteLaunch ..).trans (sameMilFab_pushEvent ..)))

theorem sameMilFab_takeDeferred (s : State) (n t : Nat) : SameMilFab s (takeDeferred s n t) := by
  unfold takeDeferred
  split
  · exact ⟨rfl, rfl⟩
  · exact SameMilFab.trans (b := State.modThr s n t _) ⟨rfl, rfl⟩ (sameMilFab_enterFault ..)

theorem sameMilFab_failOp (s : State) (n : Nat) (o : AOp) (cause status addr : Nat) :
    SameMilFab s (failOp s n o cause status addr) := by
  unfold failOp
  dsimp only
  split
  · exact (sameMilFab_modCore ..).trans ((sameMilFab_modCore ..).trans (sameMilFab_takeDeferred ..))
  · exact sameMilFab_modCore ..

theorem sameMilFab_foldl {α : Type} {f : State → α → State} (hf : ∀ s x, SameMilFab s (f s x)) (xs : List α) :
    ∀ s : State, SameMilFab s (xs.foldl f s) := by
  induction xs with
  | nil => exact fun _ => ⟨rfl, rfl⟩
  | cons x xs ih => exact fun s => (hf s x).trans (ih _)

theorem SameMilFab.group {a b : State} (h : SameMilFab a b) (g : Nat) : b.group g = a.group g := by
  unfold State.group; rw [h.1]

/-- A thread that waits on a group's count fails. -/
def failWait (cause status : Nat) (s : State) (w : MWait) : State :=
  let s := s.modThr w.member w.thread fun th => noteDeferred th w.op cause status w.pc 0
  if endedByFault (s.thr w.member w.thread) then takeDeferred s w.member w.thread else s

/-- The operations and threads that wait on a group fail. -/
def waitsFailed (s : State) (g cause status : Nat) : State :=
  let u := (groupThreads s g).foldl (fun s e => failOp s e.1 e.2 cause status 0) s
  (u.group g).waits.foldl (failWait cause status) u

theorem failWaits_eq (s : State) (g cause status : Nat) : failWaits s g cause status =
    (waitsFailed s g cause status).setGroup g { (waitsFailed s g cause status).group g with waits := [] } := rfl

theorem sameMilFab_failWait (cause status : Nat) (s : State) (w : MWait) : SameMilFab s (failWait cause status s w) := by
  have hnote : SameMilFab s (s.modThr w.member w.thread fun th => noteDeferred th w.op cause status w.pc 0) := ⟨rfl, rfl⟩
  unfold failWait
  dsimp only
  split
  · exact hnote.trans (sameMilFab_takeDeferred ..)
  · exact hnote

theorem sameMilFab_waitsFailed (s : State) (g cause status : Nat) : SameMilFab s (waitsFailed s g cause status) := by
  unfold waitsFailed
  have hops := sameMilFab_foldl (fun s (e : Nat × AOp) => sameMilFab_failOp s e.1 e.2 cause status 0) (groupThreads s g) s
  exact hops.trans (sameMilFab_foldl (sameMilFab_failWait cause status) _ _)

/-- Threads that wait on a group fail: of the groups only its waits are gone. -/
theorem failWaits_leaves (s : State) (g cause status : Nat) :
    (failWaits s g cause status).group g = { s.group g with waits := [] } ∧
      (failWaits s g cause status).fab = s.fab := by
  have hall := sameMilFab_waitsFailed s g cause status
  rw [failWaits_eq]
  refine ⟨(State.group_setGroup_same ..).trans ?_, hall.2⟩
  rw [hall.group]

theorem collectiveTimeout_faults {g dst : Nat} {o : FOut} (ha : activeTree s g = some (d, tr)) (hto : tr.timeout ≠ 0)
    (hc : tr.children = [dst]) (hp : tr.parent = none) (ho : (s.group g).fout = [o]) (hs : o.sent = true)
    (hdst : o.dst = dst) : exec (.collectiveTimeout g) s = .next (breakGroup
      { s with fab := { s.fab with collSts := tset (0, 0, 0) s.fab.collSts g (0x0403, 1, o.m.seq) } } g 0x0403 1) := by
  refine (exec_collectiveTimeout ..).trans ?_
  have hfind : (s.group g).fout.find? (·.sent) = some o := by rw [ho]; simp [hs]
  have hlate : (s.group g).fout.filter (fun x => x.m.seq = o.m.seq) = [o] := by rw [ho]; simp
  unfold execCollectiveTimeout
  dsimp only
  rw [ha, hfind]
  dsimp only
  rw [if_neg hto, hlate, hc, hp]
  have hbits : (List.range [dst].length).filter (fun i => [o].any fun x => [dst][i]? = some x.dst) = [0] := by
    simp [hdst, List.range_succ]
  rw [hbits]
  simp

/-- A group that has gone FAULTED. -/
def faultedGroup (g : Group) (status : Nat) : Group :=
  { g with
    state := 3, status := status, up := [], bells := [], down := [], dep := [], depWait := none,
    depLinks := [], depZlr := [], own := [], fin := [], fbells := [], fout := [] }

/-- An event is logged while no command waits for a Bell. -/
theorem sameMilFab_bellCheck (hk : s.host.parked = []) (code fb block inst ctx : Nat) (d0 d1 : Word) (g : Nat) :
    SameMilFab s (bellCheck (logEvent s code fb block inst ctx d0 d1) g) := by
  have hlog := onlyLog_logEvent s code fb block inst ctx d0 d1
  have hparked : (logEvent s code fb block inst ctx d0 d1).host.parked = [] :=
    (congrArg (fun u : State => u.host.parked) hlog :).trans hk
  rw [bellCheck_nothing fun e he => absurd (hparked ▸ he) List.not_mem_nil]
  exact hlog.milFab

/-- The chunks of a FAULTED group are gone. -/
def emptied (s : State) (g : Nat) : State :=
  { s with mil := { s.mil with flight := s.mil.flight.filter fun f => f.m.group ≠ g } }

theorem faultGroup_eq {g status missing : Nat} (hs : (s.group g).state = 1) : ∃ fb inst d1, faultGroup s g status missing =
    bellCheck (logEvent (emptied (s.setGroup g (faultedGroup (s.group g) status)) g) 0x0410 fb 0x0B inst (s.group g).ctx
      (BitVec.ofNat 64 g) d1) g := by
  unfold faultGroup
  dsimp only
  rw [if_neg (not_not_intro hs)]
  exact ⟨_, _, _, rfl⟩

theorem faultGroup_leaves {g status missing : Nat} (hs : (s.group g).state = 1) (hk : s.host.parked = []) :
    (faultGroup s g status missing).group g = faultedGroup (s.group g) status ∧
      (faultGroup s g status missing).fab = s.fab := by
  obtain ⟨fb, inst, d1, he⟩ := faultGroup_eq (status := status) (missing := missing) hs
  have hsame := sameMilFab_bellCheck (s := emptied (s.setGroup g (faultedGroup (s.group g) status)) g) hk
    0x0410 fb 0x0B inst (s.group g).ctx (BitVec.ofNat 64 g) d1 g
  rw [he]
  exact ⟨(hsame.group g).trans (State.group_setGroup_same s g (faultedGroup (s.group g) status)), hsame.2⟩

theorem breakGroup_leaves {g status missing : Nat} (hs : (s.group g).state = 1) (hk : s.host.parked = []) :
    ((breakGroup s g status missing).group g).state = 3 ∧ ((breakGroup s g status missing).group g).status = status ∧
      ((breakGroup s g status missing).group g).waits = [] ∧ (breakGroup s g status missing).fab = s.fab := by
  obtain ⟨hgroup, hfab⟩ := failWaits_leaves (faultGroup s g status missing) g (groupCause status)
    (if groupCause status = cILLEGAL then 0 else status)
  obtain ⟨hfault, hsame⟩ := faultGroup_leaves (status := status) (missing := missing) hs hk
  unfold breakGroup
  dsimp only
  rw [hgroup, hfab, hfault]
  exact ⟨rfl, rfl, rfl, hsame⟩

theorem activeTree_state {g : Nat} (ha : activeTree s g = some (d, tr)) : (s.group g).state = 1 := by
  unfold activeTree at ha
  dsimp only at ha
  split at ha
  · next h => exact h
  · exact nomatch ha

end

/-- Settles O59: packets of other modules are served, answered, passed on or dropped, and the chunks, Bells and timers of
collectives between modules do what their group's state says. -/
theorem fabricTraffic : Obligations.FabricTraffic := by
  unfold Obligations.FabricTraffic
  refine ⟨fun l id e p r o bs s s1 => ⟨fun hv => arrivals_otherVersion hv, fun ht => ⟨fun hd hty ha he hm => ?_,
    fun hd hty hp ha he hk hm => ?_, fun hd hty hp => ?_, fun hd hty hreqs htag hsrc hdead hlen hbad haops hid hst hk => ?_,
    fun hd hr => arrival_untagged ht hd hr, fun hd hr => errorPacket_fails ht hd hr,
    fun hd hty => forward_raw ht hd hty, fun hd hty hf hr => ⟨forward_goes ht hd hty hf hr, forward_waits ht hd hty hf hr⟩,
    rawArrival_waits ht⟩, routeWaitTimeout_drops, e2eTimeout_fails⟩,
    fun l g dst p d tr o s ht => ⟨chunkArrival_inactive ht, fun ha => ⟨(chunkArrival_active ht ha).1,
      fun hseen hty hc hst => ?_, fun hseen hty hc => ?_, bellArrival_gathers ht ha, releaseArrival_starts ht ha⟩,
      chunkAck_frees ht, chunkNack_backsOff ht, resendTimer_sends,
      fun ha hto hc hp ho hs hdst hk => ?_⟩⟩
  · rw [requestArrival_serves ht hd (.inr hty), serveRequest_read hty ha he hm]
    rfl
  · rw [requestArrival_serves ht hd (.inl hty), serveRequest_write hty hp ha he hk hm]
    rfl
  · rw [requestArrival_serves ht hd (.inl hty), serveRequest_refused hty hp]
    rfl
  · have hr : reqOf s p.tag = some r := by
      unfold reqOf
      rw [hreqs]
      simp [htag]
    obtain ⟨hnone, hops, hcount, hls⟩ :=
      answered_counts (s := rxPass s l p) (data := p.data) hreqs hbad haops hid hst hk
    refine ⟨_, responseArrival_data ht hd hty hr hsrc hdead hlen, hnone, hops, hcount, fun i hi => ?_, fun b hb => ?_⟩
    · rw [hls, Memory.read_writeN, if_pos ⟨Nat.le_add_right .., by omega⟩, Nat.add_sub_cancel_left,
        List.getD_eq_getElem?_getD]
      rfl
    · rw [hls, Memory.read_writeN_out (by omega)]
      rfl
  · rw [(chunkArrival_active ht ha).2 hseen hty, childIdx_only hc]
    exact congrArg Host.Outcome.next (if_pos hst)
  · rw [(chunkArrival_active ht ha).2 hseen hty, childIdx_none hc]
  · obtain ⟨hstate, hstatus, hwaits, hfab⟩ := breakGroup_leaves (status := 0x0403) (missing := 1)
      (s := { s with fab := { s.fab with collSts := tset (0, 0, 0) s.fab.collSts g (0x0403, 1, o.m.seq) } })
      (activeTree_state (s := s) ha) hk
    refine ⟨_, collectiveTimeout_faults ha hto hc hp ho hs hdst, hstate, hstatus, hwaits, ?_⟩
    rw [hfab]
    exact tget_tset_same (0, 0, 0) s.fab.collSts g ((0x0403, 1, o.m.seq) : Nat × BitVec 13 × W32)

end Sys2Proof.Machine
end

section
/-! Resets, retrains and timeouts of PCIe links, for O47. -/

namespace Sys2Proof.Machine

variable {s t : State} {l : Nat}

/-! ### Tables -/

theorem tget_of_not_mem {α : Type} {d : α} (tb : Tbl α) {k : Nat} (h : k ∉ tkeys tb) : tget d tb k = d := by
  induction tb with
  | nil => rfl
  | cons e tb ih =>
    obtain ⟨i, x⟩ := e
    simp only [tkeys, List.map_cons, List.mem_cons, not_or] at h
    rw [tget, if_neg h.1]
    exact ih h.2

section
variable {α : Type} [DecidableEq α] {d : α}

/-- Values changed key by key, once or more. -/
theorem tget_foldl_tmod {f : α → α} (hf : ∀ x, f (f x) = f x) (ks : List Nat) : ∀ (tb : Tbl α) (k : Nat),
    tget d (ks.foldl (fun tb k => tmod d tb k f) tb) k = if k ∈ ks then f (tget d tb k) else tget d tb k := by
  induction ks with
  | nil => exact fun _ _ => (if_neg List.not_mem_nil).symm
  | cons i ks ih =>
    intro tb k
    rw [List.foldl_cons, ih, tget_tmod]
    by_cases hk : k = i
    · subst hk
      rw [if_pos rfl, if_pos List.mem_cons_self, hf, ite_self]
    · rw [if_neg hk]
      simp only [List.mem_cons, hk, false_or]

/-- Values of every listed key changed, by a change that leaves the default. -/
theorem tget_foldl_keys {f : α → α} (hf : ∀ x, f (f x) = f x) (hd : f d = d) (tb : Tbl α) (k : Nat) :
    tget d ((tkeys tb).foldl (fun tb k => tmod d tb k f) tb) k = f (tget d tb k) := by
  rw [tget_foldl_tmod hf]
  split
  · rfl
  · next hk => rw [tget_of_not_mem tb hk, hd]

end

/-! ### A link is cut off (R255, R256) -/

/-- Whether an access that is held goes to link `l`. -/
def toLink (l : Nat) (h : XHeld) : Bool := h.ts.any fun p => match p.1 with
  | .host j _ => j = l
  | .dev _ => false

/-- Accesses that are held at link `l` are given up. -/
def dropHeld (s : State) (l : Nat) : State :=
  { s with xlt := { s.xlt with atHome := s.xlt.atHome.filter fun h => !toLink l h } }

/-- Where no invalidation waits for the link, its loss gives up the accesses that are held at it. -/
theorem cutLink_eq (h : ZWho.inval ∉ (s.link l).zlr) : cutLink s l = (dropHeld s l).setLink l (s.link l) := by
  have hnone : (s.link l).zlr.filter (fun w => w == .inval) = [] := by
    rw [List.filter_eq_nil_iff]
    intro w hw he
    exact h (eq_of_beq he ▸ hw)
  have hall : (s.link l).zlr.filter (fun w => w != .inval) = (s.link l).zlr := by
    rw [List.filter_eq_self]
    intro w hw
    exact bne_iff_ne.mpr fun he => h (he ▸ hw)
  have hbody : cutLink s l = (List.replicate ((s.link l).zlr.filter (fun w => w == .inval)).length ZWho.inval).foldl
      (fun s w => zlrDone s l w)
      ((dropHeld s l).setLink l { s.link l with zlr := (s.link l).zlr.filter fun w => w != .inval }) := rfl
  rw [hbody, hnone, hall]
  rfl

/-- A link whose use has ended. -/
def lostLink (s : State) (l : Nat) (rst : Bool) : Link :=
  { s.link l with
    up := false, retraining := false, speed := 0, width := 0, busMaster := false
    loss := if running s then max 1 (s.link l).loss else 0
    lossReset := rst || ((s.link l).lossReset && decide (0 < (s.link l).loss)) }

theorem onlyLinksXlt_setLink (s : State) (l : Nat) (k : Link) : OnlyLinksXlt s (s.setLink l k) := ⟨rfl, rfl⟩

theorem onlyLinksXlt_dropHeld (s : State) (l : Nat) : OnlyLinksXlt s (dropHeld s l) := ⟨rfl, rfl⟩

/-- A link has become `k`, and what was held at it is given up. -/
def cutOff (s : State) (l : Nat) (k : Link) : State := (dropHeld (s.setLink l k) l).setLink l k

theorem onlyLinksXlt_cutOff (s : State) (l : Nat) (k : Link) : OnlyLinksXlt s (cutOff s l k) :=
  (onlyLinksXlt_setLink s l k).trans ((onlyLinksXlt_dropHeld (s.setLink l k) l).trans
    (onlyLinksXlt_setLink (dropHeld (s.setLink l k) l) l k))

theorem link_cutOff (s : State) (l : Nat) (k : Link) (j : Nat) : (cutOff s l k).link j = if j = l then k else s.link j := by
  unfold cutOff
  rw [State.link_setLink]
  split
  · rfl
  · next h => exact (State.link_setLink s l j k).trans (if_neg h)

theorem xlt_cutOff (s : State) (l : Nat) (k : Link) :
    (cutOff s l k).xlt = { s.xlt with atHome := s.xlt.atHome.filter fun h => !toLink l h } := rfl

theorem loseLink_keep (h : ZWho.inval ∉ (s.link l).zlr) :
    loseLink s l false = cutOff s l (lostLink s l false) := by
  have hl : (s.setLink l (lostLink s l false)).link l = lostLink s l false := State.link_setLink_same ..
  have hbody : loseLink s l false = cutLink (s.setLink l (lostLink s l false)) l := rfl
  rw [hbody, cutLink_eq (by rw [hl]; exact h), hl]
  rfl

/-- A link that a retrain's or a read's timeout has cut off. -/
structure LinkLost (s t : State) (l : Nat) : Prop where
  link : t.link l = lostLink s l false
  links : ∀ j, j ≠ l → t.link j = s.link j
  rest : { t with host := s.host, xlt := s.xlt } = s
  host : { t.host with links := s.host.links } = s.host
  xlt : t.xlt = { s.xlt with atHome := s.xlt.atHome.filter fun h => !toLink l h }

theorem linkLost_loseLink (h : ZWho.inval ∉ (s.link l).zlr) : LinkLost s (loseLink s l false) l := by
  rw [loseLink_keep h]
  obtain ⟨hrest, hhost⟩ := onlyLinksXlt_cutOff s l (lostLink s l false)
  exact ⟨(link_cutOff ..).trans (if_pos rfl), fun j hj => (link_cutOff ..).trans (if_neg hj), hrest, hhost, xlt_cutOff ..⟩

/-! ### Rings stop -/

/-- A ring that has stopped. -/
def stoppedRing (r : Ring) : Ring := { r with enable := false, window := false }

/-- Where nothing from outside is held, nothing goes on. -/
theorem replayParked_nothing (hp : s.dram.parked = []) : replayParked bar2Do s = s := by
  unfold replayParked
  rw [hp]
  show { s with dram := { s.dram with parked := [] } } = s
  rw [← hp]

theorem stopRing_eq (hp : s.dram.parked = []) (r : Nat) : stopRing s r = s.setRing r (stoppedRing (s.ring r)) := by
  have hkeep (u : State) (hu : u.dram.parked = []) : ({ u with dram := { u.dram with parked := [] } } : State) = u := by
    rw [← hu]
  unfold stopRing
  dsimp only
  rw [show ∀ x, (s.setRing r x).dram.parked = [] from fun _ => hp, hp, List.filter_nil, List.filter_nil, List.foldl_nil]
  have hu := hkeep (s.setRing r (stoppedRing (s.ring r))) hp
  split
  · exact (congrArg (replayParked bar2Do) hu).trans
      (replayParked_nothing (s := s.setRing r (stoppedRing (s.ring r))) hp)
  · exact hu

/-- A ring that uses link `l` in host memory. -/
def hostRing (l : Nat) (r : Ring) : Bool := !r.loc && r.link = l

/-- Rings that have stopped, or are as they were. -/
structure RingsStopped (l : Nat) (ks : List Nat) (s t : State) : Prop where
  rest : { t with host := s.host } = s
  host : { t.host with rings := s.host.rings } = s.host
  same : ∀ r, (t.ring r).loc = (s.ring r).loc ∧ (t.ring r).link = (s.ring r).link
  off : ∀ r, (s.ring r).enable = false → (t.ring r).enable = false
  stops : ∀ r ∈ ks, hostRing l (s.ring r) = true → (t.ring r).enable = false

theorem ringsStopped_foldl (l : Nat) (ks : List Nat) : ∀ s : State, s.dram.parked = [] →
    RingsStopped l ks s (ks.foldl (fun s r => if hostRing l (s.ring r) then stopRing s r else s) s) := by
  induction ks with
  | nil => exact fun s _ => ⟨rfl, rfl, fun _ => ⟨rfl, rfl⟩, fun _ h => h, fun r hr => absurd hr List.not_mem_nil⟩
  | cons k ks ih =>
    intro s hp
    rw [List.foldl_cons]
    by_cases hk : hostRing l (s.ring k) = true
    · rw [if_pos hk, stopRing_eq hp]
      have hring (r : Nat) : (s.setRing k (stoppedRing (s.ring k))).ring r =
          if r = k then stoppedRing (s.ring k) else s.ring r := State.ring_setRing ..
      have hsame (r : Nat) : ((s.setRing k (stoppedRing (s.ring k))).ring r).loc = (s.ring r).loc ∧
          ((s.setRing k (stoppedRing (s.ring k))).ring r).link = (s.ring r).link := by
        rw [hring]
        split
        · next h => rw [h]; exact ⟨rfl, rfl⟩
        · exact ⟨rfl, rfl⟩
      obtain ⟨hrest, hhost, hs, hoff, hstop⟩ := ih (s.setRing k (stoppedRing (s.ring k))) hp
      have hk0 : ((s.setRing k (stoppedRing (s.ring k))).ring k).enable = false := by rw [hring, if_pos rfl]; rfl
      refine ⟨?_, ?_, fun r => ⟨(hs r).1.trans (hsame r).1, (hs r).2.trans (hsame r).2⟩, fun r hr => hoff r ?_,
        fun r hr hhr => ?_⟩
      · exact (congrArg (fun u : State => { u with host := s.host }) hrest :)
      · exact (congrArg (fun u : Host_ => { u with rings := s.host.rings }) hhost :)
      · rw [hring]
        split
        · rfl
        · exact hr
      · by_cases hrk : r = k
        · rw [hrk]; exact hoff k hk0
        · refine hstop r ((List.mem_cons.mp hr).resolve_left hrk) ?_
          rw [hring, if_neg hrk]
          exact hhr
    · rw [if_neg hk]
      obtain ⟨hrest, hhost, hs, hoff, hstop⟩ := ih s hp
      refine ⟨hrest, hhost, hs, hoff, fun r hr hhr => ?_⟩
      rcases List.mem_cons.mp hr with rfl | hr
      · exact absurd hhr hk
      · exact hstop r hr hhr

/-! ### What a reset clears (R226, R256, R416) -/

/-- A completion ring that link `l` has lost. -/
def lostCq (l : Nat) (q : CqRing) : CqRing := if !q.loc && q.link = l then { q with enable := false } else q

/-- The completion rings after the loss of link `l`. -/
def lostCqs (l : Nat) (t : Tbl CqRing) : Tbl CqRing := (tkeys t).foldl (fun t r => tmod {} t r (lostCq l)) t

theorem dropHostRings_eq (s : State) (l : Nat) : dropHostRings s l =
    let u := (tkeys s.host.rings).foldl (fun s r => if hostRing l (s.ring r) then stopRing s r else s) s
    { u with host := { u.host with cqs := lostCqs l u.host.cqs } } := rfl

theorem lostCq_twice (l : Nat) (q : CqRing) : lostCq l (lostCq l q) = lostCq l q := by
  unfold lostCq
  split
  · rfl
  · rfl

theorem lostCq_default (l : Nat) : lostCq l {} = {} := by
  unfold lostCq
  split
  · rfl
  · rfl

/-- The rings in host memory that use link `l` have stopped, with their completion rings. -/
structure RingsDropped (l : Nat) (s t : State) : Prop where
  rest : { t with host := s.host } = s
  links : t.host.links = s.host.links
  ring : ∀ r, (t.ring r).loc = (s.ring r).loc ∧ (t.ring r).link = (s.ring r).link
  ringOff : ∀ r, (s.ring r).enable = false → (t.ring r).enable = false
  ringStops : ∀ r, (s.ring r).loc = false → (s.ring r).link = l → (t.ring r).enable = false
  cq : ∀ q, t.cq q = lostCq l (s.cq q)

theorem ringsDropped_dropHostRings (hp : s.dram.parked = []) (l : Nat) : RingsDropped l s (dropHostRings s l) := by
  obtain ⟨hrest, hhost, hsame, hoff, hstop⟩ := ringsStopped_foldl l (tkeys s.host.rings) s hp
  rw [dropHostRings_eq]
  refine ⟨(congrArg (fun u : State => { u with host := s.host }) hrest :), (congrArg Host_.links hhost :), hsame, hoff,
    fun r hloc hlink => ?_, fun q => ?_⟩
  · by_cases hr : r ∈ tkeys s.host.rings
    · exact hstop r hr (Bool.and_eq_true_iff.mpr ⟨by rw [hloc]; rfl, decide_eq_true hlink⟩)
    · exact hoff r (congrArg Ring.enable (tget_of_not_mem s.host.rings hr))
  · refine (tget_foldl_keys (lostCq_twice l) (lostCq_default l) _ q).trans (congrArg (lostCq l) ?_)
    exact congrArg (fun x : Host_ => tget {} x.cqs q) hhost

/-! ### The rings of events and faults, and translations to host memory -/

theorem resetRings_seg (s : State) (c i : Nat) : (resetRings s).seg c i = s.seg c i := rfl

/-- Translations that stay when a link is reset. -/
def devEnt (s : State) (e : XEnt) : Bool := match s.seg e.key.ctx e.key.seg with
  | some d => d.kind = 0
  | none => true

/-- Of a reset link's translations the DEVICE kind alone stays. -/
theorem resetRings_l2 (s : State) (j : Nat) :
    tget none (resetRings s).xlt.l2 j = (tget none s.xlt.l2 j).filter (devEnt s) := by
  refine tget_foldl_keys (f := fun e : Option XEnt => e.filter (devEnt s)) (fun e => ?_) rfl s.xlt.l2 j
  cases e with
  | none => rfl
  | some x =>
    cases hx : devEnt s x with
    | false => simp [Option.filter, hx]
    | true => simp [Option.filter, hx]


/-! ### PERST#, hot resets and FLRs (R228, R256) -/

/-- A link that has been reset. -/
def resetLink (s : State) (l : Nat) : Link :=
  { lostLink s l true with winBase := [], winLimit := [], winPending := [], rid := 0, ridMask := 0, msix := [], pend := [] }

theorem loseLink_reset (h : ZWho.inval ∉ (s.link l).zlr) :
    loseLink s l true = dropHostRings (resetRings (cutOff s l (resetLink s l))) l := by
  have hl : (s.setLink l (resetLink s l)).link l = resetLink s l := State.link_setLink_same ..
  have hbody : loseLink s l true = dropHostRings (resetRings (cutLink (s.setLink l (resetLink s l)) l)) l := by
    unfold loseLink
    exact if_pos rfl
  rw [hbody, cutLink_eq (by rw [hl]; exact h), hl]
  rfl

/-- A link that PERST#, a hot reset or an FLR has cut off. -/
structure LinkReset (l : Nat) (s t : State) : Prop where
  link : t.link l = resetLink s l
  links : ∀ j, j ≠ l → t.link j = s.link j
  rest : { t with host := s.host, evt := s.evt, xlt := s.xlt } = s
  ring : ∀ r, (t.ring r).loc = (s.ring r).loc ∧ (t.ring r).link = (s.ring r).link
  ringOff : ∀ r, (s.ring r).enable = false → (t.ring r).enable = false
  ringStops : ∀ r, (s.ring r).loc = false → (s.ring r).link = l → (t.ring r).enable = false
  cq : ∀ q, t.cq q = lostCq l (s.cq q)
  evt : t.evt.ring.enable = false ∧ t.evt.ring.base = 0
  faults : t.xlt.ring.enable = false ∧ t.xlt.ring.base = 0
  seg : ∀ c i, t.seg c i = s.seg c i
  l2 : ∀ j, tget none t.xlt.l2 j = (tget none s.xlt.l2 j).filter (devEnt s)

theorem resetRings_rest (s : State) : { resetRings s with evt := s.evt, xlt := s.xlt } = s := rfl

theorem linkReset_loseLink (hp : s.dram.parked = []) (h : ZWho.inval ∉ (s.link l).zlr) :
    LinkReset l s (loseLink s l true) := by
  rw [loseLink_reset h]
  have hlink := link_cutOff s l (resetLink s l)
  have hxlt := xlt_cutOff s l (resetLink s l)
  obtain ⟨hcut, hhost⟩ := onlyLinksXlt_cutOff s l (resetLink s l)
  generalize cutOff s l (resetLink s l) = u at *
  have hpark : (resetRings u).dram.parked = [] := (congrArg (fun x : State => x.dram.parked) hcut).trans hp
  obtain ⟨hrest, hlinks, hring, hoff, hstop, hcq⟩ := ringsDropped_dropHostRings hpark l
  generalize dropHostRings (resetRings u) l = t at *
  have hevt : t.evt = (resetRings u).evt := (congrArg State.evt hrest :)
  have hx : t.xlt = (resetRings u).xlt := (congrArg State.xlt hrest :)
  have hrings (r : Nat) : (resetRings u).ring r = s.ring r := (congrArg (fun x : Host_ => tget {} x.rings r) hhost :)
  have hcqs (q : Nat) : (resetRings u).cq q = s.cq q := (congrArg (fun x : Host_ => tget {} x.cqs q) hhost :)
  have hlk (j : Nat) : t.link j = u.link j := (congrArg (fun x : Tbl Link => tget {} x j) hlinks :)
  have hsegU (c i : Nat) : u.seg c i = s.seg c i := (congrArg (fun x : Xlt => (({ s with xlt := x } : State).seg c i)) hxlt :)
  have hseg (c i : Nat) : t.seg c i = s.seg c i :=
    (congrArg (fun x : Xlt => (({ s with xlt := x } : State).seg c i)) hx :).trans (hsegU c i)
  refine ⟨(hlk l).trans ((hlink l).trans (if_pos rfl)), fun j hj => (hlk j).trans ((hlink j).trans (if_neg hj)), ?_,
    fun r => ?_, fun r hr => hoff r ?_, fun r hloc hl => hstop r ?_ ?_, fun q => ?_, ?_, ?_, hseg, fun j => ?_⟩
  · have hreset : { t with host := s.host, evt := s.evt, xlt := s.xlt } =
        { u with host := s.host, evt := s.evt, xlt := s.xlt } :=
      (congrArg (fun x : State => { x with host := s.host, evt := s.evt, xlt := s.xlt }) hrest :)
    exact hreset.trans (congrArg (fun x : State => { x with evt := s.evt }) hcut :)
  · rw [← hrings r]; exact hring r
  · rw [hrings r]; exact hr
  · rw [hrings r]; exact hloc
  · rw [hrings r]; exact hl
  · rw [hcq, hcqs]
  · rw [hevt]; exact ⟨rfl, rfl⟩
  · rw [hx]; exact ⟨rfl, rfl⟩
  · rw [hx, resetRings_l2, hxlt]
    have hdev : devEnt u = devEnt s := funext fun e => by unfold devEnt; rw [hsegU]
    rw [hdev]

/-- What a reset leaves of a link; work runs that a host loss acts on, or not. -/
def resetOf (run : Bool) (k : Link) : Link :=
  { k with
    up := false, retraining := false, speed := 0, width := 0, busMaster := false
    loss := if run then max 1 k.loss else 0, lossReset := true
    winBase := [], winLimit := [], winPending := [], rid := 0, ridMask := 0, msix := [], pend := [] }

theorem resetLink_eq (s : State) (l : Nat) : resetLink s l = resetOf (running s) (s.link l) := rfl

/-- The registers of a link that has been reset, and the rings that it served. -/
theorem reset_of_link {k : Link} (h : t.link l = resetOf (running s) k) (hk : k.loss = (s.link l).loss)
    (hr : ∀ r, (s.ring r).loc = false → (s.ring r).link = l → (t.ring r).enable = false)
    (hq : ∀ q, (s.cq q).loc = false → (s.cq q).link = l → (t.cq q).enable = false) :
    (t.link l).up = false ∧ (t.link l).retraining = false ∧ (t.link l).busMaster = false ∧ (t.link l).winBase = [] ∧
      (t.link l).winLimit = [] ∧ (t.link l).rid = 0 ∧ (t.link l).ridMask = 0 ∧ (t.link l).msix = [] ∧
      (t.link l).pend = [] ∧ (t.link l).loss = (if running s then max 1 (s.link l).loss else 0) ∧
      (t.link l).lossReset = true ∧
      (∀ r, (s.ring r).loc = false → (s.ring r).link = l → (t.ring r).enable = false) ∧
      ∀ q, (s.cq q).loc = false → (s.cq q).link = l → (t.cq q).enable = false := by
  rw [h, ← hk]
  exact ⟨rfl, rfl, rfl, rfl, rfl, rfl, rfl, rfl, rfl, rfl, rfl, hr, hq⟩

theorem lostCq_off {q : CqRing} (hloc : q.loc = false) (hlink : q.link = l) : (lostCq l q).enable = false := by
  unfold lostCq
  rw [hloc, hlink, if_pos (by simp)]

theorem lostCq_keeps (l : Nat) (q : CqRing) : (lostCq l q).loc = q.loc ∧ (lostCq l q).link = q.link ∧
    (q.enable = false → (lostCq l q).enable = false) := by
  unfold lostCq
  split
  · exact ⟨rfl, rfl, fun _ => rfl⟩
  · exact ⟨rfl, rfl, id⟩

/-- The event and fault rings are cleared, with the translations to host memory. -/
theorem LinkReset.rings (h : LinkReset l s t) : t.evt.ring.enable = false ∧ t.evt.ring.base = 0 ∧
    t.xlt.ring.enable = false ∧ t.xlt.ring.base = 0 ∧ { t with host := s.host, evt := s.evt, xlt := s.xlt } = s ∧
    ∀ j x d, tget none t.xlt.l2 j = some x → t.seg x.key.ctx x.key.seg = some d → d.kind = 0 := by
  refine ⟨h.evt.1, h.evt.2, h.faults.1, h.faults.2, h.rest, fun j x d hx hd => ?_⟩
  rw [h.l2] at hx
  have hdev : devEnt s x = true := by
    cases he : tget none s.xlt.l2 j with
    | none => rw [he] at hx; exact nomatch hx
    | some y =>
      rw [he] at hx
      obtain ⟨rfl, hy⟩ := Option.filter_eq_some_iff.mp hx |>.imp_left fun h => Option.some.inj h
      exact hy
  unfold devEnt at hdev
  rw [← h.seg, hd] at hdev
  exact of_decide_eq_true hdev

theorem LinkReset.reset (h : LinkReset l s t) :
    (t.link l).up = false ∧ (t.link l).retraining = false ∧ (t.link l).busMaster = false ∧ (t.link l).winBase = [] ∧
      (t.link l).winLimit = [] ∧ (t.link l).rid = 0 ∧ (t.link l).ridMask = 0 ∧ (t.link l).msix = [] ∧
      (t.link l).pend = [] ∧ (t.link l).loss = (if running s then max 1 (s.link l).loss else 0) ∧
      (t.link l).lossReset = true ∧
      (∀ r, (s.ring r).loc = false → (s.ring r).link = l → (t.ring r).enable = false) ∧
      ∀ q, (s.cq q).loc = false → (s.cq q).link = l → (t.cq q).enable = false :=
  reset_of_link (h.link.trans (resetLink_eq s l)) rfl h.ringStops fun q hloc hlink => by
    rw [h.cq]; exact lostCq_off hloc hlink

theorem hotReset_resets (hl : l < 4) (hk : (s.link l).up = true ∨ (s.link l).retraining = true) :
    exec (.hotReset l) s = .next (loseLink s l true) ∧ exec (.flr l) s = .next (loseLink s l true) := by
  have ht : trained s l = true := by
    unfold trained
    rw [Bool.and_eq_true, Bool.or_eq_true]
    exact ⟨decide_eq_true hl, hk⟩
  exact ⟨(exec_hotReset ..).trans (if_pos ht), (exec_flr ..).trans (if_pos ht)⟩

/-- A link whose port is in reset. -/
def perstOn (s : State) (l : Nat) : State := s.setLink l { s.link l with perst := true }

/-- A port's reset reaches one of its links. -/
def perstStep (s : State) (l : Nat) : State := if (s.link l).perst then s else loseLink (perstOn s l) l true

theorem perstStep_resets (h : (s.link l).perst = false) : perstStep s l = loseLink (perstOn s l) l true :=
  if_neg (by rw [h]; decide)

theorem perstAssert_resets {port : Nat} (h1 : (s.link port).perst = false)
    (h2 : ((loseLink (perstOn s port) port true).link (port + 2)).perst = false) : exec (.perstAssert port) s =
      .next (loseLink (perstOn (loseLink (perstOn s port) port true) (port + 2)) (port + 2) true) := by
  have he : exec (.perstAssert port) s = .next ((portLinks port).foldl perstStep s) := exec_perstAssert ..
  rw [he, portLinks, List.foldl_cons, List.foldl_cons, List.foldl_nil, perstStep_resets h1, perstStep_resets h2]

theorem link_perstOn (s : State) (l j : Nat) :
    (perstOn s l).link j = if j = l then { s.link l with perst := true } else s.link j := State.link_setLink ..

theorem perstAssert_gives {port : Nat} (hp : s.dram.parked = []) (hn : ∀ j, ZWho.inval ∉ (s.link j).zlr)
    (h1 : (s.link port).perst = false) (h2 : (s.link (port + 2)).perst = false) :
    ∃ t1 t2, exec (.perstAssert port) s = .next t2 ∧ LinkReset port (perstOn s port) t1 ∧
      LinkReset (port + 2) (perstOn t1 (port + 2)) t2 := by
  have hzlr (j : Nat) : ZWho.inval ∉ ((perstOn s port).link j).zlr := by
    rw [link_perstOn]
    split
    · exact hn port
    · exact hn j
  have hparked : (perstOn s port).dram.parked = [] := hp
  have hr1 : LinkReset port (perstOn s port) (loseLink (perstOn s port) port true) := linkReset_loseLink hparked (hzlr port)
  have he := perstAssert_resets (s := s) (port := port) h1
  generalize loseLink (perstOn s port) port true = t1 at *
  have hother : t1.link (port + 2) = s.link (port + 2) :=
    (hr1.links _ (by omega)).trans ((link_perstOn ..).trans (if_neg (by omega)))
  have hpark : (perstOn t1 (port + 2)).dram.parked = [] :=
    (congrArg (fun x : State => x.dram.parked) hr1.rest :).trans hparked
  have hzlr2 : ZWho.inval ∉ ((perstOn t1 (port + 2)).link (port + 2)).zlr := by
    rw [link_perstOn, if_pos rfl, hother]
    exact hn _
  exact ⟨t1, _, he (by rw [hother]; exact h2), hr1, linkReset_loseLink hpark hzlr2⟩

/-- What PERST# leaves of both links of its port. -/
theorem perst_resets {port : Nat} {t1 t2 : State} (hr1 : LinkReset port (perstOn s port) t1)
    (hr2 : LinkReset (port + 2) (perstOn t1 (port + 2)) t2) :
    { t2 with host := s.host, evt := s.evt, xlt := s.xlt } = s ∧
      t2.link port = resetOf (running s) { s.link port with perst := true } ∧
      t2.link (port + 2) = resetOf (running s) { s.link (port + 2) with perst := true } := by
  have hrest : { t2 with host := s.host, evt := s.evt, xlt := s.xlt } = s := by
    have h2 : { t2 with host := s.host, evt := s.evt, xlt := s.xlt } =
        { t1 with host := s.host, evt := s.evt, xlt := s.xlt } :=
      (congrArg (fun x : State => { x with host := s.host, evt := s.evt, xlt := s.xlt }) hr2.rest :)
    exact h2.trans (congrArg (fun x : State => { x with host := s.host }) hr1.rest :)
  have hrun : running t1 = running s := (congrArg running hr1.rest :)
  have hport : (perstOn s port).link port = { s.link port with perst := true } := (link_perstOn ..).trans (if_pos rfl)
  have hother : (perstOn t1 (port + 2)).link (port + 2) = { s.link (port + 2) with perst := true } := by
    rw [link_perstOn, if_pos rfl, hr1.links _ (by omega), link_perstOn, if_neg (by omega)]
  refine ⟨hrest, ?_, ?_⟩
  · rw [hr2.links port (by omega), link_perstOn, if_neg (by omega), hr1.link, resetLink_eq, hport]
    rfl
  · rw [hr2.link, resetLink_eq, hother]
    exact congrArg (fun b => resetOf b _) hrun

theorem perstDeassert_gives (port : Nat) (s : State) : Gives (.perstDeassert port) s fun t =>
    { t with host := s.host } = s ∧ { t.host with links := s.host.links } = s.host ∧
      (∀ l ∈ [port, port + 2], t.link l = { s.link l with perst := false }) ∧
      ∀ l, l ≠ port → l ≠ port + 2 → t.link l = s.link l := by
  let u := s.setLink port { s.link port with perst := false }
  have hu (j : Nat) : u.link j = if j = port then { s.link port with perst := false } else s.link j := State.link_setLink ..
  have ht (j : Nat) : (u.setLink (port + 2) { u.link (port + 2) with perst := false }).link j =
      if j = port + 2 then { u.link (port + 2) with perst := false } else u.link j := State.link_setLink ..
  have hother : u.link (port + 2) = s.link (port + 2) := (hu _).trans (if_neg (by omega))
  refine ⟨u.setLink (port + 2) { u.link (port + 2) with perst := false }, exec_perstDeassert .., rfl, rfl, ?_, ?_⟩
  · intro j hj
    rcases List.mem_cons.mp hj with rfl | hj
    · rw [ht, if_neg (by omega), hu, if_pos rfl]
    · obtain rfl := List.mem_singleton.mp hj
      rw [ht, if_pos rfl, hother]
  · intro j h1 h2
    rw [ht, if_neg h2, hu, if_neg h1]

/-! ### Retrains and timeouts (R230, R255) -/

theorem linkRetrainTimeout_loses (h : (s.link l).retraining = true) :
    exec (.linkRetrainTimeout l) s = .next (loseLink s l false) := (exec_linkRetrainTimeout ..).trans (if_pos h)

theorem outboundReadTimeout_loses (h : ((s.link l).reads.any fun r => r.tag.isSome) = true) :
    exec (.outboundReadTimeout l) s = .next (loseLink s l false) := by
  refine (exec_outboundReadTimeout ..).trans ?_
  unfold execOutboundReadTimeout
  dsimp only
  rw [h]
  rfl

/-! ### The return to L0 (R255, R436) -/

section
variable {α : Type} {d : α} {p : α → Bool}

theorem any_of_tget (hd : p d = false) (tb : Tbl α) {k : Nat} (h : p (tget d tb k) = true) :
    tb.any (fun e => p e.2) = true := by
  induction tb with
  | nil => exact nomatch hd.symm.trans h
  | cons e tb ih =>
    obtain ⟨i, y⟩ := e
    rw [List.any_cons, Bool.or_eq_true]
    rw [tget] at h
    split at h
    · exact .inl h
    · exact .inr (ih h)

/-- What some entry of a table satisfies is unchanged by a write of a value that satisfies it as the old one did. -/
theorem any_tput (hd : p d = false) (k : Nat) (x : α) : ∀ tb : Tbl α, p x = p (tget d tb k) →
    (tput tb k x).any (fun e => p e.2) = tb.any fun e => p e.2 := by
  intro tb
  induction tb with
  | nil => exact fun hx => by rw [tput, List.any_cons, hx]; exact congrArg (· || false) hd
  | cons e tb ih =>
    obtain ⟨i, y⟩ := e
    intro hx
    unfold tput
    split
    · rw [List.any_cons]
      show (p x || List.any ((i, y) :: tb) fun e => p e.2) = _
      cases hpx : p x with
      | false => rfl
      | true => rw [any_of_tget hd ((i, y) :: tb) (hx.symm.trans hpx), Bool.or_true]
    · split
      · next hk =>
        rw [List.any_cons, List.any_cons, hx, tget, if_pos hk]
      · next hk =>
        rw [List.any_cons, List.any_cons, ih (by rw [hx, tget, if_neg hk])]

end

/-- A link's return touches none of its reads. -/
theorem onLink_setLink {k : Link} (hup : k ≠ {}) (hr : k.reads = (s.link l).reads) (hz : k.zlr = (s.link l).zlr) (n t : Nat) :
    onLink (s.setLink l k) n t = onLink s n t := by
  have hset : (s.setLink l k).host.links = tput s.host.links l k := if_neg hup
  unfold onLink
  rw [hset]
  refine any_tput (p := fun k : Link => (k.reads.any fun r => r.who = .thread n t && r.got.isNone) ||
    k.zlr.contains (.thread n t)) (d := {}) rfl l k s.host.links ?_
  rw [hr, hz]
  rfl

theorem nothingHeld_setLink {k : Link} (h : NothingHeld s) (hup : k ≠ {}) (hr : k.reads = (s.link l).reads)
    (hz : k.zlr = (s.link l).zlr) : NothingHeld (s.setLink l k) where
  backs := h.backs
  outside := h.outside
  threads := by
    have hthreads := h.threads
    unfold waitingThreads at hthreads ⊢
    simp only [onLink_setLink hup hr hz]
    exact hthreads
  commands := h.commands
  carters := h.carters
  deposits := h.deposits

/-- Where no record was refused and no message is pending, nothing is tried again. -/
theorem retryLink_nothing (he : s.evt.ring.refused = false) (hx : s.xlt.ring.refused = false)
    (hq : ∀ e ∈ s.host.cqs, e.2.refused = false) (hp : (s.link l).pend = []) : retryLink s l = s := by
  have hcq (q : Nat) : (s.cq q).refused = false := by
    cases hc : (s.cq q).refused with
    | false => rfl
    | true =>
      obtain ⟨e, hmem, hr⟩ := List.any_eq_true.mp (any_of_tget (p := CqRing.refused) (d := ({} : CqRing)) (k := q) rfl s.host.cqs hc)
      exact nomatch (hq e hmem).symm.trans hr
  unfold retryLink
  dsimp only
  have hcqs : (tkeys s.host.cqs).foldl (fun s q =>
      if !(s.cq q).loc && (s.cq q).refused && (s.cq q).link = l && recReady s q then recordWrite s q else s) s = s :=
    foldl_fixed_mem fun q _ => if_neg (by rw [hcq q, Bool.and_false]; exact Bool.false_ne_true)
  have hevt : ¬(s.evt.ring.enable && s.evt.ring.refused && s.evt.ring.link = l && !s.evt.ring.full 7) = true := by
    rw [he, Bool.and_false]; exact Bool.false_ne_true
  have hflt : ¬(s.xlt.ring.enable && s.xlt.ring.refused && s.xlt.ring.link = l && !s.xlt.ring.full 6) = true := by
    rw [hx, Bool.and_false]; exact Bool.false_ne_true
  rw [if_neg hevt, if_neg hflt, hcqs, hp, List.foldl_nil]

/-- A link that has returned to L0. -/
def upLink (k : Link) (speed width : Nat) : Link :=
  { k with up := true, retraining := false, speed := speed, width := width, busMaster := true }

theorem linkL0Return_next {speed width : Nat} (hk : (s.link l).up = false) (ht : mayTrain s l = true)
    (hr : rateOk s l speed width = true) (hp : (s.link l).pend = []) (he : s.evt.ring.refused = false)
    (hx : s.xlt.ring.refused = false) (hq : ∀ e ∈ s.host.cqs, e.2.refused = false) (hn : NothingHeld s) :
    exec (.linkL0Return l speed width) s = .next (s.setLink l (upLink (s.link l) speed width)) := by
  have hretry : retryLink (s.setLink l (upLink (s.link l) speed width)) l = s.setLink l (upLink (s.link l) speed width) :=
    retryLink_nothing he hx hq (by rw [State.link_setLink_same]; exact hp)
  have hheld : NothingHeld (s.setLink l (upLink (s.link l) speed width)) :=
    nothingHeld_setLink hn (fun h => nomatch (congrArg Link.up h : true = false)) rfl rfl
  have hgo : ¬((s.link l).up || !mayTrain s l || !rateOk s l speed width) = true := by rw [hk, ht, hr]; decide
  refine (exec_linkL0Return ..).trans ?_
  unfold execLinkL0Return
  refine (if_neg hgo).trans ?_
  show Host.Outcome.next (unhold (retryLink (s.setLink l (upLink (s.link l) speed width)) l)) = _
  rw [hretry, unhold_nothing hheld]

end Sys2Proof.Machine
end

section
/-! Completions of outbound reads (R230), for O47. -/

namespace Sys2Proof.Machine

variable {s t : State} {n u l tag : Nat} {r : ORead}

/-! ### What the entries of a canonical table list -/

section
variable {α β : Type} [DecidableEq α] {d : α} {G : α → List β}

theorem tget_of_below {tb : Tbl α} {j k : Nat} (ht : twfFrom d j tb = true) (hk : k < j) : tget d tb k = d := by
  induction tb generalizing j with
  | nil => rfl
  | cons e tb ih =>
    obtain ⟨i, y⟩ := e
    simp only [twfFrom, Bool.and_eq_true, decide_eq_true_eq] at ht
    rw [tget, if_neg (by omega)]
    exact ih ht.2 (by omega)

theorem tdel_of_below {tb : Tbl α} {j k : Nat} (ht : twfFrom d j tb = true) (hk : k < j) : tdel tb k = tb := by
  induction tb generalizing j with
  | nil => rfl
  | cons e tb ih =>
    obtain ⟨i, y⟩ := e
    simp only [twfFrom, Bool.and_eq_true, decide_eq_true_eq] at ht
    rw [tdel, if_neg (by omega), ih ht.2 (by omega)]

/-- In a canonical table the list of one key's value has its place among the others'. -/
theorem flatMap_tset (hG : G d = []) (k : Nat) : ∀ (tb : Tbl α) (j : Nat), twfFrom d j tb = true →
    ∃ A B, tb.flatMap (fun e => G e.2) = A ++ G (tget d tb k) ++ B ∧
      ∀ x, (tset d tb k x).flatMap (fun e => G e.2) = A ++ G x ++ B := by
  intro tb
  induction tb with
  | nil =>
    intro j _
    refine ⟨[], [], by rw [tget_nil, hG]; rfl, fun x => ?_⟩
    unfold tset
    split
    · next h => rw [h, hG]; rfl
    · simp [tput]
  | cons e tb ih =>
    obtain ⟨i, y⟩ := e
    intro j ht
    simp only [twfFrom, Bool.and_eq_true, decide_eq_true_eq] at ht
    obtain ⟨⟨-, -⟩, hrest⟩ := ht
    rcases Nat.lt_trichotomy k i with hk | rfl | hk
    · refine ⟨[], ((i, y) :: tb).flatMap fun e => G e.2, ?_, fun x => ?_⟩
      · rw [tget, if_neg (by omega), tget_of_below hrest (by omega), hG]; rfl
      · unfold tset
        split
        · next h => rw [h, hG, tdel, if_neg (by omega), tdel_of_below hrest (by omega)]; rfl
        · rw [tput, if_pos hk]; rfl
    · refine ⟨[], tb.flatMap fun e => G e.2, by rw [tget, if_pos rfl]; rfl, fun x => ?_⟩
      unfold tset
      split
      · next h => rw [h, hG, tdel, if_pos rfl, tdel_of_below hrest (by omega)]; rfl
      · rw [tput, if_neg (by omega), if_pos rfl]; rfl
    · obtain ⟨A, B, hget, hset⟩ := ih (i + 1) hrest
      refine ⟨G y ++ A, B, ?_, fun x => ?_⟩
      · rw [tget, if_neg (by omega), List.flatMap_cons, hget]
        simp only [List.append_assoc]
      · have hcons : tset d ((i, y) :: tb) k x = (i, y) :: tset d tb k x := by
          unfold tset
          split
          · rw [tdel, if_neg (by omega)]
          · rw [tput, if_neg (by omega), if_neg (by omega)]
        rw [hcons, List.flatMap_cons, hset]
        simp only [List.append_assoc]

/-- A change that every value's list survives leaves what the table lists. -/
theorem flatMap_foldl_tmod (hG : G d = []) {f : α → α} (hf : ∀ x, G (f x) = G x) (ks : List Nat) :
    ∀ tb : Tbl α, twf d tb = true →
      (ks.foldl (fun tb k => tmod d tb k f) tb).flatMap (fun e => G e.2) = tb.flatMap fun e => G e.2 := by
  induction ks with
  | nil => exact fun _ _ => rfl
  | cons k ks ih =>
    intro tb ht
    obtain ⟨A, B, hget, hset⟩ := flatMap_tset hG k tb 0 ht
    rw [List.foldl_cons, ih _ (twf_tmod ht), tmod, hset, hf, hget]

/-- The same of one key's value. -/
theorem tget_foldl_survives {γ : Type} {H : α → γ} {f : α → α} (hf : ∀ x, H (f x) = H x) (ks : List Nat) (k : Nat) :
    ∀ tb : Tbl α, H (tget d (ks.foldl (fun tb k => tmod d tb k f) tb) k) = H (tget d tb k) := by
  induction ks with
  | nil => exact fun _ => rfl
  | cons i ks ih =>
    intro tb
    rw [List.foldl_cons, ih, tget_tmod]
    split
    · next h => rw [h]; exact hf _
    · rfl

end

/-! ### Reads but for their tags -/

/-- A read without its tag. -/
def untag (r : ORead) : ORead := { r with tag := none }

theorem map_untag_replaceFirst {p : ORead → Bool} {i : ORead → Option Nat} (rs : List ORead) :
    (replaceFirst p (fun r => { r with tag := i r }) rs).map untag = rs.map untag := by
  induction rs with
  | nil => rfl
  | cons x rs ih =>
    unfold replaceFirst
    split
    · rfl
    · rw [List.map_cons, ih, List.map_cons]

theorem retagGo_untag (fuel : Nat) : ∀ k : Link, (retagGo fuel k).reads.map untag = k.reads.map untag := by
  induction fuel with
  | zero => exact fun _ => rfl
  | succ fuel ih =>
    intro k
    unfold retagGo
    dsimp only
    split
    · exact (ih _).trans (map_untag_replaceFirst k.reads)
    · rfl

/-- Tags that have freed are taken: no read changes but for its tag. -/
theorem retag_untag (k : Link) : k.retag.reads.map untag = k.reads.map untag := retagGo_untag ..

theorem link_retagAll (s : State) (l : Nat) :
    ((retagAll s).link l).reads.map untag = (s.link l).reads.map untag :=
  tget_foldl_survives (H := fun k : Link => k.reads.map untag) retag_untag _ l s.host.links

theorem filter_who_untag (rs : List ORead) (who : Agent) :
    (rs.filter fun r => r.who = who).map untag = (rs.map untag).filter fun r => r.who = who := by
  rw [List.filter_map]
  rfl

/-- The reads of an agent, but for their tags. -/
def readsOfLink (who : Agent) (k : Link) : List ORead := (k.reads.map untag).filter fun r => r.who = who

theorem readsOf_untag (s : State) (who : Agent) :
    (readsOf s who).map untag = s.host.links.flatMap fun e => readsOfLink who e.2 := by
  unfold readsOf readsOfLink
  rw [List.map_flatMap]
  exact congrArg (fun f => s.host.links.flatMap f) (funext fun e => filter_who_untag ..)

theorem readsOf_retagAll (ht : twf {} s.host.links = true) (who : Agent) :
    (readsOf (retagAll s) who).map untag = (readsOf s who).map untag := by
  rw [readsOf_untag, readsOf_untag]
  exact flatMap_foldl_tmod (G := readsOfLink who) rfl
    (fun k => by unfold readsOfLink; rw [retag_untag]) (tkeys s.host.links) s.host.links ht

/-- One agent's one read, which link `l` has, changes. -/
theorem readsOf_setLink {who : Agent} {x y : ORead} {k : Link} (ht : twf {} s.host.links = true)
    (hl : readsOfLink who (s.link l) = [x]) (hall : (readsOf s who).map untag = [x]) (hk : readsOfLink who k = [y]) :
    (readsOf (s.setLink l k) who).map untag = [y] := by
  obtain ⟨A, B, hget, hset⟩ := flatMap_tset (G := readsOfLink who) (d := ({} : Link)) rfl l s.host.links 0 ht
  rw [readsOf_untag] at hall
  have hlink : tget {} s.host.links l = s.link l := rfl
  rw [hall, hlink, hl] at hget
  rw [readsOf_untag]
  refine (hset k).trans ?_
  rw [hk]
  have hlen := congrArg List.length hget
  simp only [List.length_append, List.length_cons, List.length_nil] at hlen
  have hA : A = [] := List.eq_nil_of_length_eq_zero (by omega)
  have hB : B = [] := List.eq_nil_of_length_eq_zero (by omega)
  rw [hA, hB]
  rfl

theorem pruneOld_idle (h : s.xlt.inval = none) : pruneOld s = s := by
  unfold pruneOld
  rw [h]
  show { s with xlt := { s.xlt with inval := none } } = s
  rw [← h]

/-- A link's reads without those of some agents. -/
def dropReads (p : Agent → Bool) (k : Link) : Link := { k with reads := k.reads.filter fun r => !p r.who }

theorem dropReads_twice (p : Agent → Bool) (k : Link) : dropReads p (dropReads p k) = dropReads p k := by
  unfold dropReads
  rw [List.filter_filter]
  simp only [Bool.and_self]

theorem link_dropReads (p : Agent → Bool) (tb : Tbl Link) (l : Nat) :
    tget {} ((tkeys tb).foldl (fun tb l => tmod {} tb l (dropReads p)) tb) l = dropReads p (tget {} tb l) :=
  tget_foldl_keys (dropReads_twice p) rfl tb l

theorem reads_of_untag_nil {rs : List ORead} (h : rs.map untag = []) : rs = [] := List.map_eq_nil_iff.mp h

theorem dropReads_all {p : Agent → Bool} {k : Link} (h : ∀ r ∈ k.reads, p r.who = true) : (dropReads p k).reads = [] := by
  unfold dropReads
  rw [List.filter_eq_nil_iff]
  intro r hr
  rw [h r hr]
  decide

theorem OnlyXltSys.link {a b : State} (h : OnlyXltSys a b) (l : Nat) : b.link l = a.link l :=
  (congrArg (fun x : Host_ => tget {} x.links l) h.host :)

/-- The reads of an agent whose accesses are given up are gone. -/
theorem reads_forgetIf (s : State) (p : Agent → Bool) (l : Nat) (h : ∀ r ∈ (s.link l).reads, p r.who = true) :
    ((forgetIf s p).link l).reads = [] := by
  refine reads_of_untag_nil ?_
  unfold forgetIf
  dsimp only
  refine (link_retagAll _ l).trans ?_
  rw [(onlyXltSys_walkNexts (List.range 4) _).link]
  refine congrArg (List.map untag) (Eq.trans ?_ (dropReads_all (p := p) (k := s.link l) h))
  exact congrArg Link.reads (link_dropReads p s.host.links l)

/-- The reads of an agent that are over are gone. -/
theorem reads_readsDone (s : State) (who : Agent) (l : Nat) (h : ∀ r ∈ (s.link l).reads, r.who = who) :
    ((readsDone s who).link l).reads = [] := by
  refine reads_of_untag_nil ?_
  unfold readsDone
  refine (link_retagAll _ l).trans ?_
  have hf : (fun k : Link => { k with reads := k.reads.filter fun r => r.who ≠ who }) = dropReads fun a => a = who := by
    funext k
    unfold dropReads
    simp only [ne_eq, decide_not]
  refine congrArg (List.map untag) (Eq.trans ?_ (dropReads_all (p := fun a => a = who) (k := s.link l) fun r hr =>
    decide_eq_true (h r hr)))
  refine congrArg Link.reads (Eq.trans ?_ (link_dropReads (fun a => a = who) s.host.links l))
  rw [hf]
  rfl

/-! ### A read answered Unsupported Request or Completer Abort -/

theorem readCompletion_fails (hreads : (s.link l).reads = [r]) (htag : r.tag = some tag)
    (hk : (s.link l).retraining = false) (hwho : r.who = .thread n u) :
    exec (.outboundReadCompletion l tag false []) s =
      .next (takeFault (forget s (.thread n u)) n u cRIGHTS stRIGHTS (BitVec.ofNat 64 r.dva)) := by
  refine (exec_outboundReadCompletion ..).trans ?_
  have hfind : (s.link l).reads.find? (fun r => r.tag = some tag) = some r := by rw [hreads]; simp [htag]
  unfold execOutboundReadCompletion
  rw [hfind]
  dsimp only
  rw [if_neg (by rw [hk]; decide)]
  refine (if_pos rfl).trans ?_
  unfold readFails
  rw [hwho]

theorem links_pushEvent (s : State) (n e : Nat) : (pushEvent s n e).host.links = s.host.links := by
  unfold pushEvent
  dsimp only
  split
  · rfl
  · rfl

theorem links_noteLaunch (s : State) (n : Nat) (f : LFault) : (noteLaunch s n f).host.links = s.host.links := by
  unfold noteLaunch
  split
  · rfl
  · rfl

/-- A kernel thread's fault touches no link. -/
theorem links_enterFault {cause status : Nat} (issue stop : Nat) (deferred : Bool) (addr : Word) (hu : u ≠ 0)
    (hs : status ≠ 0x0401) :
    (enterFault s n u cause status issue stop deferred addr).host.links = s.host.links := by
  unfold enterFault
  dsimp only
  rw [if_neg hu, if_neg fun h => hs h.1]
  exact (links_pushEvent ..).trans (links_noteLaunch ..)

theorem readCompletion_refused (hreads : (s.link l).reads = [r]) (htag : r.tag = some tag)
    (hk : (s.link l).retraining = false) (hwho : r.who = .thread n u) (hu : u ≠ 0) :
    Gives (.outboundReadCompletion l tag false []) s fun t =>
      (t.thr n u).st = .faulted ∧ (t.thr n u).fCause = cRIGHTS ∧ (t.thr n u).fStatus = 0x0201 ∧
        (t.thr n u).faddr = BitVec.ofNat 64 r.dva ∧ (t.thr n u).pc = (s.thr n u).pc ∧ SameRegs (s.thr n u) (t.thr n u) ∧
        (t.link l).reads = [] := by
  have hforget : OnlyLinksXlt s (forget s (.thread n u)) := onlyLinksXlt_forgetIf _ _
  have hnone : ((forget s (.thread n u)).link l).reads = [] := reads_forgetIf s _ l fun x hx => by
    rw [hreads] at hx
    rw [List.mem_singleton.mp hx, hwho]
    exact decide_eq_true rfl
  have hthr : (forget s (.thread n u)).thr n u = s.thr n u := thr_of_cores hforget.cores ..
  refine ⟨_, readCompletion_fails hreads htag hk hwho, ?_⟩
  generalize forget s (.thread n u) = v at *
  have hx : (takeFault v n u cRIGHTS stRIGHTS (BitVec.ofNat 64 r.dva)).thr n u =
      faultedThread (v.thr n u) cRIGHTS stRIGHTS (v.thr n u).pc.toNat (v.thr n u).pc.toNat false (BitVec.ofNat 64 r.dva) :=
    (enterFault_leaves _ _ _ _ (Nat.pos_of_ne_zero hu) (by decide)).thread
  have hlinks : (takeFault v n u cRIGHTS stRIGHTS (BitVec.ofNat 64 r.dva)).host.links = v.host.links :=
    links_enterFault _ _ _ _ hu (by decide)
  have hlink : (takeFault v n u cRIGHTS stRIGHTS (BitVec.ofNat 64 r.dva)).link l = v.link l :=
    (congrArg (fun x : Tbl Link => tget {} x l) hlinks :)
  rw [hlink, hx, hthr]
  exact ⟨rfl, rfl, rfl, rfl, rfl, sameRegs_of rfl rfl rfl rfl rfl, hnone⟩

/-! ### A read that brings its data -/

/-- A read that has been answered. -/
def gotRead (r : ORead) (data : List Byte) : ORead := { r with tag := none, got := some data }

/-- A link whose one read has been answered. -/
def gotLink (k : Link) (r : ORead) (data : List Byte) : Link := { k with reads := [gotRead r data] }

theorem readCompletion_goes {data : List Byte} (hreads : (s.link l).reads = [r]) (htag : r.tag = some tag)
    (hk : (s.link l).retraining = false) (hcar : s.car.slots = []) (hlen : data.length = r.len) :
    exec (.outboundReadCompletion l tag true data) s =
      .next (readGo (pruneOld (retagAll (s.setLink l (gotLink (s.link l) r data)))) r.who) := by
  refine (exec_outboundReadCompletion ..).trans ?_
  have hfind : (s.link l).reads.find? (fun r => r.tag = some tag) = some r := by rw [hreads]; simp [htag]
  have hsettle : linkSettle s l r.at_ = s := by unfold linkSettle; rw [hcar]; rfl
  have hbs : (data ++ List.replicate r.len 0).take r.len = data := by rw [← hlen, List.take_left']; rfl
  unfold execOutboundReadCompletion
  rw [hfind]
  dsimp only
  rw [if_neg (by rw [hk]; decide)]
  refine (if_neg (by decide)).trans ?_
  rw [hsettle, hcar, hreads, hbs]
  refine (if_neg (by simp)).trans ?_
  have hrep : replaceFirst (fun x => x = r) (fun x => { x with tag := none, got := some data }) [r] = [gotRead r data] := by
    simp [replaceFirst, gotRead]
  rw [hrep]
  rfl

/-- The answer of an access with one read. -/
theorem answers_one {rs : List ORead} {x : ORead} {data : List Byte} (h : rs.map untag = [x]) (hgot : x.got = some data)
    (hseq : x.seq = 0) : answers rs = some data := by
  cases rs with
  | nil => exact nomatch h
  | cons y ys =>
    obtain ⟨hy, hys⟩ := List.cons.inj h
    obtain rfl := List.map_eq_nil_iff.mp hys
    subst hy
    have hg : y.got = some data := hgot
    have hs : y.seq = 0 := hseq
    unfold answers
    simp [hg, hs, List.range_succ]

theorem readPieces_host {a k : Nat} {data : List Byte} (hlen : data.length = k) :
    readPieces s [(.host l a, k)] data = (s, .ok data) := by
  unfold readPieces
  have hbs : (data ++ List.replicate k 0).take k = data := by rw [← hlen, List.take_left']; rfl
  rw [readPieces, hbs]
  show (s, Except.ok (data ++ [])) = _
  rw [List.append_nil]

/-- An access whose reads have been answered goes on under the translation that it holds. -/
theorem accessRead_answered {rq : Req} {v k a : Nat} {data : List Byte} (hheld : s.xlt.atHome = [⟨rq.agent, 0, v, k, [(.host l a, k)]⟩])
    (hr : answers (readsOf s rq.agent) = some data) (hne : readsOf s rq.agent ≠ []) (hlen : data.length = k) :
    accessRead s rq 0 v k = .done (readsDone { s with xlt := { s.xlt with atHome := [] } } rq.agent) data [] := by
  have hx : xlateAll s rq 0 v k = ({ s with xlt := { s.xlt with atHome := [] } }, .ok [(.host l a, k)]) := by
    unfold xlateAll
    rw [hheld]
    simp [XHeld.is]
  have hr' : readsOf { s with xlt := { s.xlt with atHome := [] } } rq.agent = readsOf s rq.agent := rfl
  unfold accessRead
  rw [hx]
  dsimp only
  unfold readAt
  dsimp only
  have hempty : (readsOf s rq.agent).isEmpty = false := List.isEmpty_eq_false_iff.mpr hne
  rw [hr', hempty, Bool.false_and, if_neg Bool.false_ne_true, hr]
  dsimp only
  rw [readPieces_host hlen]

/-- A thread that issues its waiting instruction again. -/
def issuesAgain (x : Thread) : Thread := { x with st := .ready, dfr := none }

/-- A deferred fault that came meanwhile stays. -/
def keepsDeferred (x : Thread) : Thread := { x with dfr := if x.dfr.isSome then x.dfr else none }

theorem replayThread_ldg {pr d a size : Nat} {w : State} (hst : (s.thr n u).st = .waiting)
    (hb : (s.thr n u).blk = some (.ldg pr d a size)) (hd : (s.thr n u).dfr = none)
    (he : exec (.ldg n u pr d a size) (s.setThr n u (issuesAgain (s.thr n u))) = .next w) :
    replayThread s n u = w.modThr n u keepsDeferred := by
  have hre : reissue n u (.ldg pr d a size) (s.setThr n u (issuesAgain (s.thr n u))) = .next w := (exec_ldg ..).symm.trans he
  unfold replayThread
  dsimp only
  rw [hst, hb]
  dsimp only
  rw [← hb]
  unfold issuesAgain at hre
  rw [hre]
  dsimp only
  rw [hd]
  rfl

theorem readGo_thread {data : List Byte} (ha : answers (readsOf s (.thread n u)) = some data)
    (hst : (s.thr n u).st = .waiting) : readGo s (.thread n u) = replayThread s n u := by
  unfold readGo
  rw [ha]
  refine (if_neg Bool.false_ne_true).trans ?_
  unfold threadData
  exact if_pos (by rw [hst]; decide)

/-- A load whose access is done, its checks given. -/
theorem ldg_completes {pr d a size : Nat} {s2 : State} {bs : List Byte} {ls : List Nat} (hi : MayIssue s n u pr) (hs : size ≤ 3)
    (hc : Clear (dvaChecks ((s.thr n u).rs a).toNat (sizeBytes size)))
    (hacc : accessRead s (coreReq s n u (.thread n u)) 0 ((s.thr n u).rs a).toNat (sizeBytes size) = .done s2 bs ls) :
    exec (.ldg n u pr d a size) s =
      .next ((s2.modThr n u fun th => th.ws d (BitVec.ofNat 64 (leNat bs))).modThr n u retire) := by
  refine (exec_ldg ..).trans ?_
  unfold execLdg
  refine coreStep_done hi.runs hi.next (firstCheck_clear ?_) ?_
  · exact clear_cons.mpr ⟨decide_eq_false (by omega), hc⟩
  · dsimp only
    rw [hacc]
    rfl

/-- A thread's load completes with `val`. -/
def loaded (s : State) (n u d : Nat) (x : Thread) (val : Word) : State :=
  (((s.setThr n u (issuesAgain x)).modThr n u fun th => th.ws d val).modThr n u retire).modThr n u keepsDeferred

theorem loaded_leaves (s : State) (n u d : Nat) (x : Thread) (val : Word) :
    OnlyThread s (loaded s n u d x val) n u ∧ Retired x ((loaded s n u d x val).thr n u) ∧
      ScalarSet x ((loaded s n u d x val).thr n u) d val := by
  have hthr : (loaded s n u d x val).thr n u = keepsDeferred (retire ((issuesAgain x).ws d val)) := by
    unfold loaded
    rw [State.thr_modThr_same, State.thr_modThr_same, State.thr_modThr_same, State.thr_setThr_same]
  refine ⟨?_, ?_, ?_⟩
  · exact (onlyThread_setThr ..).trans ((onlyThread_modThr ..).trans ((onlyThread_modThr ..).trans (onlyThread_modThr ..)))
  · rw [hthr]
    exact ⟨rfl, rfl, rfl⟩
  · rw [hthr]
    obtain ⟨hdest, hs, hv, hp, hc, hflg⟩ := scalarSet_retire (issuesAgain x) d val
    exact ⟨hdest, hs, hv, hp, hc, hflg⟩

theorem loaded_host (s : State) (n u d : Nat) (x : Thread) (val : Word) : (loaded s n u d x val).host = s.host := by
  unfold loaded
  rw [State.modThr_host, State.modThr_host, State.modThr_host, State.setThr_host]

theorem readCompletion_loads {pr d a size : Nat} {data : List Byte} (hwf : twf {} s.host.links = true)
    (hreads : (s.link l).reads = [r]) (htag : r.tag = some tag) (hseq : r.seq = 0) (hwho : r.who = .thread n u)
    (hall : readsOf s (.thread n u) = [r]) (hst : (s.thr n u).st = .waiting)
    (hb : (s.thr n u).blk = some (.ldg pr d a size)) (hd : (s.thr n u).dfr = none) (hinv : s.xlt.inval = none)
    (hk : (s.link l).retraining = false) (hcar : s.car.slots = []) (hlen : data.length = r.len) (hs : size ≤ 3)
    (hsize : r.len = sizeBytes size) (hpr : ((s.thr n u).rp pr).getLsbD 0 = true)
    (hc : Clear (dvaChecks ((s.thr n u).rs a).toNat r.len)) (hpc : pcOk u ((s.thr n u).pc.toNat + 8) = true)
    (hheld : s.xlt.atHome = [⟨.thread n u, 0, ((s.thr n u).rs a).toNat, r.len, [(.host l r.addr, r.len)]⟩]) :
    Gives (.outboundReadCompletion l tag true data) s fun t =>
      OnlyThread { s with host := t.host, xlt := { s.xlt with atHome := [] } } t n u ∧
        Retired (s.thr n u) (t.thr n u) ∧ ScalarSet (s.thr n u) (t.thr n u) d (BitVec.ofNat 64 (leNat data)) ∧
        (t.link l).reads = [] := by
  have hmine : readsOfLink (.thread n u) (s.link l) = [untag r] := by
    unfold readsOfLink
    rw [hreads]
    simp [untag, hwho]
  have hmine' : readsOfLink (.thread n u) (gotLink (s.link l) r data) = [gotRead r data] := by
    unfold readsOfLink
    simp [untag, gotLink, gotRead, hwho]
  have hset := readsOf_setLink hwf hmine (by rw [hall]; rfl) hmine'
  have hmap := (readsOf_retagAll (s := s.setLink l (gotLink (s.link l) r data)) (twf_tset hwf) (.thread n u)).trans hset
  have hlink : ((retagAll (s.setLink l (gotLink (s.link l) r data))).link l).reads.map untag = [gotRead r data] := by
    rw [link_retagAll, State.link_setLink_same]
    rfl
  have hv : { retagAll (s.setLink l (gotLink (s.link l) r data)) with host := s.host } = s := rfl
  have he := readCompletion_goes hreads htag hk hcar hlen
  rw [pruneOld_idle (s := retagAll (s.setLink l (gotLink (s.link l) r data))) hinv, hwho] at he
  generalize retagAll (s.setLink l (gotLink (s.link l) r data)) = v at *
  have hthr : v.thr n u = s.thr n u := (congrArg (fun x : State => x.thr n u) hv :)
  have hvx : v.xlt = s.xlt := (congrArg State.xlt hv :)
  have hans : answers (readsOf v (.thread n u)) = some data := answers_one hmap rfl hseq
  rw [readGo_thread hans (by rw [hthr]; exact hst)] at he
  let z := readsDone { v with xlt := { s.xlt with atHome := [] } } (.thread n u)
  let y := v.setThr n u (issuesAgain (v.thr n u))
  have hy : y.thr n u = issuesAgain (s.thr n u) := by rw [← hthr]; exact State.thr_setThr_same ..
  have hacc : accessRead y (coreReq y n u (.thread n u)) 0 ((y.thr n u).rs a).toNat (sizeBytes size) =
      .done (z.setThr n u (issuesAgain (s.thr n u))) data [] := by
    rw [hy, ← hsize]
    refine (accessRead_answered (s := y) (l := l) (a := r.addr) (rq := coreReq y n u (.thread n u)) ?_ hans ?_ hlen).trans ?_
    · exact (congrArg Xlt.atHome hvx).trans hheld
    · intro hnone
      rw [show readsOf v (.thread n u) = [] from hnone] at hmap
      exact nomatch hmap
    · rw [show y.xlt = s.xlt from hvx, ← hthr]
      rfl
  have hload := ldg_completes (s := y) (pr := pr) (d := d)
    ⟨⟨by rw [hy]; rfl, by rw [hy]; rfl, by rw [hy]; exact hpc⟩, by rw [hy]; exact hpr⟩ hs
    (by rw [hy, ← hsize]; exact hc) hacc
  rw [replayThread_ldg (by rw [hthr]; exact hst) (by rw [hthr]; exact hb) (by rw [hthr]; exact hd) hload] at he
  have hz : { s with host := z.host, xlt := { s.xlt with atHome := [] } } = z := by
    calc { s with host := z.host, xlt := { s.xlt with atHome := [] } }
        = { ({ v with host := s.host } : State) with host := z.host, xlt := { s.xlt with atHome := [] } } := by rw [hv]
      _ = z := rfl
  have hdone : (z.link l).reads = [] := reads_readsDone _ _ l fun x hx => by
    have hmem : untag x ∈ [gotRead r data] := hlink ▸ List.mem_map_of_mem hx
    have hx' : untag x = gotRead r data := List.mem_singleton.mp hmem
    exact (congrArg ORead.who hx' :).trans hwho
  obtain ⟨honly, hret, hscalar⟩ := loaded_leaves z n u d (s.thr n u) (BitVec.ofNat 64 (leNat data))
  have hhost := loaded_host z n u d (s.thr n u) (BitVec.ofNat 64 (leNat data))
  refine ⟨loaded z n u d (s.thr n u) (BitVec.ofNat 64 (leNat data)), he, ?_, hret, hscalar, ?_⟩
  · rw [hhost, hz]
    exact honly
  · exact (congrArg (fun x : Host_ => (tget {} x.links l : Link).reads) hhost :).trans hdone

/-! ### The obligation -/

/-- What PERST# clears, on both links of its port. -/
theorem perstAssert_clears {port : Nat} (hp : s.dram.parked = []) (hn : ∀ j, ZWho.inval ∉ (s.link j).zlr)
    (h1 : (s.link port).perst = false) (h2 : (s.link (port + 2)).perst = false) :
    ∃ t1 t2, exec (.perstAssert port) s = .next t2 ∧ LinkReset port (perstOn s port) t1 ∧
      LinkReset (port + 2) (perstOn t1 (port + 2)) t2 ∧
      (∀ r, (s.ring r).loc = false → (s.ring r).link = port → (t2.ring r).enable = false) ∧
      (∀ r, (s.ring r).loc = false → (s.ring r).link = port + 2 → (t2.ring r).enable = false) ∧
      (∀ q, (s.cq q).loc = false → (s.cq q).link = port → (t2.cq q).enable = false) ∧
      ∀ q, (s.cq q).loc = false → (s.cq q).link = port + 2 → (t2.cq q).enable = false := by
  obtain ⟨t1, t2, he, hr1, hr2⟩ := perstAssert_gives hp hn h1 h2
  have hcq (q : Nat) : t2.cq q = lostCq (port + 2) (lostCq port (s.cq q)) := (hr2.cq q).trans (congrArg _ (hr1.cq q))
  refine ⟨t1, t2, he, hr1, hr2, fun r hloc hl => hr2.ringOff r (hr1.ringStops r hloc hl),
    fun r hloc hl => hr2.ringStops r ((hr1.ring r).1.trans hloc) ((hr1.ring r).2.trans hl), fun q hloc hl => ?_,
    fun q hloc hl => ?_⟩
  · rw [hcq]
    exact (lostCq_keeps ..).2.2 (lostCq_off hloc hl)
  · rw [hcq]
    obtain ⟨hloc', hl', -⟩ := lostCq_keeps port (s.cq q)
    exact lostCq_off (hloc'.trans hloc) (hl'.trans hl)

/-- Settles O47 (`hostLinks` is a function of the model): resets cut links off and clear what hangs on them, timeouts cut
them off alone, and the completion of a read ends its thread's access. -/
theorem hostLinks' : Obligations.HostLinks := by
  unfold Obligations.HostLinks
  refine ⟨fun port l speed width s => ⟨fun hp hn h1 h2 => ?_, perstDeassert_gives port s, fun hp hn hl hk => ?_, fun hup => ?_,
    fun hk hn => ?_, fun hk hn => ?_, linkL0Return_next⟩,
    fun l n u pr d a size tag data r s hwf hreads htag _ hseq hwho hall hst hb hd hinv hu hk hcar =>
      ⟨readCompletion_loads hwf hreads htag hseq hwho hall hst hb hd hinv hk hcar,
        readCompletion_refused hreads htag hk hwho hu⟩⟩
  · obtain ⟨t1, t2, he, hr1, hr2, hring1, hring2, hcq1, hcq2⟩ := perstAssert_clears hp hn h1 h2
    obtain ⟨hrest, hlink1, hlink2⟩ := perst_resets hr1 hr2
    obtain ⟨hev, hevb, hfl, hflb, -, hl2⟩ := hr2.rings
    refine ⟨t2, he, ⟨hev, hevb, hfl, hflb, hrest, hl2⟩, fun j hj => ?_⟩
    rcases List.mem_cons.mp hj with rfl | hj
    · exact ⟨by rw [hlink1]; rfl, reset_of_link hlink1 rfl hring1 hcq1⟩
    · obtain rfl := List.mem_singleton.mp hj
      exact ⟨by rw [hlink2]; rfl, reset_of_link hlink2 rfl hring2 hcq2⟩
  · have hr := linkReset_loseLink hp (hn l)
    obtain ⟨hhot, hflr⟩ := hotReset_resets hl hk
    exact ⟨⟨_, hhot, hr.rings, hr.reset, hr.links⟩, ⟨_, hflr, hr.rings, hr.reset, hr.links⟩⟩
  · exact (exec_linkRetrainStart ..).trans (if_pos hup)
  · have hl := linkLost_loseLink (hn l)
    exact ⟨_, linkRetrainTimeout_loses hk, hl.link, hl.links, hl.rest, hl.host, hl.xlt⟩
  · have hl := linkLost_loseLink (hn l)
    exact ⟨_, outboundReadTimeout_loses hk, hl.link, hl.links, hl.rest, hl.host, hl.xlt⟩

end Sys2Proof.Machine
end
